-- ==== Sys2Proof/Word.lean ====
section
/-!
DEFINITION. The bytes, coordinates and sparse tables every other file of the model speaks of.
-/
namespace Sys2Proof

/-- One byte of data. -/
abbrev Byte := BitVec 8

/-- A 16-bit fault code or status (R498); 0 is OK. -/
abbrev Code := BitVec 16

/-- A 256-bit token payload or accumulator word (R73, R132). -/
abbrev Word256 := BitVec 256

/-- A 64-bit register. -/
abbrev Reg64 := BitVec 64

/-- A cell coordinate (R14): `x` 0–959, `y` 0–639; whether the place exists is R15's question. -/
structure Coord where
  x : Nat
  y : Nat
  deriving DecidableEq, Repr

/-- A byte as the engine stores and moves it (R125): eight data bits and one parity bit. The parity is good
when it equals the XOR of the data bits; the poison pattern (R126) is data 0x00 with parity 1. -/
structure PByte where
  data : Byte
  par  : Bool
  deriving DecidableEq, Repr

/-- A payload: bytes in ascending address order, each with its parity. -/
abbrev Payload := List PByte

/-- A sparse table by number: entries in strictly rising key order, none equal to what an unlisted key reads as. -/
abbrev SMap (α : Type) := List (Nat × α)

/-- A scratchpad: its bytes by address (R107). -/
abbrev Memory := SMap PByte

end Sys2Proof
end

