-- ==== Sys2Proof/Syntax.lean ====
section
/-!
DEFINITION. The commands the engine takes: one constructor of `Instr` per row of the table of operations and events,
with the unit each names and what reaches it from outside. `Instr` is the last declaration.
-/
namespace Sys2Proof

/-- A management port (R426): the 800GbE host port or the field-network port. -/
inductive MgmtPort | host | field
  deriving DecidableEq, Repr

/-- The source of a message (R173, R426): port, source address and source UDP port. -/
structure Source where
  port : MgmtPort
  addr : Nat
  udp  : Nat
  deriving DecidableEq, Repr

/-- An HCP command message (R172), with the source it came from and, for LOAD_DATA, its payload. -/
structure HcpMsg where
  src        : Source
  version    : Nat
  opcode     : Nat
  seq        : Nat
  region     : Nat
  flags      : Nat
  step       : Nat
  bx         : Nat
  oy         : Nat
  length     : Nat
  dataOffset : Nat
  payload    : List Byte
  deriving DecidableEq, Repr

/-- An ODP request message (R427), with its source and payload. -/
structure OdpMsg where
  src      : Source
  version  : Nat
  op       : Nat
  flags    : Nat
  seq      : Nat
  index    : Nat
  subindex : Nat
  type     : Nat
  session  : Nat
  offset   : Nat
  length   : Nat
  handle   : Nat
  total    : Nat
  payload  : List Byte
  deriving DecidableEq, Repr

/-- A RoCEv2 packet addressed to queue pair `qp` (R480, R482). -/
structure RdmaPkt where
  qp      : Nat
  psn     : Nat
  rkey    : Nat
  va      : Nat
  dmaLen  : Nat
  payload : List Byte
  ce      : Bool
  deriving DecidableEq, Repr

/-- What a frame carries: a UDP datagram, an ARP request, an ICMPv6 neighbour solicitation, an echo request, or something else (R476, R479). -/
inductive EthKind | udp | arp | neighbour | echo | other
  deriving DecidableEq, Repr

/-- What an Ethernet frame at a port is (R476, R478, R479, R484): the address it is for, or that is asked for, as a number of 128 bits, of 32 for IPv4. -/
structure EthFrame where
  port       : MgmtPort
  kind       : EthKind
  ipv4       : Bool
  dest       : Nat
  ce         : Bool
  length     : Nat
  tagged     : Bool
  pause      : Bool
  dstUdp     : Nat
  src        : Source
  checksumOk : Bool
  ipv4Zero   : Bool
  payload    : List Byte
  deriving DecidableEq, Repr

/-- How a received codeword decoded (R264, R267). -/
inductive Decoded | clean | corrected | uncorrectable
  deriving DecidableEq, Repr

/-- A Relend link unit as it arrives at a port (R266). -/
structure LinkUnit where
  decoded    : Decoded
  seq        : Nat
  ack        : Nat
  reqCredit  : Nat
  respCredit : Nat
  nak        : Bool
  idle       : Bool
  data       : List Byte
  deriving DecidableEq, Repr

/-- What a hub sends next (R360): the field, and how many fetches in a row of what it stages show a digest that does not match. -/
structure HubSend where
  f   : Nat
  bad : Nat
  deriving DecidableEq, Repr

/-- A field's status sweep (R361): the field, and the members that do not answer it at all. -/
structure SweepAnswers where
  f      : Nat
  silent : List Coord
  deriving DecidableEq, Repr

/-- A physical vault that takes in its next request (R222), and how many 32-byte transfers of a channel's write cross its port with bad parity (R228). -/
structure VaultTurn where
  pv           : Nat
  badTransfers : Nat
  deriving DecidableEq, Repr

/-- An inverted payload parity or sideband parity that a link adds to a token on its way (R153). -/
structure TokenErr where
  sideband : Bool
  flips    : List Nat
  deriving DecidableEq, Repr

/-- Errors that a link or a packet meets at a hop (R193): a bad header parity byte, a changed data bit. -/
structure HopErr where
  header : Bool
  crc    : Bool
  deriving DecidableEq, Repr

/-- A changed entry of a routing version (R199): router, destination paddock and the 8-bit entry. -/
structure RouteEntry where
  at_   : Coord
  paddock : Nat
  entry : BitVec 8
  deriving DecidableEq, Repr

/-- One byte in error in a line as the vault reads it (R226): position in the codeword and the bits that differ. -/
structure LineErr where
  pos : Nat
  xor : Byte
  deriving DecidableEq, Repr

/-- What goes wrong with one line on its way (R226, R228): port transfers that showed bad parity, and bytes in error as the vault reads it. -/
structure LineTrouble where
  badTransfers : Nat
  errs : List LineErr
  deriving DecidableEq, Repr

/-- Nothing goes wrong. -/
def LineTrouble.none : LineTrouble := { badTransfers := 0, errs := [] }

/-- Where a failed link test at S5 lies (R324): the east (false) or south (true) edge of a cell, the unit tested
(0 mesh wires, 1 vector, 2 scalar, 3 control tracks) and how many wires or tracks failed. -/
structure EdgeFail where
  cell   : Coord
  south  : Bool
  unit_  : Nat
  failed : Nat
  deriving DecidableEq, Repr

/-- A paddock's sensors at a temperature scan (R407), in °C. -/
structure PaddockTemp where
  paddock : Nat
  junction : Nat
  loft    : Nat
  deriving DecidableEq, Repr

/-- Coolant inlet and outlet of one half, in tenths of a kelvin (R407). -/
structure Coolant where
  inlet  : Nat
  outlet : Nat
  deriving DecidableEq, Repr

/-- A paddock's own samples for the estimate (R394, R402): rail in mV, current in tenths of an ampere, hottest junction in °C and the ten event counts. -/
structure PaddockActivity where
  paddock : Nat
  railMv  : Nat
  currentDa : Nat
  tjC     : Int
  counts  : List Nat
  deriving DecidableEq, Repr

/-- A sample of a paddock's rail, in quarters of a millivolt (R399). -/
structure RailSample where
  paddock : Nat
  quarterMv : Nat
  deriving DecidableEq, Repr

/-- The rails of a stretched field's four paddocks, in quarters of a millivolt, after so many stretched cycles (R399). -/
structure FieldRails where
  field : Nat
  cycles : Nat
  rails : List Nat
  deriving DecidableEq, Repr

/-- Where the least slack of a paddock's monitors lies against the factory band (R398). -/
inductive Slack | below | inside | above
  deriving DecidableEq, Repr

/-- A node of the muster tree (R253). -/
inductive TreeNode
  | block (field kx ky : Nat)
  | field (f : Nat)
  | row (r : Nat)
  | apex
  deriving DecidableEq, Repr

/-- The cause of a fuse opening (R392, R394). -/
inductive TripCause | overcurrent | undervoltage | settleTimeout | overtemperature
  deriving DecidableEq, Repr

/-- A receive lane's failure at training or in service (R329). -/
inductive LaneCause | training | correctedRatio | uncorrectable
  deriving DecidableEq, Repr

/-- Why a vault is lost (R236, R460). -/
inductive VaultCause | paddockTrip | cellOut | declared
  deriving DecidableEq, Repr

/-- The engine's operations and events, one constructor per row of the table, in its order. -/
inductive Instr
  | sequencerCycle (c : Coord)
  | nop (c : Coord)
  | fence (c : Coord)
  | predPop (c : Coord)
  | predSet (c : Coord)
  | agReset (c : Coord)
  | musterEnter (c : Coord)
  | copy (c : Coord)
  | convert (c : Coord)
  | zero (c : Coord)
  | mac (c : Coord)
  | accOut (c : Coord)
  | accSpill (c : Coord)
  | accFill (c : Coord)
  | anchorSet (c : Coord)
  | vectorAdd (c : Coord)
  | vectorSub (c : Coord)
  | vectorMul (c : Coord)
  | vectorMax (c : Coord)
  | vectorMin (c : Coord)
  | vectorAnd (c : Coord)
  | vectorOr (c : Coord)
  | vectorXor (c : Coord)
  | cmpLt (c : Coord)
  | cmpEq (c : Coord)
  | exp2 (c : Coord)
  | exp (c : Coord)
  | log2 (c : Coord)
  | log (c : Coord)
  | recip (c : Coord)
  | sqrt (c : Coord)
  | rsqrt (c : Coord)
  | tanh (c : Coord)
  | sigmoid (c : Coord)
  | sin (c : Coord)
  | cos (c : Coord)
  | sort (c : Coord)
  | topk (c : Coord)
  | lookup (c : Coord)
  | cas32 (c : Coord)
  | cas64 (c : Coord)
  | fadd32 (c : Coord)
  | fadd64 (c : Coord)
  | ccount (c : Coord)
  | dmaIssue (c : Coord)
  | put (c : Coord)
  | get (c : Coord)
  | tallyAdd (c : Coord)
  | flockPut (c : Coord)
  | redPut (c : Coord)
  | tallyClassAdd (c : Coord)
  | cmpClear (c : Coord)
  | iterationCommit (c : Coord)
  | seqWriteSlotGrant (c : Coord)
  | scratchpadBankGrant (c : Coord)
  | meshPortAccess (c : Coord)
  | sheepdog (c : Coord)
  | stepStartRelease (h : Nat)
  | tokenArrival (c : Coord) (port : Nat) (err : TokenErr)
  | creditReturn (c : Coord)
  | switchGrantCycle (c : Coord)
  | steerFire (c : Coord) (u : Nat)
  | junctionFire (c : Coord) (j : Nat)
  | steerTimeout (c : Coord) (u : Nat)
  | sweepWindowClose (h : Nat)
  | musterNodeArrival (m : Nat)
  | musterReleaseAtCell (m : Nat) (c : Coord)
  | stepEndCompletion (h : Nat)
  | hubFaultReport (f : Nat)
  | abortingComplete (h : Nat)
  | cellCheckDone (c : Coord) (passed : Bool)
  | load (m : HcpMsg)
  | loadData (m : HcpMsg)
  | loadTimeout (src : Source) (seq : Nat)
  | dmaChannelsIdle (h : Nat)
  | start (m : HcpMsg)
  | step (m : HcpMsg)
  | halt (m : HcpMsg)
  | abort (m : HcpMsg)
  | relocate (m : HcpMsg)
  | peerFixupRewrite (h : Nat)
  | peerReleaseFree (h : Nat)
  | commit (m : HcpMsg)
  | broadcastTransfer (send : HubSend)
  | broadcastPacketReceive (c : Coord)
  | statusSweep (sweep : SweepAnswers)
  | packetHop (c : Coord) (port lane : Nat) (err : HopErr)
  | redCombine (c : Coord) (portA laneA portB laneB : Nat)
  | packetAgeExpiry (c : Coord) (port lane : Nat)
  | putArrival (c : Coord)
  | getArrival (c : Coord)
  | tallyAddArrival (c : Coord)
  | flockUpArrival (c : Coord)
  | flockDownArrival (c : Coord)
  | redArrival (c : Coord)
  | loftRdArrival (c : Coord)
  | loftWrArrival (c : Coord) (badTransfers : Nat)
  | ackArrival (c : Coord)
  | nackArrival (c : Coord)
  | replyArrival (c : Coord)
  | multiReplyArrival (c : Coord)
  | fanoutArrival (c : Coord)
  | dropArrival (c : Coord)
  | resendTimerExpiry (c : Coord) (req tag : Nat)
  | tagRestEnd (c : Coord) (req tag : Nat)
  | mergeWindowClose (c : Coord) (line : Nat)
  | epochFlipTrigger (links : List (Coord × Nat)) (paddocks : List Nat)
  | epochInstall (entries : List RouteEntry)
  | epochConfirm
  | oldValidClear
  | dmaDescriptorStart (c : Coord) (ch : Nat)
  | dmaLineReadDone (c : Coord) (ch : Nat)
  | dmaDescriptorComplete (c : Coord) (ch : Nat)
  | vaultRequestAccept (turn : VaultTurn)
  | vaultLineComplete (pv bank badTransfers : Nat) (errs : List LineErr)
  | loftRefresh (pv bank : Nat)
  | loftScrub (pv line : Nat) (errs : List LineErr)
  | vaultLost (pv : Nat) (cause : VaultCause)
  | spareWriteDone (lv : Nat)
  | streamRecordPut (c : Coord) (ch : Nat)
  | streamPoll (c : Coord) (ch : Nat)
  | streamPollDeferred (g slot : Nat)
  | linkUnitReceive (p : Nat) (u : LinkUnit)
  | linkDown (p : Nat)
  | portTrainingDone (p : Nat)
  | laneFailure (p lane : Nat) (cause : LaneCause)
  | laneSwap (p : Nat)
  | frameTransit (p : Nat)
  | relendRead (p : Nat)
  | relendWrite (p : Nat)
  | relendInc (p : Nat)
  | relendServeComplete (g : Nat)
  | relendResponse (p : Nat)
  | accept (p : Nat)
  | relendNack (p : Nat)
  | attemptTimerExpiry (p tag : Nat)
  | completionTimerExpiry (p tag : Nat)
  | acceptTimer (g : Nat)
  | tagRestingEnd (p tag : Nat)
  | tagAvailable (p : Nat)
  | musterArrive (p refCycles : Nat)
  | musterRelease (p : Nat)
  | musterArriveResend (m : Nat)
  | pace (p : Nat)
  | paceResend
  | paceTimeout (engine : Nat)
  | collectiveGatherRelease (slot : Nat)
  | phase1Record (slot segment : Nat)
  | phase2Record (slot segment : Nat)
  | ringArrivalPost (slot : Nat)
  | collectiveDeadline (slot : Nat)
  | hubHeartbeat (f : Nat) (answered : Bool)
  | nodeLost (n : TreeNode)
  | paddockTrip (p : Nat) (cause : TripCause)
  | powerOn
  | refclkPresent
  | stageS0 (westDv eastDv : Nat) (banksInRange : Bool) (elapsedMs : Nat)
  | stageS1 (elapsedMs : Nat)
  | stageS2 (notReady badControllers : List Nat) (elapsedMs : Nat)
  | stageS3 (elapsedMs : Nat)
  | paddockEnable (east settled : Bool)
  | stageS4 (cells : List Coord) (blocks : List (Nat × Nat × Nat)) (rows : List Nat) (apexBad : Bool) (elapsedMs : Nat)
  | stageS5 (fails : List EdgeFail) (entries : List RouteEntry) (elapsedMs : Nat)
  | stageS6 (failed : List Nat) (elapsedMs : Nat)
  | stageS7 (elapsedMs : Nat)
  | stageS8 (loopbackOk : List Nat) (light : List Nat)
  | s8PortTimeout
  | stageTimeout
  | mgmtWatchdogReset
  | failedStart
  | engineId (r : OdpMsg)
  | restart (r : OdpMsg)
  | mgmtImage (r : OdpMsg)
  | mgmtImageFlashDone
  | refclkLoss
  | rootReady (f : Nat)
  | lockDrop (f : Nat)
  | rootRelockTimeout (f : Nat)
  | setPointWrite (east : Bool) (mhz : Nat)
  | rampEnd (east : Bool)
  | spreadWrite (r : OdpMsg)
  | fieldSource (r : OdpMsg)
  | sourceSwitchDone (f k : Nat)
  | freqCounterGate (counts : List (Nat × Nat))
  | inputLoss
  | bankCurrentSample (westAvgDa eastAvgDa : Nat)
  | dvfsTarget (east : Bool) (op : Nat)
  | paddocksSettled (east : Bool)
  | avsLoop (slacks : List (Nat × Slack))
  | droopDetect (rail : RailSample)
  | stretchEnd (rails : FieldRails)
  | droopMarginLoop (noiseQuarterMv : List (Nat × Nat))
  | powerEstimate (acts : List PaddockActivity)
  | capDecision
  | temperatureScan (temps : List PaddockTemp) (west east : Coolant)
  | thermalStep
  | meterStatusFrame (bytes : List Byte)
  | reading (bytes : List Byte)
  | signature (bytes : List Byte)
  | key (bytes : List Byte)
  | meterSilence
  | odpRead (r : OdpMsg)
  | odpWrite (r : OdpMsg)
  | stageBegin (r : OdpMsg)
  | stageData (r : OdpMsg)
  | stageCommit (r : OdpMsg)
  | stageCancel (r : OdpMsg)
  | stageExpiry (handle : Nat)
  | snapshotExpiry (handle : Nat)
  | sessionChallenge (r : OdpMsg)
  | challengeExpiry (src : Source)
  | sessionOpen (r : OdpMsg)
  | sessionClose (r : OdpMsg)
  | sessionTimeout (session : Nat)
  | operatorKey (r : OdpMsg)
  | keyClear (r : OdpMsg)
  | vendorKeyRevoke (r : OdpMsg)
  | ownerRequired (r : OdpMsg)
  | historyClear (r : OdpMsg)
  | attestNonce (r : OdpMsg)
  | routeTable (r : OdpMsg)
  | windowRecordWrite (r : OdpMsg)
  | windowOpen (r : OdpMsg)
  | windowClose (r : OdpMsg)
  | windowCloseComplete (w : Nat)
  | musterQuery (r : OdpMsg)
  | tallyQuery (r : OdpMsg)
  | routerMarks (r : OdpMsg)
  | qpArm (r : OdpMsg)
  | qpReset (r : OdpMsg)
  | qpResetDone (q : Nat)
  | freeze (r : OdpMsg)
  | thaw (r : OdpMsg)
  | freezeTimeout
  | ringFlush (f : Nat)
  | opTimeSave
  | rdmaWriteFirst (pkt : RdmaPkt)
  | rdmaWriteMiddle (pkt : RdmaPkt)
  | rdmaWriteLast (pkt : RdmaPkt)
  | rdmaWriteOnly (pkt : RdmaPkt)
  | rdmaReadRequest (pkt : RdmaPkt)
  | rdmaLinesDone (q : Nat) (lines : List LineTrouble)
  | ethFrameReceive (frame : EthFrame)
  | lightArrival (p : Nat)
  | hubInternalParityFault (f : Nat)
  | coldBringUpStart
  | attestReportSigned
  | hostLinkDown (up : Bool)
  | osfpModuleInserted (watts : Nat)
  deriving DecidableEq, Repr

end Sys2Proof
end

