-- ==== Sys2Proof/Decode.lean ====
section
/-!
DEFINITION. The engine is a block: its commands are operations and events, and the table of them gives no row any bits. No word
spells a command (log entry 6).
-/
namespace Sys2Proof

/-- The command that a word spells by the table's bits: none, since the table gives bits to no row. -/
def decodeTableWord (_nbits _w : Nat) : Option Instr := none

end Sys2Proof
end

