-- ==== Sys2Proof/Machine/SMap.lean ====
section
/-!
DEFINITION. Sparse tables in canonical form: the one read, the one write, the form itself, and list helpers that every unit uses.
-/
namespace Sys2Proof

/-- The value a table holds at `k`: its listed entry, else the default `d`. -/
def SMap.get {α : Type} (d : α) : SMap α → Nat → α
  | [], _ => d
  | (j, v) :: rest, k => if j = k then v else SMap.get d rest k

/-- Insert or replace the entry at `k`, keeping keys rising. -/
def SMap.insert {α : Type} : SMap α → Nat → α → SMap α
  | [], k, v => [(k, v)]
  | (j, w) :: rest, k, v =>
    if k < j then (k, v) :: (j, w) :: rest
    else if k = j then (k, v) :: rest
    else (j, w) :: SMap.insert rest k v

/-- Drop the entry at `k`. -/
def SMap.erase {α : Type} : SMap α → Nat → SMap α
  | [], _ => []
  | (j, w) :: rest, k => if j = k then rest else (j, w) :: SMap.erase rest k

/-- Write `v` at `k`; writing the default removes the entry, so that equal tables are equal data. -/
def SMap.set {α : Type} [DecidableEq α] (d : α) (m : SMap α) (k : Nat) (v : α) : SMap α :=
  if v = d then SMap.erase m k else SMap.insert m k v

/-- Keys strictly rising, all above `lo`. -/
def SMap.rising {α : Type} (lo : Nat) : SMap α → Bool
  | [] => true
  | (j, _) :: rest => decide (lo ≤ j) && SMap.rising (j + 1) rest

/-- The canonical form: keys strictly rising and no entry equal to what an unlisted key reads as. -/
def SMap.wf {α : Type} [DecidableEq α] (d : α) (m : SMap α) : Bool :=
  SMap.rising 0 m && m.all (fun e => decide (e.2 ≠ d))

/-- Change the entry at `k`. -/
def SMap.upd {α : Type} [DecidableEq α] (d : α) (m : SMap α) (k : Nat) (f : α → α) : SMap α :=
  m.set d k (f (m.get d k))

/-- Apply `f` to every listed entry, dropping what becomes the default. -/
def SMap.mapVals {α : Type} [DecidableEq α] (d : α) (f : Nat → α → α) : SMap α → SMap α
  | [] => []
  | (j, v) :: rest =>
    let w := f j v
    if w = d then SMap.mapVals d f rest else (j, w) :: SMap.mapVals d f rest

/-- Keep the entries whose key and value pass. -/
def SMap.keep {α : Type} (p : Nat → α → Bool) (m : SMap α) : SMap α := m.filter (fun e => p e.1 e.2)

/-- The value listed at `k`, if any. -/
def SMap.find {α : Type} : SMap α → Nat → Option α
  | [], _ => none
  | (j, v) :: rest, k => if j = k then some v else SMap.find rest k

/-- Write the listed value at `k` in a table that holds an entry only where something exists. -/
def SMap.put {α : Type} (m : SMap α) (k : Nat) (v : α) : SMap α := SMap.insert m k v

/-- Change the value at `k` where the table lists one. -/
def SMap.modify {α : Type} (m : SMap α) (k : Nat) (f : α → α) : SMap α :=
  match m.find k with
  | some v => m.put k (f v)
  | none => m

/-- The first element that passes, and the rest without it. -/
def takeFirst {α : Type} (p : α → Bool) : List α → Option (α × List α)
  | [] => none
  | a :: rest =>
    if p a then some (a, rest)
    else match takeFirst p rest with
      | some (b, r) => some (b, a :: r)
      | none => none

/-- Replace the `n`-th element (no effect past the end). -/
def setAt {α : Type} : List α → Nat → α → List α
  | [], _, _ => []
  | _ :: rest, 0, v => v :: rest
  | a :: rest, n + 1, v => a :: setAt rest n v

/-- Add `x` to a list with no repeats. -/
def addOnce {α : Type} [DecidableEq α] (l : List α) (x : α) : List α := if x ∈ l then l else l ++ [x]

/-- A count that saturates at `top`. -/
def satAdd (top a b : Nat) : Nat := min top (a + b)

/-- Numbers `lo`, `lo + 1`, …, `lo + n - 1`. -/
def upFrom (lo n : Nat) : List Nat := (List.range n).map (lo + ·)

end Sys2Proof
end

