-- ==== Sys2Proof/Machine/Bits.lean ====
section
/-!
DEFINITION. Bit fields, byte order, parity and poison (R29, R125, R126), and the geography of the wafer (R13–R18).
-/
namespace Sys2Proof

/-- Bits `[lo + w - 1 : lo]` of a number. -/
def bits (v lo w : Nat) : Nat := (v >>> lo) % 2 ^ w

/-- Bit `n` of a number. -/
def bitAt (v n : Nat) : Bool := Nat.testBit v n

/-- Two's complement reading of a `w`-bit number. -/
def signedOf (w v : Nat) : Int := if v < 2 ^ (w - 1) then (v : Int) else (v : Int) - (2 ^ w : Nat)

/-- The `w`-bit pattern of an integer, wrapping. -/
def wrapTo (w : Nat) (i : Int) : Nat := (i % ((2 ^ w : Nat) : Int)).toNat

/-- Parity bit of a byte: the XOR of its data bits (R125). -/
def parityOf (b : Byte) : Bool :=
  (List.range 8).foldl (fun acc i => acc != b.getLsbD i) false

/-- A byte written with good parity (R125). -/
def PByte.ofData (b : Byte) : PByte := { data := b, par := parityOf b }

/-- Does the parity of a byte fail? -/
def PByte.bad (p : PByte) : Bool := p.par != parityOf p.data

/-- The byte a cleared scratchpad reads as: 0x00 with correct parity (R110). -/
def PByte.zero : PByte := { data := 0, par := false }

/-- One byte of the poison pattern: 0x00 with inverted parity (R126). -/
def PByte.poison : PByte := { data := 0, par := true }

/-- The poison pattern over `n` bytes (R126). -/
def Payload.poison (n : Nat) : Payload := List.replicate n PByte.poison

/-- An access of one byte or more whose every byte fails parity is poisoned (R126). -/
def Payload.poisoned (p : Payload) : Bool := !p.isEmpty && p.all PByte.bad

/-- Some bytes, but not all, fail parity: a parity error (R126). -/
def Payload.parityError (p : Payload) : Bool := p.any PByte.bad && !p.all PByte.bad

/-- The little-endian number that bytes spell (R29). -/
def Payload.toNat : Payload → Nat
  | [] => 0
  | b :: rest => b.data.toNat + 256 * Payload.toNat rest

/-- `n` bytes of a number, little-endian, with good parity. -/
def Payload.ofNat : Nat → Nat → Payload
  | 0, _ => []
  | n + 1, v => PByte.ofData (BitVec.ofNat 8 v) :: Payload.ofNat n (v / 256)

/-- The little-endian number that plain bytes spell. -/
def leNat : List Byte → Nat
  | [] => 0
  | b :: rest => b.toNat + 256 * leNat rest

/-- `n` plain bytes of a number, little-endian. -/
def leBytes : Nat → Nat → List Byte
  | 0, _ => []
  | n + 1, v => BitVec.ofNat 8 v :: leBytes n (v / 256)

/-- The big-endian number that plain bytes spell. -/
def beNat (l : List Byte) : Nat := leNat l.reverse

/-- Bytes of text. -/
def strBytes (s : String) : List Byte := s.toUTF8.toList.map (fun b => BitVec.ofNat 8 b.toNat)

/-- The bytes `[off, off + len)` of a list, short where it ends. -/
def sliceOf {α : Type} (l : List α) (off len : Nat) : List α := (l.drop off).take len

/-- A little-endian number of `n` bytes at an offset. -/
def numAt (b : List Byte) (o n : Nat) : Nat := leNat (sliceOf b o n)

/-! ### Geography (R13–R18) -/

/-- The columns present in a lattice row (R13): first column and count. -/
def latticeRow (r : Nat) : Nat × Nat :=
  match r with
  | 0 => (2, 6) | 1 => (1, 8) | 2 => (0, 10) | 3 => (0, 10)
  | 4 => (0, 10) | 5 => (0, 10) | 6 => (1, 8) | 7 => (2, 6)
  | _ => (0, 0)

/-- Field number of the first column present in a lattice row (R13). -/
def latticeBase (r : Nat) : Nat :=
  match r with
  | 0 => 0 | 1 => 6 | 2 => 14 | 3 => 24 | 4 => 34 | 5 => 44 | 6 => 54 | 7 => 62
  | _ => 68

/-- The field at lattice column `fc`, row `fr`, if present (R13). -/
def fieldAt (fc fr : Nat) : Option Nat :=
  let (lo, n) := latticeRow fr
  if lo ≤ fc ∧ fc < lo + n then some (latticeBase fr + (fc - lo)) else none

/-- The lattice row of a field number (R13). -/
def rowOfField (f : Nat) : Nat :=
  if f < 6 then 0 else if f < 14 then 1 else if f < 24 then 2 else if f < 34 then 3
  else if f < 44 then 4 else if f < 54 then 5 else if f < 62 then 6 else 7

/-- The lattice column of a field number (R13). -/
def colOfField (f : Nat) : Nat := (latticeRow (rowOfField f)).1 + (f - latticeBase (rowOfField f))

/-- Number of fields (R13). -/
def fieldCount : Nat := 68

/-- The field a coordinate lies in, if the coordinate exists (R14, R15). -/
def Coord.field? (c : Coord) : Option Nat :=
  if c.x < 960 ∧ c.y < 640 then fieldAt (c.x / 96) (c.y / 80) else none

/-- Does the coordinate exist (R15)? -/
def Coord.present (c : Coord) : Bool := c.field?.isSome

/-- The field of a coordinate that exists (0 where it does not). -/
def Coord.field (c : Coord) : Nat := c.field?.getD 0

/-- The kind of a cell (R14). -/
inductive CellKind | t | m | f
  deriving DecidableEq, Repr

/-- The kind of the cell at a coordinate (R14). -/
def Coord.kind (c : Coord) : CellKind :=
  if c.x % 8 = 3 then .m else if c.x % 8 = 4 ∧ c.y % 2 = 1 then .f else .t

/-- Block column and row within the field (R14). -/
def Coord.kx (c : Coord) : Nat := (c.x % 96) / 8
def Coord.ky (c : Coord) : Nat := (c.y % 80) / 8

/-- Global paddock number of a coordinate (R17). -/
def Coord.paddock (c : Coord) : Nat := 4 * c.field + 2 * (c.ky / 5) + c.kx / 6

/-- The East half is lattice columns 5–9 (R18). -/
def Coord.east (c : Coord) : Bool := decide (480 ≤ c.x)

/-- Is the field in the East half (R18)? -/
def fieldEast (f : Nat) : Bool := decide (5 ≤ colOfField f)

/-- Is the paddock in the East half (R18)? -/
def paddockEast (p : Nat) : Bool := fieldEast (p / 4)

/-- The key a coordinate has in the sparse tables of cells and routers. -/
def Coord.key (c : Coord) : Nat := c.y * 960 + c.x

/-- The coordinate of a key. -/
def Coord.ofKey (k : Nat) : Coord := { x := k % 960, y := k / 960 }

/-- Directions: N = 0, E = 1, S = 2, W = 3 (R33). -/
def Coord.neighbour (c : Coord) (dir : Nat) : Option Coord :=
  let d : Option Coord := match dir with
    | 0 => if c.y = 0 then none else some { c with y := c.y - 1 }
    | 1 => some { c with x := c.x + 1 }
    | 2 => some { c with y := c.y + 1 }
    | 3 => if c.x = 0 then none else some { c with x := c.x - 1 }
    | _ => none
  match d with
  | some n => if n.present then some n else none
  | none => none

/-- The direction opposite to `dir`. -/
def oppositeDir (dir : Nat) : Nat := (dir + 2) % 4

/-- Corner (lowest) coordinates of a field. -/
def fieldOrigin (f : Nat) : Coord := { x := 96 * colOfField f, y := 80 * rowOfField f }

/-- The cells of a rectangle of blocks, row by row; `bx` and `oy` are global block column and row. -/
def rectCells (bx oy bw bh : Nat) : List Coord :=
  (upFrom (8 * oy) (8 * bh)).flatMap fun y => (upFrom (8 * bx) (8 * bw)).map fun x => { x := x, y := y }

/-- Is the cell inside the rectangle of blocks? -/
def Coord.inRect (c : Coord) (bx oy bw bh : Nat) : Bool :=
  decide (8 * bx ≤ c.x ∧ c.x < 8 * (bx + bw) ∧ 8 * oy ≤ c.y ∧ c.y < 8 * (oy + bh))

/-- The cells of a field, row by row. -/
def fieldCells (f : Nat) : List Coord :=
  rectCells (12 * colOfField f) (10 * rowOfField f) 12 10

/-- Implemented scratchpad bytes of a cell kind (R19). -/
def CellKind.spadBytes : CellKind → Nat
  | .t => 0xC000
  | .f => 0x10000
  | .m => 0x30000

/-- Banks of a scratchpad (R107). -/
def CellKind.banks : CellKind → Nat
  | .m => 16
  | _ => 8

/-- Start of the channel area (R116). -/
def CellKind.channelArea : CellKind → Nat
  | .t => 0xBF80
  | .f => 0xFF00
  | .m => 0x2FF80

/-- Cut or pad bytes to a length. -/
def fitBytes (n : Nat) (l : List Byte) : List Byte := (l ++ List.replicate n 0).take n

/-- The bytes of text. -/
def textBytes (t : String) : List Byte := t.toList.map fun c => BitVec.ofNat 8 c.toNat

end Sys2Proof
end

