-- ==== Sys2Proof/Machine/Number.lean ====
section
/-!
DEFINITION. Number formats, conversion and rounding (R39, R62–R72, R88): every format decodes to an exact value, and
every result is one rounding of an exact value.
-/
namespace Sys2Proof.Machine

/-- An exact value: NaN, an infinity (negative?), or `m × 2 ^ e`. A negative zero reads as zero (R66). -/
inductive Num
  | nan
  | inf (neg : Bool)
  | fin (m : Int) (e : Int)
  deriving DecidableEq, Repr

/-- A floating format of R65. -/
structure FloatFmt where
  ebits   : Nat
  mbits   : Nat
  bias    : Nat
  /-- Encoding of the largest finite value. -/
  maxBits : Nat
  inf     : Option Nat
  nan     : Option Nat
  deriving DecidableEq, Repr

/-- The rows of R65. -/
def FloatFmt.fp32 : FloatFmt := ⟨8, 23, 127, 0x7F7FFFFF, some 0x7F800000, some 0x7FC00000⟩
def FloatFmt.bf16 : FloatFmt := ⟨8, 7, 127, 0x7F7F, some 0x7F80, some 0x7FC0⟩
def FloatFmt.fp16 : FloatFmt := ⟨5, 10, 15, 0x7BFF, some 0x7C00, some 0x7E00⟩
def FloatFmt.e4m3 : FloatFmt := ⟨4, 3, 7, 0x7E, none, some 0x7F⟩
def FloatFmt.e5m2 : FloatFmt := ⟨5, 2, 15, 0x7B, some 0x7C, some 0x7E⟩
def FloatFmt.e3m2 : FloatFmt := ⟨3, 2, 3, 0x1F, none, none⟩
def FloatFmt.e2m3 : FloatFmt := ⟨2, 3, 1, 0x1F, none, none⟩
def FloatFmt.e2m1 : FloatFmt := ⟨2, 1, 1, 0x7, none, none⟩

/-- The floating format of an FMT code (R39). -/
def floatOf (fmt : Nat) : Option FloatFmt :=
  match fmt with
  | 0 => some .fp32 | 1 => some .bf16 | 2 => some .fp16 | 3 => some .e4m3 | 4 => some .e5m2
  | 5 => some .e4m3 | 6 => some .e5m2 | 7 => some .e3m2 | 8 => some .e2m3 | 9 => some .e2m1
  | _ => none

/-- The integer width of an FMT code (R67); MXINT8 counts as 8. -/
def intWidthOf (fmt : Nat) : Option Nat :=
  match fmt with
  | 10 => some 8 | 11 => some 8 | 12 => some 4 | 13 => some 32
  | _ => none

/-- Lane width in bits of an FMT code (R62). -/
def laneWidth (fmt : Nat) : Nat :=
  match fmt with
  | 0 => 32 | 1 => 16 | 2 => 16 | 9 => 4 | 12 => 4 | 13 => 32 | 14 => 32
  | _ => 8

/-- The MX formats (R68). -/
def isMx (fmt : Nat) : Bool := decide (5 ≤ fmt ∧ fmt ≤ 10)

/-- Lanes of a `w`-bit lane width in a token of `bytes` bytes, lane 0 lowest (R61). -/
def lanesOf (w bytes v : Nat) : List Nat := (List.range (bytes * 8 / w)).map fun i => bits v (w * i) w

/-- The number that lanes of width `w` spell, lane 0 lowest. -/
def ofLanes (w : Nat) : List Nat → Nat
  | [] => 0
  | l :: rest => l % 2 ^ w + 2 ^ w * ofLanes w rest

/-- Value of a floating encoding (R65, R66). -/
def FloatFmt.decode (f : FloatFmt) (b : Nat) : Num :=
  let neg := bitAt b (f.ebits + f.mbits)
  let mag := b % 2 ^ (f.ebits + f.mbits)
  let man := mag % 2 ^ f.mbits
  let ex := mag / 2 ^ f.mbits
  if mag > f.maxBits then
    if f.inf = some mag then .inf neg else .nan
  else
    let m : Int := if ex = 0 then man else man + 2 ^ f.mbits
    let e : Int := (if ex = 0 then 1 else (ex : Int)) - f.bias - f.mbits
    .fin (if neg then -m else m) e

/-- Value of a lane of format `fmt`, without its block scale (R64–R67). RAW has no value and reads as zero. -/
def laneNum (fmt l : Nat) : Num :=
  match floatOf fmt with
  | some f => f.decode l
  | none =>
    match fmt with
    | 10 => .fin (signedOf 8 (l % 256)) (-6)
    | 11 => .fin (signedOf 8 (l % 256)) 0
    | 12 => .fin (signedOf 4 (l % 16)) 0
    | 13 => .fin (signedOf 32 (l % 2 ^ 32)) 0
    | _ => .fin 0 0

/-- floor (log2 (n / d)) for positive `n`, `d`. -/
def ratLog2 (n d : Nat) : Int :=
  let k : Int := (Nat.log2 n : Int) - Nat.log2 d
  let below : Bool := if 0 ≤ k then decide (n < d * 2 ^ k.toNat) else decide (n * 2 ^ (-k).toNat < d)
  if below then k - 1 else k

/-- `n / d × 2 ^ s` rounded to a whole number, nearest, ties to even (R70). -/
def ratRne (n d : Nat) (s : Int) : Nat :=
  let num := if 0 ≤ s then n * 2 ^ s.toNat else n
  let den := if 0 ≤ s then d else d * 2 ^ (-s).toNat
  let q := num / den
  let r := num % den
  if 2 * r > den ∨ (2 * r = den ∧ q % 2 = 1) then q + 1 else q

/-- Magnitude encoding of `n / d × 2 ^ e` (positive) rounded once with the exponent range unbounded above (R70). -/
def FloatFmt.roundMag (f : FloatFmt) (n d : Nat) (e : Int) : Nat :=
  let k := ratLog2 n d + e
  let q := max k (1 - (f.bias : Int)) - f.mbits
  let r := ratRne n d (e - q)
  (q + f.mbits + f.bias - 1).toNat * 2 ^ f.mbits + r

/-- The sign bit of a format. -/
def FloatFmt.signBit (f : FloatFmt) (neg : Bool) : Nat := if neg then 2 ^ (f.ebits + f.mbits) else 0

/-- What an overflow or an input infinity converts to (the table of R70). -/
def FloatFmt.over (f : FloatFmt) (sat neg : Bool) : Nat :=
  match f.inf, f.nan with
  | some i, _ => (if sat then f.maxBits else i) + f.signBit neg
  | none, some n => if sat then f.maxBits + f.signBit neg else n
  | none, none => f.maxBits + f.signBit neg

/-- `± n / d × 2 ^ e` converted to a floating format (R70). -/
def FloatFmt.ofRat (f : FloatFmt) (sat neg : Bool) (n d : Nat) (e : Int) : Nat :=
  if n = 0 then 0
  else
    let b := f.roundMag n d e
    if b > f.maxBits then f.over sat neg else b + f.signBit neg

/-- A value converted to a floating format (R70). -/
def FloatFmt.ofNum (f : FloatFmt) (sat : Bool) : Num → Nat
  | .nan => f.nan.getD 0
  | .inf neg => f.over sat neg
  | .fin m e => f.ofRat sat (decide (m < 0)) m.natAbs 1 e

/-- A value converted to a `w`-bit integer of unit `2 ^ unit`: rounded, then clamped (R70). -/
def intOfNum (w : Nat) (unit : Int) : Num → Nat
  | .nan => 0
  | .inf true => 2 ^ (w - 1)
  | .inf false => 2 ^ (w - 1) - 1
  | .fin m e =>
    let r : Int := ratRne m.natAbs 1 (e - unit)
    let v := if m < 0 then -r else r
    wrapTo w (min (max v (-(2 ^ (w - 1) : Nat))) ((2 ^ (w - 1) : Nat) - 1))

/-- A value converted to format `fmt` (R70). -/
def numTo (fmt : Nat) (sat : Bool) (v : Num) : Nat :=
  match floatOf fmt with
  | some f => f.ofNum sat v
  | none =>
    match fmt with
    | 10 => intOfNum 8 (-6) v
    | 11 => intOfNum 8 0 v
    | 12 => intOfNum 4 0 v
    | 13 => intOfNum 32 0 v
    | _ => 0

/-- Product of two exact values; an infinity times zero is NaN. -/
def Num.mul : Num → Num → Num
  | .fin m e, .fin n f => .fin (m * n) (e + f)
  | .inf s, .inf t => .inf (s != t)
  | .inf s, .fin n _ => if n = 0 then .nan else .inf (s != decide (n < 0))
  | .fin n _, .inf s => if n = 0 then .nan else .inf (s != decide (n < 0))
  | _, _ => .nan

/-- Sum of two exact values; opposite infinities are NaN. -/
def Num.add : Num → Num → Num
  | .fin m e, .fin n f =>
    let g := min e f
    .fin (m * 2 ^ (e - g).toNat + n * 2 ^ (f - g).toNat) g
  | .inf s, .inf t => if s = t then .inf s else .nan
  | .inf s, .fin _ _ => .inf s
  | .fin _ _, .inf s => .inf s
  | _, _ => .nan

/-- Negation. -/
def Num.neg : Num → Num
  | .fin m e => .fin (-m) e
  | .inf s => .inf (!s)
  | .nan => .nan

/-- Strict order of two values that are not NaN. -/
def Num.lt : Num → Num → Bool
  | .fin m e, .fin n f =>
    let g := min e f
    decide (m * 2 ^ (e - g).toNat < n * 2 ^ (f - g).toNat)
  | .inf s, .inf t => s && !t
  | .inf s, .fin _ _ => s
  | .fin _ _, .inf t => !t
  | _, _ => false

/-- Scale by a power of two. -/
def Num.shift (k : Int) : Num → Num
  | .fin m e => .fin m (e + k)
  | v => v

/-- The total order of SORT and TOPK (R88): NaN above everything, −0 equal to +0. -/
def Num.key (a b : Num) : Bool :=
  match a, b with
  | .nan, _ => false
  | _, .nan => true
  | a, b => Num.lt a b

/-- Scale exponent of an E8M0 byte, none for NaN (R65, R69). -/
def scaleExp (s : Nat) : Option Int := if s % 256 = 255 then none else some ((s % 256 : Nat) - 127 : Int)

/-- Value of lane `i` of a token with its block scale: `sw` holds the byte of block 0 in `[7:0]` and of block 1 in `[15:8]` (R68, R69). -/
def scaledLane (fmt : Nat) (sw : Nat) (i l : Nat) : Num :=
  if isMx fmt then
    match scaleExp (bits sw (if i < 32 then 0 else 8) 8) with
    | none => .nan
    | some k => (laneNum fmt l).shift k
  else laneNum fmt l

/-! ### VECTOR lanes (R71) -/

/-- An arithmetic lane in an integer format: wraps, or clamps when SAT is set. -/
def intLane (w : Nat) (sat : Bool) (v : Int) : Nat :=
  if sat then wrapTo w (min (max v (-(2 ^ (w - 1) : Nat))) ((2 ^ (w - 1) : Nat) - 1)) else wrapTo w v

/-- ADD, SUB, MUL of one lane (opcodes 0, 1, 2). -/
def arithLane (op fmt : Nat) (sat : Bool) (a b : Nat) : Nat :=
  match intWidthOf fmt with
  | some w =>
    let x := signedOf w a
    let y := signedOf w b
    intLane w sat (match op with | 0 => x + y | 1 => x - y | _ => x * y)
  | none =>
    let x := laneNum fmt a
    let y := laneNum fmt b
    numTo fmt sat (match op with | 0 => x.add y | 1 => x.add y.neg | _ => x.mul y)

/-- Is the sign bit of a floating lane set? -/
def laneNeg (fmt l : Nat) : Bool := bitAt l (laneWidth fmt - 1)

/-- `a` orders below `b` for MAX and MIN: −0 below +0 (R71). -/
def laneBelow (fmt a b : Nat) : Bool :=
  let x := laneNum fmt a
  let y := laneNum fmt b
  x.lt y || (!y.lt x && laneNeg fmt a && !laneNeg fmt b && (floatOf fmt).isSome)

/-- MAX (`big`) or MIN of one lane: the bits of the chosen lane; NaN if either is NaN (R71). -/
def pickLane (big : Bool) (fmt a b : Nat) : Nat :=
  if laneNum fmt a = .nan ∨ laneNum fmt b = .nan then ((floatOf fmt).bind (·.nan)).getD 0
  else if big then (if laneBelow fmt a b then b else a)
  else (if laneBelow fmt b a then b else a)

/-- One VECTOR lane by opcode 0–4 (R38, R71). -/
def vectorLane (op fmt : Nat) (sat : Bool) (a b : Nat) : Nat :=
  match op with
  | 3 => pickLane true fmt a b
  | 4 => pickLane false fmt a b
  | _ => arithLane op fmt sat a b

/-- A whole token through a lane-wise VECTOR operation; `bytes` is 32 or 4 (R35, R71). -/
def vectorToken (op fmt : Nat) (sat : Bool) (bytes a b : Nat) : Nat :=
  match op with
  | 5 => Nat.land a b
  | 6 => Nat.lor a b
  | 7 => Nat.xor a b
  | _ =>
    let w := laneWidth fmt
    ofLanes w (List.zipWith (vectorLane op fmt sat) (lanesOf w bytes a) (lanesOf w bytes b))

/-- CMP_LT (`lt`) or CMP_EQ of two 32-bit lanes; NaN compares false (R71). -/
def cmpLanes (lt : Bool) (fmt a b : Nat) : Bool :=
  let x := laneNum fmt a
  let y := laneNum fmt b
  if x = .nan ∨ y = .nan then false
  else if lt then x.lt y else !x.lt y && !y.lt x

/-! ### CONVERT (R72) -/

/-- Convert one lane: source scale word `sw`, target scale bytes in `[31:16]` (R69, R72). -/
def convertLane (src dst : Nat) (sat : Bool) (sw : Nat) (i j l : Nat) : Nat :=
  let v := scaledLane src sw i l
  if isMx dst then
    match scaleExp (bits sw (if j < 32 then 16 else 24) 8) with
    | none => 0
    | some k => numTo dst sat (v.shift (-k))
  else numTo dst sat v

/-- CONVERT of one token of `bytes` bytes (R72). -/
def convertToken (src dst part : Nat) (sat : Bool) (sw bytes a : Nat) : Nat :=
  let ws := laneWidth src
  let wt := laneWidth dst
  let ls := lanesOf ws bytes a
  let nt := bytes * 8 / wt
  let ns := bytes * 8 / ws
  let lane := fun j =>
    if nt ≤ ns then
      -- widening or equal: target lane j takes source lane PART × n_t + j
      convertLane src dst sat sw (part * nt + j) j (ls.getD (part * nt + j) 0)
    else
      -- narrowing: source lane i goes to PART × n_s + i, every other lane is zero
      if part * ns ≤ j ∧ j < part * ns + ns then convertLane src dst sat sw (j - part * ns) j (ls.getD (j - part * ns) 0)
      else 0
  ofLanes wt ((List.range nt).map lane)

/-! ### SORT and TOPK (R88, R89) -/

/-- Insert a lane (index, bits) into an ordered list, stable; `desc` for descending order. -/
def sortInsert (fmt : Nat) (desc : Bool) (x : Nat × Nat) : List (Nat × Nat) → List (Nat × Nat)
  | [] => [x]
  | y :: rest =>
    let before := if desc then Num.key (laneNum fmt y.2) (laneNum fmt x.2) else Num.key (laneNum fmt x.2) (laneNum fmt y.2)
    if before then x :: y :: rest else y :: sortInsert fmt desc x rest

/-- Lanes in order, with their source numbers. -/
def sortedLanes (fmt : Nat) (desc : Bool) (a : Nat) : List (Nat × Nat) :=
  let ls := lanesOf (laneWidth fmt) 32 a
  ((List.range ls.length).zip ls).foldl (fun acc x => sortInsert fmt desc x acc) []

/-- SORT of one token (R88). -/
def sortToken (fmt : Nat) (desc : Bool) (a : Nat) : Nat :=
  ofLanes (laneWidth fmt) ((sortedLanes fmt desc a).map (·.2))

/-- TOPK of one token (R89). -/
def topkToken (fmt k : Nat) (index : Bool) (a : Nat) : Nat :=
  ofLanes (laneWidth fmt) (((sortedLanes fmt true a).take k).map fun p => if index then p.1 else p.2)

end Sys2Proof.Machine
end

