-- ==== Sys2Proof/Machine/Accum.lean ====
section
/-!
DEFINITION. The EX160 accumulator and ordered FP32 mode (R73–R80): the word, one MAC, ACC_OUT, and how two states combine.
-/
namespace Sys2Proof.Machine

/-- The fields of an accumulator word (R73). `value` is the raw 200-bit field. -/
structure Acc where
  value  : Nat
  anchor : Nat
  exact  : Bool
  escape : Bool
  nan    : Bool
  posInf : Bool
  negInf : Bool
  resv   : Nat
  count  : Nat
  deriving DecidableEq, Repr

/-- Read the fields (R73). -/
def Acc.ofNat (w : Nat) : Acc :=
  { value := bits w 0 200, anchor := bits w 200 16, exact := bitAt w 216, escape := bitAt w 217,
    nan := bitAt w 218, posInf := bitAt w 219, negInf := bitAt w 220, resv := bits w 221 3, count := bits w 224 32 }

/-- The 256-bit word (R73). -/
def Acc.toNat (a : Acc) : Nat :=
  a.value % 2 ^ 200 + 2 ^ 200 * (a.anchor % 2 ^ 16) + (if a.exact then 2 ^ 216 else 0) + (if a.escape then 2 ^ 217 else 0)
    + (if a.nan then 2 ^ 218 else 0) + (if a.posInf then 2 ^ 219 else 0) + (if a.negInf then 2 ^ 220 else 0)
    + 2 ^ 221 * (a.resv % 8) + 2 ^ 224 * (a.count % 2 ^ 32)

/-- Fields of a stored word. -/
def Acc.ofWord (w : Word256) : Acc := Acc.ofNat w.toNat
/-- The word to store. -/
def Acc.toWord (a : Acc) : Word256 := BitVec.ofNat 256 a.toNat

/-- VALUE as a signed integer. -/
def Acc.int (a : Acc) : Int := signedOf 200 a.value
/-- A as a signed integer. -/
def Acc.anchorInt (a : Acc) : Int := signedOf 16 a.anchor

/-- One more MAC received, saturating. -/
def Acc.bump (a : Acc) : Acc := { a with count := min (a.count + 1) 0xFFFFFFFF }

/-- An escaped state holds VALUE 0 (R74, R75). -/
def Acc.esc (a : Acc) : Acc := { a with value := 0, escape := true }

/-- What one lane product adds in exact mode: NaN, an infinity, a whole number of units, or an escape (R74). -/
inductive LaneAdd | nan | posInf | negInf | add (q : Int) | escape
  deriving DecidableEq, Repr

/-- The product of two lanes in units of 2 ^ (A − 112) (R74). -/
def laneAdd (anchor : Int) (a b : Num) : LaneAdd :=
  match a.mul b with
  | .nan => .nan
  | .inf false => .posInf
  | .inf true => .negInf
  | .fin m e =>
    if m = 0 then .add 0
    else
      let k := e - (anchor - 112)
      if k < 0 then
        let d : Int := 2 ^ (-k).toNat
        if m % d ≠ 0 then .escape
        else if (m / d).natAbs ≥ 2 ^ 159 then .escape else .add (m / d)
      else if (Nat.log2 m.natAbs : Int) + k ≥ 159 then .escape
      else .add (m * 2 ^ k.toNat)

/-- The lane loop of `exact_mac`: none when a product escapes (R74). The flags set before the escape stay. -/
def exactLanes (anchor : Int) : List (Num × Num) → Acc → Int → Acc × Option Int
  | [], acc, sum => (acc, some sum)
  | (a, b) :: rest, acc, sum =>
    match laneAdd anchor a b with
    | .nan => exactLanes anchor rest { acc with nan := true } sum
    | .posInf => exactLanes anchor rest { acc with posInf := true } sum
    | .negInf => exactLanes anchor rest { acc with negInf := true } sum
    | .add q => exactLanes anchor rest acc (sum + q)
    | .escape => (acc, none)

/-- One exact-mode MAC iteration (R74). -/
def exactMac (acc : Acc) (lanes : List (Num × Num)) : Acc :=
  if acc.escape then acc.bump
  else
    match exactLanes acc.anchorInt lanes acc 0 with
    | (a, none) => a.esc.bump
    | (a, some sum) =>
      let a := { a with value := wrapTo 200 (a.int + sum) }
      if a.count + 1 ≥ 0xFFFFFFFF then a.esc.bump else a.bump

/-- One ordered-mode MAC iteration: one rounding of the accumulator plus the exact sum (R78). -/
def orderedMac (acc : Acc) (lanes : List (Num × Num)) : Acc :=
  let sum := lanes.foldl (fun s p => s.add (p.1.mul p.2)) (FloatFmt.fp32.decode (acc.value % 2 ^ 32))
  { acc with value := FloatFmt.fp32.ofNum false sum }.bump

/-- The lanes of the two tokens of a MAC; poison reads as NaN in every lane (R68, R128). -/
def macLanes (fmt : Nat) (a b : Payload) (scale : Option Payload) : List (Num × Num) :=
  let w := laneWidth fmt
  let sw := match scale with | some s => s.toNat | none => 0
  let bad := match scale with | some s => s.poisoned | none => false
  let la := lanesOf w 32 a.toNat
  let lb := lanesOf w 32 b.toNat
  (List.range (256 / w)).map fun i =>
    (if bad || a.poisoned then Num.nan else scaledLane fmt (bits sw 0 16) i (la.getD i 0),
     if bad || b.poisoned then Num.nan else scaledLane fmt (bits sw 16 16) i (lb.getD i 0))

/-- Formats that only ordered mode takes (R62, R63). -/
def orderedOnly (fmt : Nat) : Bool := decide (fmt ≤ 2)

/-- One MAC iteration into an accumulator word (R74, R78). -/
def macWord (w : Word256) (fmt : Nat) (a b : Payload) (scale : Option Payload) : Word256 :=
  let acc := Acc.ofWord w
  let lanes := macLanes fmt a b scale
  (if acc.exact then exactMac acc lanes else orderedMac acc lanes).toWord

/-- The window test of ACC_OUT (R76). -/
def Acc.inWindow (a : Acc) : Bool := decide (-(2 ^ 159 : Int) ≤ a.int ∧ a.int < 2 ^ 159)

/-- The state ACC_OUT converts: an exact state outside the window escapes (R76). -/
def Acc.tested (a : Acc) : Acc := if a.exact && !a.escape && !a.inWindow then a.esc else a

/-- The 32-bit word ACC_OUT gives for a tested state (R76, R78). -/
def Acc.output (fmt : Nat) (sat : Bool) (a : Acc) : Nat :=
  let nan := ((floatOf fmt).bind (·.nan)).getD 0
  if a.exact then
    if a.escape then nan
    else if a.nan || (a.posInf && a.negInf) then nan
    else if a.posInf then numTo fmt sat (.inf false)
    else if a.negInf then numTo fmt sat (.inf true)
    else numTo fmt sat (.fin a.int (a.anchorInt - 112))
  else numTo fmt sat (FloatFmt.fp32.decode (a.value % 2 ^ 32))

/-- CLEAR of ACC_OUT: VALUE, the four flags and MAC_COUNT to zero, ANCHOR and EXACT kept (R76). -/
def Acc.cleared (a : Acc) : Acc :=
  { a with value := 0, escape := false, nan := false, posInf := false, negInf := false, count := 0 }

/-- ANCHOR_SET (R77). -/
def anchorWord (imm : Nat) (exact : Bool) : Word256 :=
  ({ value := 0, anchor := imm % 2 ^ 16, exact, escape := false, nan := false, posInf := false, negInf := false,
     resv := 0, count := 0 } : Acc).toWord

/-- May ACC_FILL take the word: reserved bits zero, in ordered mode VALUE[199:32] too (R73)? -/
def Acc.fillOk (a : Acc) : Bool := a.resv == 0 && (a.exact || a.value / 2 ^ 32 == 0)

/-- Two accumulator states combined: an ordered or other-anchor word escapes, two ordered states give their one rounded sum (R80, R219). -/
def Acc.combine (s t : Acc) : Acc :=
  let count := min (s.count + t.count) 0xFFFFFFFF
  let low := if s.anchorInt ≤ t.anchorInt then s.anchor else t.anchor
  let u : Acc :=
    if s.exact && t.exact then
      if !s.escape && !t.escape && s.anchor = t.anchor then
        { value := wrapTo 200 (s.int + t.int), anchor := s.anchor, exact := true, escape := false,
          nan := s.nan || t.nan, posInf := s.posInf || t.posInf, negInf := s.negInf || t.negInf, resv := 0, count }
      else
        { value := 0, anchor := low, exact := true, escape := true,
          nan := s.nan || t.nan, posInf := s.posInf || t.posInf, negInf := s.negInf || t.negInf, resv := 0, count }
    else if s.exact || t.exact then
      let e := if s.exact then s else t
      { value := 0, anchor := e.anchor, exact := true, escape := true, nan := e.nan, posInf := e.posInf,
        negInf := e.negInf, resv := 0, count }
    else
      let sum := (FloatFmt.fp32.decode (s.value % 2 ^ 32)).add (FloatFmt.fp32.decode (t.value % 2 ^ 32))
      { value := FloatFmt.fp32.ofNum false sum, anchor := low, exact := false, escape := false, nan := false,
        posInf := false, negInf := false, resv := 0, count }
  if u.exact && decide (count ≥ 0xFFFFFFFF) then u.esc else u

/-- Two 256-bit accumulator words combined (R80). -/
def combineWords (s t : Nat) : Nat := ((Acc.ofNat s).combine (Acc.ofNat t)).toNat

/-- The reduction opcodes of R215 on two 256-bit operands. -/
def reduceWords (op a b : Nat) : Nat :=
  let lanes := fun (f : Nat → Nat → Nat) => ofLanes 32 (List.zipWith f (lanesOf 32 32 a) (lanesOf 32 32 b))
  match op with
  | 0 => combineWords a b
  | 1 => lanes fun x y => (x + y) % 2 ^ 32
  | 2 => lanes fun x y => if signedOf 32 x < signedOf 32 y then y else x
  | 3 => lanes fun x y => if signedOf 32 y < signedOf 32 x then y else x
  | 4 => lanes (pickLane true 0)
  | 5 => lanes (pickLane false 0)
  | 6 => Nat.lor a b
  | 7 => Nat.land a b
  | _ => Nat.xor a b

/-- A reduction of two payloads: a poisoned operand gives a poisoned result (R215, R219). -/
def reducePayload (op : Nat) (a b : Payload) : Payload :=
  if a.poisoned || b.poisoned then Payload.poison 32 else Payload.ofNat 32 (reduceWords op a.toNat b.toNat)

end Sys2Proof.Machine
end

