-- ==== Sys2Proof/Config.lean ====
section
/-!
DEFINITION. What the spec leaves open. Every constant here is opaque: it has no value that a proof could use, so a statement
holds whatever it is. Log entry 3 names them all.
-/
namespace Sys2Proof.Config

/-- A value the spec does not state, by a serial number that the step takes from the state (free value). -/
opaque freeWord : Nat → BitVec 256

/-- Result of a special function should its two evaluations fail to settle the rounding (opcode, format, lane). -/
opaque funcOpen : Nat → Nat → Nat → Nat

/-- The 32-byte identity seed fused into the module, as a little-endian number (R447). -/
opaque identitySeed : BitVec 256

/-- The 32 bytes from which the vendor generated its key pairs 0–3, whose public keys' digests the boot ROM holds (R449). -/
opaque vendorXi : Nat → BitVec 256

/-- Where the management firmware carries the vendor's public key of an id (R452). -/
opaque vendorKeyPlace : Nat → Nat

/-- The vendor key that signed DEVICE_CERT, modulo 4, and the random bytes of that signature (R448). -/
opaque certVendor : Nat
opaque certRandom : BitVec 256

/-- Factory values fixed in each module, by index and subindex of the object dictionary: FUSED_CAP_W, coefficients, leakage, the
conversion efficiency, gains and the like (CONST and fused entries of R5, R410, R444). -/
opaque factory : Nat → Nat → List Byte

/-- A factory number, by index, subindex and position. -/
opaque factoryNat : Nat → Nat → Nat → Nat

/-- Learned AVS offset that the factory set, by paddock and operating point, in steps of 2.5 mV (R398). -/
opaque factoryAvs : Nat → Nat → Int

/-- Is the half millivolt of a rail target rounded up (odd) or down, by paddock and offset (R350, R394)? -/
opaque railRound : Nat → Int → Nat

/-- Conversion efficiency by load in milliwatts, in units of 1/65,536 (R402). -/
opaque efficiency : Nat → Nat

/-- gain(knob): ratio of power after a one-step rise, in units of 1/65,536, by knob (0 compute, 1 memory, 2 links) and its position (R404). -/
opaque knobGain : Nat → Nat → Nat

/-- Which router of the edge fields a gateway stands beside, counted over them: the CONST gateway map 0x6002 (R280). -/
opaque gatewayPlace : Nat → Nat

/-- The layout that a defect-history record has in DOMAIN entry 0x7030, which the spec does not give: power-cycle count, kind and number (R338). -/
opaque historyRecord : Nat → Nat → Nat → List Byte

/-- Frames beyond one that the far side of a Relend link has room for, in the response pool or the request pool, which R266 and R272 do not size
(log entry 12). -/
opaque linkPool : Bool → Nat

/-- Random challenge bytes (R437): serial number to 32 bytes as a number. -/
opaque randomWord : Nat → BitVec 256

end Sys2Proof.Config
end

