-- ==== Sys2Proof/Machine/CellState.lean ====
section
/-!
DEFINITION. The state a cell, its switch, its scratchpad and its mesh units hold (R29–R60, R73, R113–R128, R132–R156,
R186–R197, R243–R257). Each field names the rule that gives it, its width and its reset value.
-/
namespace Sys2Proof.Machine

/-- State of a cell (R55). -/
inductive CellMode | empty | loaded | running | halted | fenced | dead
  deriving DecidableEq, Repr

/-- A tally word (R243): 32-bit VALUE and the last signaller (`none` reads as the cell's own position). -/
structure Tally where
  value : Nat
  last  : Option Coord
  deriving DecidableEq, Repr

/-- The configuration registers and tables, written only while the region is not running (R29, R54, R134). -/
structure CellRegs where
  /-- STEP_TABLE [02 R29/R31; 8 × 32 × 128 bits, keyed 32 f + e; reset all zeros]. -/
  stepTable : SMap (BitVec 128)
  /-- CELL_CONTROL [02 R56; 64 bits; reset 0x4000 (FOLD_QUANTUM 0x40)]. -/
  cellControl : Reg64
  /-- FOLD_START [02 R56; 64 bits; reset 0]. -/
  foldStart : Reg64
  /-- SHEEPDOG [02 R56; 64 bits; reset 0x03E8]. -/
  sheepdog : Reg64
  /-- TALLY_STEP_CLEAR [02 R54; 64 bits; reset DESIGN CHOICE 0 (log entry 1)]. -/
  tallyStepClear : Reg64
  /-- SHEEPDOG_EXEMPT [02 R54; 64 bits; reset DESIGN CHOICE 0 (log entry 1)]. -/
  sheepdogExempt : Reg64
  /-- AG_CONFIG 0–15 [02 R58; 16 × 64 bits; reset 0]. -/
  agConfig : SMap Reg64
  /-- MESH_TARGET 0–15 [02 R58; 16 × 64 bits; reset 0]. -/
  meshTarget : SMap Reg64
  /-- PORT_PART 0–55 [02 R58; 56 × 64 bits; reset 0]. -/
  portPart : SMap Reg64
  /-- FOLD_SWITCH 0–7 [06 R135; 8 × 64 bits; reset 0]. -/
  foldSwitch : SMap Reg64
  /-- ROUTE [06 R136; 8 × 56 × 64 bits, keyed 56 f + o; reset 0]. -/
  route : SMap Reg64
  /-- PORT_COUNT [06 R135; 8 × 56 × 32 bits, keyed 56 f + p; reset 0]. -/
  portCount : SMap (BitVec 32)
  /-- STEER [06 R147; 8 × 4 × 64 bits, keyed 4 f + u; reset 0]. -/
  steer : SMap Reg64
  /-- JUNCTION [06 R151; 8 × 2 × 64 bits, keyed 2 f + j; reset 0]. -/
  junction : SMap Reg64
  /-- SWITCH_CONTROL [06 R137; 64 bits; reset 0x1000]. -/
  switchControl : Reg64
  deriving DecidableEq, Repr

/-- A static-fabric token (R132, R133): payload bytes with parity (a control token holds its 4 bits in `ctl`). -/
structure Token where
  payload : Payload
  ctl     : BitVec 4
  ctlBad  : Bool
  tag     : Nat
  gen     : Bool
  sideBad : Bool
  deriving DecidableEq, Repr

/-- One fold's position and counters (R47, R57). -/
structure FoldState where
  entry    : Nat
  iter     : Nat
  pred     : BitVec 4
  pass     : Nat
  /-- PASS reached PASSES: finished for the step (R145). -/
  finished : Bool
  /-- An invalid entry stopped the fold for the step (R32). -/
  invalid  : Bool
  /-- Cycle of the last issue of the current activation, for INTERVAL (R41). -/
  lastIssue : Nat
  deriving DecidableEq, Repr

/-- The iteration that issued something: the faults that come of it later name it (R57). -/
structure Origin where
  fold  : Nat
  entry : Nat
  iter  : Nat
  deriving DecidableEq, Repr

/-- A local effect an iteration will have at its commit (R44). -/
inductive Effect
  /-- Write bytes at a scratchpad address; `mem` marks a MEM operation's update (R99). -/
  | spad (addr : Nat) (data : Payload) (mem : Bool)
  /-- One MAC into an accumulator: format, the two tokens and the scale word if any (R74, R78). -/
  | mac (acc fmt : Nat) (a b : Payload) (scale : Option Payload)
  /-- Replace an accumulator's word; `fill` marks an ACC_FILL, which is checked (R73). -/
  | accFill (acc : Nat) (data : Payload)
  | accSet (acc : Nat) (w : Word256)
  /-- CLEAR of an ACC_OUT (R76). -/
  | accClear (acc : Nat)
  /-- The window test of an ACC_OUT escaped the accumulator (R76). -/
  | accEscape (acc : Nat)
  | predSet (v : BitVec 4)
  | tallyAdd (t amount : Nat)
  | cmpClear (t imm : Nat)
  /-- A token offered to an output track (R44, R139). -/
  | push (track : Nat) (payload : Payload) (ctl : BitVec 4)
  /-- The request of the sequencer's tag enters the router (R44). -/
  | send (tag : Nat)
  /-- A DMA descriptor enters its channel: channel, its scratchpad address, its 32 bytes (R102). -/
  | dmaIssue (ch addr : Nat) (data : Payload)
  deriving DecidableEq, Repr

/-- An iteration between issue and commit (R44): the cycle it issued in, the cycle it commits in, the entry, what it does, its signal. -/
structure Inflight where
  start   : Nat
  due     : Nat
  fold    : Nat
  entry   : Nat
  iter    : Nat
  effects : List Effect
  signal  : Option (Nat × Nat)
  deriving DecidableEq, Repr

/-- What one read request of an iteration is for (R113). -/
inductive ReadRole | srcA | srcB | scale | memTarget
  deriving DecidableEq, Repr

/-- A scratchpad read an iteration still asks for. -/
structure ReadAsk where
  role : ReadRole
  addr : Nat
  len  : Nat
  deriving DecidableEq, Repr

/-- The iteration that holds the sequencer while it waits for read slots (R114). -/
structure Asking where
  fold  : Nat
  since : Nat
  want  : List ReadAsk
  got   : List (ReadRole × Payload)
  deriving DecidableEq, Repr

/-- The sequencer (R41–R51, R59, R114). -/
structure SeqState where
  /-- FOLD_STATE 0–7 [02 R57; 8 × 64 bits; reset 0]. -/
  folds : SMap FoldState
  /-- ENTRY_DONE (DONE) [02 R47/R54; 256 × 32 bits, keyed 32 f + e; reset DESIGN CHOICE 0 (log entry 1)]. -/
  done : SMap Nat
  /-- CUR_FOLD [02 R55; 3 bits; reset 0]. -/
  cur : Nat
  /-- run: consecutive iterations of the current fold [02 R49; reset 0]. -/
  run : Nat
  /-- The core cycle the cell is in: every event between two cycles of its sequencer falls in the one to come [02 R49; count; reset 0]. -/
  cycle : Nat
  /-- Iterations between issue and commit [02 R44; list; reset none]. -/
  inflight : List Inflight
  /-- Iterations past their commit whose scratchpad writes wait for their write slots, or whose tokens wait for a holding register
  [05 R115, 06 R139; list; reset none]. -/
  late : List Inflight
  /-- The iteration that waits for read slots [05 R114; reset none]. -/
  asking : Option Asking
  /-- Cycle from which the special-function unit accepts again [04 R86; reset 0]. -/
  funcFree : Nat
  /-- Tokens popped in the pass [02 R51; keyed 56 f + p; reset 0]. -/
  pops : SMap Nat
  /-- Tokens pushed in the pass [02 R51; keyed 56 f + p; reset 0]. -/
  pushes : SMap Nat
  /-- Microsecond from which the sheepdog counts the present stall [02 R59; reset 0]. -/
  stallFrom : Nat
  /-- The sheepdog has raised its fault in the present stall [02 R59; reset false]. -/
  barked : Bool
  /-- The cell's clock is gated [02 R50/R55; 1 bit; reset 0]. -/
  gated : Bool
  /-- SHEEPDOG, a declared death or a forced boundary stopped issue [02 R60; reset false]. -/
  stopped : Bool
  /-- Tallies as they stood at the start of the current cycle [02 R46; reset none]. -/
  snap : Option (SMap Tally)
  /-- Bank slots taken in the current cycle: the line accessed, write? [05 R107/R113; reset none]. -/
  slots : List (Nat × Bool)
  /-- The writes of the current cycle are made, and its reads have begun [04 R95; reset false]. -/
  reading : Bool
  /-- Tallies that the mesh port has incremented in the current cycle [10 R244; list; reset none]. -/
  arrivals : List Nat
  /-- Core cycle from which the mesh port may make its next access [04 R95, 08 R218; reset 0]. -/
  portFree : Nat
  deriving DecidableEq, Repr

/-- A fault as a cell latches and reports it (R57, R60, R123). -/
structure FaultReport where
  code    : Code
  fold    : Nat
  entry   : Nat
  iter    : Nat
  /-- What the event record carries: dropped writes, tally, muster or delivered count. -/
  detail  : Nat
  deriving DecidableEq, Repr

/-- Fault latch of a cell (R55, R57, R123, R127). -/
structure FaultState where
  /-- FAULT_LATCHED, FAULT_CODE, FAULT_INFO [02 R55/R57; 1 + 16 + 40 bits; reset 0]: the first fault of the step. -/
  first : Option FaultReport
  /-- Dropped channel writes of the step [05 R123; 16 bits; reset 0]. -/
  dropped : Nat
  /-- Line of the most recent PARITY_SPAD, and whether it was written since [05 R127; reset none]. -/
  parityLine : Option (Nat × Bool)
  /-- Faults not yet taken by the field hub [02 R60; list; reset none]. -/
  reports : List FaultReport
  deriving DecidableEq, Repr

/-- A steering unit or junction at work (R148, R150, R152). -/
structure PairUnit where
  /-- Data queue (A, B, A, B …), or X of a junction. -/
  data : List Token
  /-- Control queue, or Y of a junction. -/
  ctrl : List Token
  /-- Outputs that wait for their track. -/
  out  : List Token
  /-- WAIT: 16 bits. -/
  wait : Nat
  /-- TIMED_OUT. -/
  timedOut : Bool
  deriving DecidableEq, Repr

/-- The switch and its links (R132–R156). -/
structure FabricState where
  /-- Port queues by slice [02 R52; keyed 8 p + f, 16 entries per port; reset empty]. -/
  slices : SMap (List Token)
  /-- Tokens on the wire, elastic buffer or stile toward input port p [06 R140/R142; reset none]. -/
  wires : SMap (List Token)
  /-- Credit counters per output track and fold tag [06 R141; keyed 8 o + tag, 0–16; reset 0]. -/
  credits : SMap Nat
  /-- Credits on their way back [06 R142; keyed 8 o + tag; reset 0]. -/
  creditWire : SMap Nat
  /-- Holding registers of output tracks: fold and token [06 R139; keyed o, one token each; reset empty]. -/
  hold : SMap (Option (Nat × Token))
  /-- STEER_STATE 0–3 [06 R150; 4 × 64 bits; reset 0]. -/
  steer : SMap PairUnit
  /-- JUNCTION_STATE 0–1 [06 R152; 2 × 64 bits; reset 0]. -/
  junction : SMap PairUnit
  /-- STALE_COUNT [06 R137; 16 bits; reset 0]. -/
  stale : Nat
  /-- LINK_PARITY_COUNT [06 R137; 16 bits; reset 0]. -/
  linkParity : Nat
  /-- SWEEP_ACTIVE [06 R137; 1 bit; reset 0]. -/
  sweep : Bool
  /-- Fold that began the previous grant pass [06 R139; reset DESIGN CHOICE 7, so that fold 0 is tried first (log entry 114)]. -/
  passFold : Nat
  deriving DecidableEq, Repr

/-- The scratchpad and its checks (R107–R128). -/
structure PadState where
  /-- Scratchpad bytes with parity [01 R19, 05 R125; 48, 64 or 192 KiB; reset DESIGN CHOICE 0x00 with good parity (log entry 2)]. -/
  bytes : Memory
  /-- Channel descriptors latched and valid [05 R116; 8 × 128 bits; reset none]. -/
  channels : SMap (BitVec 128)
  /-- Channels that drifted this step [05 R121; reset none]. -/
  drifted : List Nat
  /-- Lookup descriptors latched [04 R90; 16 × 64 bits; reset none]. -/
  lookups : SMap Reg64
  deriving DecidableEq, Repr

/-- Contributor of a RED packet (R216), or requester of a merged reply (R213). -/
structure Contributor where
  at_     : Coord
  req     : Nat
  tag     : Nat
  seq     : Bool
  attempt : Nat
  byte    : Nat
  len     : Nat
  deriving DecidableEq, Repr

/-- A mesh packet (R186, R188). DST is a coordinate; `flock` is the flock id of FLOCK_UP and FLOCK_DOWN. -/
structure Packet where
  type    : Nat
  epoch   : Bool
  seq     : Bool
  attempt : Nat
  age     : Nat
  dst     : Coord
  src     : Coord
  req     : Nat
  tag     : Nat
  offset  : Nat
  aux     : Nat
  tally   : Nat
  tallyEn : Bool
  flock   : Nat
  payload : Payload
  entries : List Contributor
  crc     : BitVec 32
  /-- Branches of a FLOCK_DOWN copy that this router has still to send (R210); none before it looked. -/
  left    : Option Nat
  deriving DecidableEq, Repr

/-- A request a unit of the cell has outstanding (R194, R197, R212). -/
structure Outstanding where
  pkt     : Packet
  /-- Microsecond at which the re-send timer of this attempt started. -/
  sentAt  : Nat
  resent  : Bool
  /-- GET: local scratchpad address and length. -/
  local_  : Option Nat
  /-- Tally of the issuing cell raised when a GET's data is written. -/
  arrival : Option Nat
  /-- The iteration that issued it, where the sequencer did (R57). -/
  by_     : Origin
  /-- Line of the DMA descriptor, counted from the channel's first line. -/
  line    : Nat
  acks    : Nat
  drops0  : Nat
  drops1  : Nat
  members : Option Nat
  deriving DecidableEq, Repr

/-- Entry of the duplicate filter (R196). -/
structure FilterEntry where
  src : Coord
  req : Nat
  tag : Nat
  seq : Bool
  at_ : Nat
  deriving DecidableEq, Repr

/-- An open window of the read-merge buffer (R100). -/
structure MergeWindow where
  line  : Nat
  data  : Payload
  since : Nat
  reads : List Contributor
  /-- A write to the line, a 16th requester or a ninth line closed it (R100). -/
  closed : Bool
  deriving DecidableEq, Repr

/-- The mesh side of a cell (R37, R95, R100, R113, R194–R197). -/
structure MeshState where
  /-- Requests in flight of every unit of the cell; OUTSTANDING_MESH counts those of REQ 0 [02 R55, 08 R194; reset none]. -/
  out : List Outstanding
  /-- SEQ use bit of each tag [08 R197; keyed 16 req + tag; reset 0]. -/
  seqBits : SMap Bool
  /-- Tags that rest until a time [08 R197; keyed 16 req + tag; reset none]. -/
  resting : SMap Nat
  /-- Duplicate filter, oldest first [08 R196; 32 entries; reset empty]. -/
  filter : List FilterEntry
  /-- unsure_until [08 R196; microseconds; reset 0]. -/
  unsureUntil : Nat
  /-- The access that waits at the mesh port for its bank slot, and the core cycle in which it was first made [04 R95, 05 R113; reset none]. -/
  port : Option (Packet × Nat)
  /-- Merge buffer [04 R100; 8 windows; reset empty]. -/
  windows : List MergeWindow
  deriving DecidableEq, Repr

/-- The signal of a posted round, and the MUSTER_ENTER that posted it (R57, R256). -/
structure RoundSignal where
  tally  : Nat
  amount : Nat
  by_    : Origin
  deriving DecidableEq, Repr

/-- A cell's part in one muster (R256). -/
structure CellMuster where
  nextParity : Bool
  /-- Signals of the pending rounds, oldest first (PENDING is the length, 0–2). -/
  pending : List RoundSignal
  deriving DecidableEq, Repr

/-- The overrun slot (R256). -/
structure Overrun where
  muster : Nat
  flag   : Bool
  signal : RoundSignal
  deriving DecidableEq, Repr

/-- Muster state of a cell (R255, R256). -/
structure CellMusters where
  /-- NEXT_PARITY, PENDING and pending signals by muster [10 R256; reset 0]. -/
  parts : SMap CellMuster
  /-- The overrun slot [10 R256; reset free]. -/
  overrun : Option Overrun
  /-- The step-end arrival has been posted [07 R175; reset false]. -/
  stepEnd : Bool
  deriving DecidableEq, Repr

/-- A cell (R19). -/
structure Cell where
  /-- CELL_STATUS.STATE [02 R55; 3 bits; reset EMPTY]. -/
  mode : CellMode
  regs : CellRegs
  /-- AG_STATE 0–15: CUR and COUNT [02 R58; 16 × 64 bits; reset 0]. -/
  ag : SMap (Nat × Nat)
  /-- Tallies 0–47 [10 R243; 48 × 64 bits; reset VALUE 0, LAST own position]. -/
  tallies : SMap Tally
  /-- Accumulators ACC 0–7 of a T-cell [03 R73; 8 × 256 bits; reset 0 (ANCHOR and EXACT where no image: 0)]. -/
  accs : SMap Word256
  seq : SeqState
  fault : FaultState
  fab : FabricState
  pad : PadState
  mesh : MeshState
  must : CellMusters
  deriving DecidableEq, Repr

/-- Nothing that the sequencer issued. -/
def Origin.zero : Origin := { fold := 0, entry := 0, iter := 0 }

/-- A tally at reset (R243). -/
def Tally.zero : Tally := { value := 0, last := none }

/-- A fold at reset (R57). -/
def FoldState.zero : FoldState :=
  { entry := 0, iter := 0, pred := 0, pass := 0, finished := false, invalid := false, lastIssue := 0 }

/-- A steering unit or junction at reset (R150). -/
def PairUnit.zero : PairUnit := { data := [], ctrl := [], out := [], wait := 0, timedOut := false }

/-- WAIT and TIMED_OUT of every steering unit and junction are cleared (R150). -/
def FabricState.waitsCleared (f : FabricState) : FabricState :=
  { f with
    steer := f.steer.mapVals .zero fun _ u => { u with wait := 0, timedOut := false }
    junction := f.junction.mapVals .zero fun _ u => { u with wait := 0, timedOut := false } }

/-- The configuration registers at reset. -/
def CellRegs.reset : CellRegs :=
  { stepTable := [], cellControl := 0x4000, foldStart := 0, sheepdog := 0x3E8, tallyStepClear := 0,
    sheepdogExempt := 0, agConfig := [], meshTarget := [], portPart := [], foldSwitch := [], route := [],
    portCount := [], steer := [], junction := [], switchControl := 0x1000 }

/-- The sequencer at reset. -/
def SeqState.reset : SeqState :=
  { folds := [], done := [], cur := 0, run := 0, cycle := 0, inflight := [], late := [], asking := none,
    funcFree := 0, pops := [], pushes := [], stallFrom := 0, barked := false, gated := false, stopped := false, snap := none,
    slots := [], reading := false, arrivals := [], portFree := 0 }

/-- The fault latch at reset. -/
def FaultState.reset : FaultState := { first := none, dropped := 0, parityLine := none, reports := [] }

/-- The switch at reset. -/
def FabricState.reset : FabricState :=
  { slices := [], wires := [], credits := [], creditWire := [], hold := [], steer := [], junction := [],
    stale := 0, linkParity := 0, sweep := false, passFold := 7 }

/-- The scratchpad at reset. -/
def PadState.reset : PadState := { bytes := [], channels := [], drifted := [], lookups := [] }

/-- The mesh side at reset. -/
def MeshState.reset : MeshState :=
  { out := [], seqBits := [], resting := [], filter := [], unsureUntil := 0, port := none, windows := [] }

/-- Muster state of a cell at reset. -/
def CellMusters.reset : CellMusters := { parts := [], overrun := none, stepEnd := false }

/-- A cell at reset (R31, R55–R58). -/
def Cell.reset : Cell :=
  { mode := .empty, regs := .reset, ag := [], tallies := [], accs := [], seq := .reset, fault := .reset,
    fab := .reset, pad := .reset, mesh := .reset, must := .reset }

end Sys2Proof.Machine
end

