-- ==== Sys2Proof/Machine/Codes.lean ====
section
/-!
DEFINITION. The fault codes of R499, each under the spec's mnemonic.
-/
namespace Sys2Proof.Machine.Codes

def ok : Code := 0x0000
def configInvalid : Code := 0x0001
def cellDead : Code := 0x0002
def sheepdog : Code := 0x0003
def rangeEscape : Code := 0x0004
def aborted : Code := 0x0005
def spadUnderflow : Code := 0x1001
def spadOverflow : Code := 0x1002
def paritySpad : Code := 0x1003
def staleToken : Code := 0x2001
def steerTimeout : Code := 0x2002
def rateMismatch : Code := 0x2003
def foldPartition : Code := 0x2004
def parityLink : Code := 0x3001
def e2eGiveup : Code := 0x3002
def mcastShort : Code := 0x3003
def epochMismatch : Code := 0x3004
def loftLost : Code := 0x4001
def loftUncorrectable : Code := 0x4002
def tallyUnderflow : Code := 0x5001
def tallyOverflow : Code := 0x5002
def musterOverrun : Code := 0x5003
def nodeLost : Code := 0x5004
def checksumMismatch : Code := 0x5005
def collectiveAbort : Code := 0x5006
def windowClosed : Code := 0x6001
def inflightStall : Code := 0x6002
def linkDown : Code := 0x6003
def paddockTrip : Code := 0x7001
def droop : Code := 0x7002
def capExceeded : Code := 0x7003
def inputLoss : Code := 0x7004
def overtemp : Code := 0x7005
def clkNotReady : Code := 0x8001
def sigInvalid : Code := 0x9001
def digestMismatch : Code := 0x9002
def fwMiss : Code := 0xA001
def startLimit : Code := 0xA002
def stageTimeout : Code := 0xA003
def meterSeal : Code := 0xB001

end Sys2Proof.Machine.Codes
end

