-- ==== Sys2Proof/Machine/Work.lean ====
section
/-!
DEFINITION. A cell at work: the record one event of a cell reads and writes, raising a fault (R60), tallies (R46, R244)
and the scratchpad with its channel and parity checks (R107–R128).
-/
namespace Sys2Proof.Machine

/-- One event of one cell: what it may read beside the cell, the cell, and what it sends out. -/
structure Work where
  here  : Coord
  /-- The microsecond tick. -/
  now   : Nat
  /-- CUR_EPOCH of the cell's router (R202). -/
  epoch : Bool
  /-- Serial number of the next free value. -/
  free  : Nat
  /-- Descriptors held by DMA channels 0–3 (R102). -/
  dmaHeld : List Nat
  /-- Accesses that DMA channels wait to make: channel, the cycle first asked in, line, write? (R113). -/
  dmaAsk : List (Nat × Nat × Nat × Bool)
  /-- The cycle in which the access now made at the mesh port was first made (R113). -/
  asked : Nat
  cell  : Cell
  /-- Slices that gave up a token: input port and fold tag; each returns a credit (R141). -/
  popped : List (Nat × Nat)
  /-- Packets that enter the router. -/
  sends : List Packet
  /-- Arrivals posted: muster, parity, flag (R256). -/
  posts : List (Nat × Bool × Bool)
  /-- Descriptors handed to DMA channels: channel, address, bytes. -/
  dma   : List (Nat × Nat × Payload)
  /-- Requests that ended: the request, its status and its data (R194, R212). -/
  ended : List (Outstanding × Code × Payload)
  /-- Responses discarded under R197, and packets dropped for a failed CRC (R206). -/
  strays : Nat
  crcDrops : Nat
  deriving DecidableEq, Repr

/-- A cell starts an event. -/
def Work.start (here : Coord) (now : Nat) (epoch : Bool) (free : Nat) (dmaHeld : List Nat) (dmaAsk : List (Nat × Nat × Nat × Bool))
    (cell : Cell) : Work :=
  { here, now, epoch, free, dmaHeld, dmaAsk, asked := cell.seq.cycle, cell, popped := [], sends := [], posts := [], dma := [], ended := [], strays := 0, crcDrops := 0 }

/-- Change the cell. -/
def Work.map (w : Work) (f : Cell → Cell) : Work := { w with cell := f w.cell }
/-- Change the sequencer. -/
def Work.mapSeq (w : Work) (f : SeqState → SeqState) : Work := { w with cell := { w.cell with seq := f w.cell.seq } }
/-- Change the scratchpad. -/
def Work.mapPad (w : Work) (f : PadState → PadState) : Work := { w with cell := { w.cell with pad := f w.cell.pad } }
/-- Change the switch. -/
def Work.mapFab (w : Work) (f : FabricState → FabricState) : Work := { w with cell := { w.cell with fab := f w.cell.fab } }
/-- Change the mesh side. -/
def Work.mapMesh (w : Work) (f : MeshState → MeshState) : Work := { w with cell := { w.cell with mesh := f w.cell.mesh } }

/-- Latch and report a fault: the first of the step is kept, every one is reported (R57, R60). -/
def FaultState.raise (f : FaultState) (r : FaultReport) : FaultState :=
  { f with first := some (f.first.getD r), reports := f.reports ++ [r] }

/-- Raise a fault at this cell (R60). SHEEPDOG and CELL_DEAD stop the sequencer. -/
def Work.raise (w : Work) (code : Code) (fold entry iter detail : Nat) : Work :=
  { w with cell := { w.cell with
      fault := w.cell.fault.raise { code, fold, entry, iter, detail },
      seq := if code = Codes.sheepdog ∨ code = Codes.cellDead then { w.cell.seq with stopped := true } else w.cell.seq } }

/-- Raise a fault that no entry caused: the fold, entry and iteration fields name the current ones. -/
def Work.raiseHere (w : Work) (code : Code) (detail : Nat) : Work :=
  let f := w.cell.seq.folds.get .zero w.cell.seq.cur
  w.raise code w.cell.seq.cur f.entry f.iter detail

/-- Raise a fault of something that an iteration issued earlier (R57). -/
def Work.raiseBy (w : Work) (o : Origin) (code : Code) (detail : Nat) : Work := w.raise code o.fold o.entry o.iter detail

/-- The value of a tally now. -/
def Cell.tally (c : Cell) (t : Nat) : Nat := (c.tallies.get .zero t).value

/-- A tally at the start of the current cycle (R46); a cell that is not running has no cycle, and its tallies are as they stand. -/
def Cell.tallyStart (c : Cell) (t : Nat) : Tally :=
  match c.mode, c.seq.snap with
  | .running, some m => m.get .zero t
  | _, _ => c.tallies.get .zero t

/-- Its value. -/
def Cell.tallyAtStart (c : Cell) (t : Nat) : Nat := (c.tallyStart t).value

/-- The last signaller of a tally after an increment (R244): in one cycle local signals and releases are taken first, then the DMA channels, all of which
record the cell itself (none), then the mesh port, so that an arrival of the cycle stays recorded whatever is commanded after it. -/
def Cell.lastAfter (c : Cell) (t : Nat) (src : Option Coord) : Option Coord :=
  if src.isNone && decide (t ∈ c.seq.arrivals) then (c.tallies.get .zero t).last else src

/-- The mesh port has incremented a tally in the cycle of a running cell (R244). -/
def Cell.arrived (c : Cell) (t : Nat) (src : Option Coord) : Cell :=
  if src.isSome && c.mode == .running then { c with seq := { c.seq with arrivals := addOnce c.seq.arrivals t } } else c

/-- Add an increment to a tally, recording where it came from (R46, R244); a carry past 32 bits raises TALLY_OVERFLOW, which names the entry that
signalled (R57). -/
def Work.addTallyBy (w : Work) (t amount : Nat) (src : Option Coord) (fold entry iter : Nat) : Work :=
  if amount = 0 then w
  else
    let old := w.cell.tallies.get .zero t
    let new : Tally := { value := satAdd 0xFFFFFFFF old.value amount, last := w.cell.lastAfter t src }
    let w' := w.map fun c => ({ c with tallies := c.tallies.set .zero t new } : Cell).arrived t src
    if old.value + amount > 0xFFFFFFFF then w'.raise Codes.tallyOverflow fold entry iter t else w'

/-- An increment that no entry of the cell's own signals: a fault it raises names the current entry (log entry 115). -/
def Work.addTally (w : Work) (t amount : Nat) (src : Option Coord) : Work :=
  let f := w.cell.seq.folds.get .zero w.cell.seq.cur
  w.addTallyBy t amount src w.cell.seq.cur f.entry f.iter

/-- A comparison that held sets its tally to zero; the increments of the cycle it was made in stay, and so does the last signaller (R46, R244). -/
def Work.clearTally (w : Work) (t : Nat) : Work :=
  w.map fun c => { c with tallies := c.tallies.upd .zero t fun v => { v with value := v.value - c.tallyAtStart t } }

/-! ### Channels (R116–R121) -/

/-- The fields of a channel descriptor (R117). -/
structure Channel where
  base : Nat
  slotLines : Nat
  slots : Nat
  fillTally : Nat
  drainTally : Nat
  fillPer : Nat
  drainPer : Nat
  enable : Bool
  resv : Nat
  deriving DecidableEq, Repr

/-- Read a channel descriptor (R117). -/
def Channel.ofNat (d : Nat) : Channel :=
  { base := bits d 0 18, slotLines := bits d 18 12, slots := bits d 30 8, fillTally := bits d 38 6,
    drainTally := bits d 44 6, fillPer := bits d 50 8, drainPer := bits d 58 8, enable := bitAt d 66, resv := bits d 67 61 }

/-- Bytes of a ring. -/
def Channel.size (c : Channel) : Nat := c.slots * c.slotLines * 64

/-- Does the address lie in the ring? -/
def Channel.holds (c : Channel) (addr : Nat) : Bool := decide (c.base ≤ addr ∧ addr < c.base + c.size)

/-- Do two byte ranges overlap? -/
def overlaps (a la b lb : Nat) : Bool := decide (a < b + lb ∧ b < a + la ∧ 0 < la ∧ 0 < lb)

/-- Is an enabled descriptor valid on its own (R118)? `cleared` is TALLY_STEP_CLEAR, `cmpTargets` the tallies that CMP_CLEAR entries of active folds name. -/
def Channel.validAlone (k : CellKind) (cleared : Nat) (cmpTargets : List Nat) (c : Channel) : Bool :=
  c.base % 64 == 0 && decide (1 ≤ c.slotLines ∧ c.slotLines ≤ 3071) && decide (1 ≤ c.slots) &&
  decide (c.fillTally ≤ 47 ∧ c.drainTally ≤ 47) && decide (1 ≤ c.fillPer ∧ 1 ≤ c.drainPer) && c.resv == 0 &&
  c.fillTally != c.drainTally && decide (c.base + c.size ≤ k.spadBytes) &&
  !overlaps c.base c.size k.channelArea 128 && !(k == .f && overlaps c.base c.size 0xFF80 128) &&
  bitAt cleared c.fillTally && bitAt cleared c.drainTally &&
  !(c.fillTally ∈ cmpTargets) && !(c.drainTally ∈ cmpTargets)

/-- The 8 descriptors of the channel area as they stand in a scratchpad (R116). DESIGN CHOICE (log entry 126): the latches of step start take the data bits
and check no parity. -/
def channelWords (k : CellKind) (mem : Memory) : List (Nat × Nat) :=
  (List.range 8).map fun n =>
    (n, Payload.toNat ((List.range 16).map fun i => mem.get PByte.zero (k.channelArea + 16 * n + i)))

/-- Split the enabled descriptors into those that hold and whether any is invalid (R118). -/
def latchChannels (k : CellKind) (mem : Memory) (cleared : Nat) (cmpTargets : List Nat) : SMap (BitVec 128) × Bool :=
  let on := (channelWords k mem).filter fun d => (Channel.ofNat d.2).enable
  let good := on.filter fun d =>
    let c := Channel.ofNat d.2
    c.validAlone k cleared cmpTargets &&
    on.all fun d' => d'.1 == d.1 || !(overlaps c.base c.size (Channel.ofNat d'.2).base (Channel.ofNat d'.2).size)
  (good.map fun d => (d.1, BitVec.ofNat 128 d.2), decide (good.length < on.length))

/-- Slots filled and drained since step start (R119). -/
def Cell.channelCounts (c : Cell) (ch : Channel) : Nat × Nat :=
  (c.tallyAtStart ch.fillTally / ch.fillPer, c.tallyAtStart ch.drainTally / ch.drainPer)

/-- Is slot `i` of the ring full (R119)? -/
def slotFull (slots nf nd i : Nat) : Bool :=
  decide (((i : Int) - nd) % (slots : Int) < (nf : Int) - nd)

/-- The channel whose ring holds the address (R120). -/
def Cell.channelAt (c : Cell) (addr : Nat) : Option (Nat × Channel) :=
  (c.pad.channels.map fun e => (e.1, Channel.ofNat e.2.toNat)).find? fun e => e.2.holds addr

/-- What a channel says of an access at an address (R119–R121). -/
inductive ChannelView | free | drifted | full | empty
  deriving DecidableEq, Repr

/-- The state of the slot an address lies in. -/
def Cell.channelView (c : Cell) (addr : Nat) : ChannelView :=
  match c.channelAt addr with
  | none => .free
  | some (n, ch) =>
    if n ∈ c.pad.drifted then .drifted
    else
      let (nf, nd) := c.channelCounts ch
      if slotFull ch.slots nf nd ((addr - ch.base) / (64 * ch.slotLines)) then .full else .empty

/-- The drift test that follows a change of either tally (R121). -/
def Work.driftTest (w : Work) : Work :=
  w.cell.pad.channels.foldl (fun w e =>
    if e.1 ∈ w.cell.pad.drifted then w
    else
      let ch := Channel.ofNat e.2.toNat
      let nf := w.cell.tally ch.fillTally / ch.fillPer
      let nd := w.cell.tally ch.drainTally / ch.drainPer
      let mark := fun (w : Work) => w.mapPad fun p => { p with drifted := p.drifted ++ [e.1] }
      if nd > nf then (mark w).raiseHere Codes.tallyUnderflow ch.drainTally
      else if nf - nd > ch.slots then (mark w).raiseHere Codes.tallyOverflow ch.fillTally
      else w) w

/-! ### Scratchpad accesses -/

/-- The stored bytes at an address. -/
def Cell.stored (c : Cell) (addr len : Nat) : Payload :=
  (List.range len).map fun i => c.pad.bytes.get PByte.zero (addr + i)

/-- PARITY_SPAD at a line, and CELL_DEAD when the remembered line was rewritten and failed again (R127). -/
def Work.paritySpad (w : Work) (line fold entry iter : Nat) : Work :=
  let again := w.cell.fault.parityLine = some (line, true)
  let w := (w.raise Codes.paritySpad fold entry iter line).map fun c =>
    { c with fault := { c.fault with parityLine := some (line, false) } }
  if again then (w.raise Codes.cellDead fold entry iter line).map fun c => { c with mode := .dead } else w

/-- A read within one line: the bytes it returns and the faults it raises (R120–R122, R125–R127). -/
def Work.read (w : Work) (addr len fold entry iter : Nat) : Payload × Work :=
  let raw := w.cell.stored addr len
  let check := fun (w : Work) => if raw.parityError then w.paritySpad (addr / 64) fold entry iter else w
  match w.cell.channelView addr with
  | .empty => (Payload.poison len, check (w.raise Codes.spadUnderflow fold entry iter addr))
  | .drifted => (Payload.poison len, check w)
  | _ => (if raw.parityError then Payload.poison len else raw, check w)

/-- Bytes of a scratchpad after a write. -/
def padWrite (mem : Memory) (addr : Nat) (data : Payload) : Memory :=
  (data.zip (List.range data.length)).foldl (fun m d => m.set PByte.zero (addr + d.2) d.1) mem

/-- A line is written: a remembered parity line counts as written from here on (R127). -/
def FaultState.lineWritten (f : FaultState) (line : Nat) : FaultState :=
  { f with parityLine := f.parityLine.map fun (l, w) => (l, w || l == line) }

/-- Bytes of one line or more go to a scratchpad past all checks: LOAD, patches, fix-ups and firmware (R127). -/
def Cell.putBytes (c : Cell) (addr : Nat) (data : Payload) : Cell :=
  if data.isEmpty then c
  else { c with
    pad := { c.pad with bytes := padWrite c.pad.bytes addr data }
    fault := (List.range ((addr % 64 + data.length + 63) / 64)).foldl (fun f i => f.lineWritten (addr / 64 + i)) c.fault }

/-- A read gives the poison pattern in place of all its bytes where some of them, not all, fail their parity (R127). -/
def Payload.asRead (p : Payload) : Payload := if p.parityError then Payload.poison p.length else p

/-- A write that nothing checks: the bytes land, the remembered parity line counts as written, and a merge window of the line closes (R100, R125, R127). -/
def Work.write (w : Work) (addr : Nat) (data : Payload) : Work :=
  if data.isEmpty then w
  else w.map fun c => { c with
    pad := { c.pad with bytes := padWrite c.pad.bytes addr data },
    fault := c.fault.lineWritten (addr / 64),
    mesh := { c.mesh with windows := c.mesh.windows.map fun win =>
      if win.line = addr / 64 then { win with closed := true } else win } }

/-- A write that the channels check: a full slot drops it, counts it and raises SPAD_OVERFLOW (R120, R121, R123). -/
def Work.writeChecked (w : Work) (addr : Nat) (data : Payload) (fold entry iter : Nat) : Work :=
  if data.isEmpty then w
  else match w.cell.channelView addr with
  | .full =>
    let n := satAdd 0xFFFF w.cell.fault.dropped 1
    (w.map fun c => { c with fault := { c.fault with dropped := n } }).raise Codes.spadOverflow fold entry iter n
  | .drifted => w
  | _ => w.write addr data

/-- A read and a checked write that no entry makes: a fault they raise names the current entry (log entry 115). -/
def Work.readHere (w : Work) (addr len : Nat) : Payload × Work :=
  let f := w.cell.seq.folds.get .zero w.cell.seq.cur
  w.read addr len w.cell.seq.cur f.entry f.iter
def Work.writeHere (w : Work) (addr : Nat) (data : Payload) : Work :=
  let f := w.cell.seq.folds.get .zero w.cell.seq.cur
  w.writeChecked addr data w.cell.seq.cur f.entry f.iter

/-- Bank of a line (R107). -/
def bankOf (k : CellKind) (line : Nat) : Nat := line % k.banks

/-- Is the read or write slot of a line's bank taken in this cycle (R107)? -/
def Work.slotTaken (w : Work) (line : Nat) (wr : Bool) : Bool :=
  w.cell.seq.slots.any fun e => e.2 == wr && bankOf w.here.kind e.1 == bankOf w.here.kind line

/-- Take the slot of a line's bank; a cell that is not running has no cycle to contend in. -/
def Work.takeSlot (w : Work) (line : Nat) (wr : Bool) : Work :=
  if w.cell.mode = .running then w.mapSeq fun s => { s with slots := addOnce s.slots (line, wr) } else w

/-- A free value of `len` bytes, with good parity, and the next serial number. -/
def Work.freeBytes (w : Work) (len : Nat) : Payload × Work :=
  (Payload.ofNat len (Config.freeWord w.free).toNat, { w with free := w.free + 1 })

end Sys2Proof.Machine
end

