-- ==== Sys2Proof/Machine/Operands.lean ====
section
/-!
DEFINITION. The step-table entry and its operands (R31–R40): fields, widths, latencies (R44, R86, R99), and the test that
the checker and the sequencer apply to every entry (R32).
-/
namespace Sys2Proof.Machine

/-- A step-table entry (R31). -/
structure Entry where
  cls : Nat
  op : Nat
  fmt : Nat
  mod : Nat
  srcA : Nat
  srcB : Nat
  dst : Nat
  rep : Nat
  waitTally : Nat
  waitEn : Bool
  waitPer : Nat
  waitOff : Nat
  sigTally : Nat
  sigAmt : Nat
  sigLast : Bool
  predSrc : Nat
  predBit : Nat
  foldEnd : Bool
  next : Nat
  interval : Nat
  imm : Nat
  deriving DecidableEq, Repr

/-- Read the fields of an entry (R31). -/
def Entry.ofNat (v : Nat) : Entry :=
  { cls := bits v 124 4, op := bits v 118 6, fmt := bits v 114 4, mod := bits v 110 4, srcA := bits v 100 10,
    srcB := bits v 90 10, dst := bits v 80 10, rep := bits v 64 16, waitTally := bits v 58 6, waitEn := bitAt v 57,
    waitPer := bits v 49 8, waitOff := bits v 41 8, sigTally := bits v 35 6, sigAmt := bits v 31 4, sigLast := bitAt v 30,
    predSrc := bits v 28 2, predBit := bits v 26 2, foldEnd := bitAt v 25, next := bits v 20 5, interval := bits v 16 4,
    imm := bits v 0 16 }

/-- Entry e of fold f (R29). -/
def CellRegs.entry (r : CellRegs) (f e : Nat) : Entry := Entry.ofNat (r.stepTable.get 0 (32 * f + e)).toNat

/-- What an operand descriptor names (R33). -/
inductive Operand
  | none
  /-- Port or track number of R34 and R132. -/
  | port (p : Nat)
  | spad (ag : Nat)
  | acc (n : Nat)
  | tally (t : Nat)
  | imm
  | pred
  | mesh (n : Nat)
  | invalid
  deriving DecidableEq, Repr

/-- Read an operand descriptor for a cell kind (R33, R34). -/
def Operand.ofNat (k : CellKind) (d : Nat) : Operand :=
  let sel := bits d 0 7
  match bits d 7 3 with
  | 0 => if sel = 0 then .none else .invalid
  | 1 =>
    let dir := bits sel 5 2
    let tr := bits sel 0 3
    match bits sel 3 2 with
    | 0 => if tr < 2 then .port (dir * 2 + tr) else .invalid
    | 1 => if tr < 4 then .port (8 + dir * 4 + tr) else .invalid
    | 2 => .port (24 + dir * 8 + tr)
    | _ => .invalid
  | 2 => if sel < 16 then .spad sel else .invalid
  | 3 => if sel < 8 ∧ k = .t then .acc sel else .invalid
  | 4 => if sel < 48 then .tally sel else .invalid
  | 5 => if sel = 0 then .imm else .invalid
  | 6 => if sel = 0 then .pred else .invalid
  | _ => if sel < 16 then .mesh sel else .invalid

/-- The operands of an entry. -/
def Entry.a (e : Entry) (k : CellKind) : Operand := Operand.ofNat k e.srcA
def Entry.b (e : Entry) (k : CellKind) : Operand := Operand.ofNat k e.srcB
def Entry.d (e : Entry) (k : CellKind) : Operand := Operand.ofNat k e.dst

/-- Port number of a vector, scalar or control port (R34). -/
def portVector (p : Nat) : Bool := decide (p < 8)
def portScalar (p : Nat) : Bool := decide (8 ≤ p ∧ p < 24)
def portControl (p : Nat) : Bool := decide (24 ≤ p ∧ p < 56)

/-- Data width of an entry in bytes (R35). -/
def Entry.width (e : Entry) (k : CellKind) : Nat :=
  let scalar := bitAt e.mod 3
  let narrow :=
    ((e.cls == 1 || e.cls == 3) && scalar) || (e.cls == 6 && scalar && e.op != 4) || e.cls == 7 ||
    (e.cls == 0 && e.op == 2) ||
    (e.cls == 2 && e.op == 1 && (match e.d k with | .port p => portScalar p | _ => false))
  if narrow then 4 else 32

/-- A source that gives a token at the width: a PORT of the width's network, SPAD, and at 32 bits IMM, TALLY and PRED (R35). `ctl` is false for PUT
and FLOCK_PUT: DEDUCED that they may not read a control port, since R35 lists the operations that may (log entry 122). -/
def srcOk (w : Nat) (ctl : Bool) (o : Operand) : Bool :=
  match o with
  | .port p => if w = 32 then portVector p else portScalar p || (ctl && portControl p)
  | .spad _ => true
  | .imm | .tally _ | .pred => w == 4
  | _ => false

/-- A destination that takes a token at the width: a PORT of the width's network or SPAD (R35). -/
def dstOk (w : Nat) (ctl : Bool) (o : Operand) : Bool :=
  match o with
  | .port p => if w = 32 then portVector p else portScalar p || (ctl && portControl p)
  | .spad _ => true
  | _ => false

/-- MOD[1] KEEP_B and MOD[0] KEEP_A need a PORT source; `allowed` masks the other bits (R40). -/
def modOk (e : Entry) (k : CellKind) (allowed : Nat) : Bool :=
  let keepA := bitAt e.mod 0
  let keepB := bitAt e.mod 1
  Nat.land e.mod (15 - allowed) == 0 &&
  (!keepA || (match e.a k with | .port _ => true | _ => false)) &&
  (!keepB || (match e.b k with | .port _ => true | _ => false))

/-- IMM holds no set bit outside `mask`, unless an IMM source operand uses all of it (R32). -/
def immOk (e : Entry) (k : CellKind) (mask : Nat) : Bool :=
  e.a k == .imm || e.b k == .imm || Nat.land e.imm (0xFFFF - mask) == 0

/-- Formats of VECTOR arithmetic (R71). -/
def vectorFmt (f : Nat) : Bool := decide (f ≤ 4) || f == 11 || f == 12 || f == 13

/-- Formats of SORT and TOPK (R86). -/
def sortFmt (f : Nat) : Bool := decide (f ≤ 4) || f == 11 || f == 13

/-- Is a LOOKUP in DIRECT mode by its format (R86)? -/
def lookupDirectFmt (f : Nat) : Bool := f == 3 || f == 4 || f == 11

/-- CONVERT's PART is below the ratio of the lane counts (R72). -/
def partOk (src dst part : Nat) : Bool :=
  let ws := laneWidth src
  let wt := laneWidth dst
  if ws = wt then part == 0 else decide (part < max ws wt / min ws wt)

/-- Opcode, format, MOD, operands and IMM of one entry against the table of R38 and the owning chapters. A RED_PUT may take an ACC source, as R73 says
(log entry 14). -/
def opcodeOk (k : CellKind) (e : Entry) : Bool :=
  let w := e.width k
  let a := e.a k
  let b := e.b k
  let d := e.d k
  let isSpad := fun (o : Operand) => match o with | .spad _ => true | _ => false
  let isAcc := fun (o : Operand) => match o with | .acc _ => true | _ => false
  let isMesh := fun (o : Operand) => match o with | .mesh _ => true | _ => false
  let isCtl := fun (o : Operand) => match o with | .port p => portControl p | _ => false
  let tok := fun (o : Operand) => match o with | .port p => portVector p | .spad _ => true | _ => false
  let plain := e.fmt == 0 && e.mod == 0
  match e.cls, e.op with
  | 0, 0 | 0, 1 => plain && a == .none && b == .none && d == .none && e.imm == 0
  | 0, 2 => plain && isCtl a && b == .none && d == .none && e.imm == 0
  | 0, 3 => plain && a == .none && b == .none && d == .none && decide (e.imm < 16)
  | 0, 4 => plain && a == .none && b == .none && d == .none
  | 0, 5 => plain && a == .none && b == .none && d == .none && decide (e.imm < 256) && decide (e.rep ≤ 1) && e.predSrc == 0
  | 1, 0 => e.fmt == 0 && modOk e k 9 && (srcOk w true a || isAcc a) && b == .none && dstOk w true d && immOk e k 0
  | 1, 1 =>
    decide (e.fmt ≤ 13) && decide (bits e.imm 0 4 ≤ 13) && modOk e k 13 && srcOk w true a && b == .none && dstOk w true d &&
    Nat.land e.imm 0xF800 == 0 && partOk e.fmt (bits e.imm 0 4) (bits e.imm 8 3) &&
    (isMx e.fmt || isMx (bits e.imm 0 4) || bits e.imm 4 4 == 0)
  | 1, 2 => e.fmt == 0 && modOk e k 8 && a == .none && b == .none && dstOk w true d && e.imm == 0
  | 2, 0 =>
    k == .t && decide (e.fmt ≤ 12) && e.mod == 0 && (tok a || isAcc a) && (tok b || isAcc b) && isAcc d &&
    Nat.land e.imm (if isMx e.fmt then 0xFFF0 else 0xFFFF) == 0
  | 2, 1 =>
    k == .t && (decide (e.fmt ≤ 4) || e.fmt == 11 || e.fmt == 13) && Nat.land e.mod 9 == 0 && isAcc a && b == .none &&
    (tok d || (match d with | .port p => portScalar p | _ => false)) && e.imm == 0
  | 2, 2 => k == .t && plain && isAcc a && b == .none && isSpad d && e.imm == 0
  | 2, 3 => k == .t && plain && isSpad a && b == .none && isAcc d && e.imm == 0
  | 2, 4 => k == .t && e.fmt == 0 && Nat.land e.mod 7 == 0 && a == .none && b == .none && isAcc d
  | 3, 0 | 3, 1 | 3, 2 | 3, 3 | 3, 4 =>
    vectorFmt e.fmt && modOk e k 15 && srcOk w true a && srcOk w true b && dstOk w true d && immOk e k 0
  | 3, 5 | 3, 6 | 3, 7 =>
    decide (11 ≤ e.fmt ∧ e.fmt ≤ 14) && modOk e k 11 && srcOk w true a && srcOk w true b && dstOk w true d && immOk e k 0
  | 3, 8 | 3, 9 =>
    (e.fmt == 0 || e.fmt == 13) && w == 4 && modOk e k 11 && srcOk w true a && srcOk w true b &&
    (d == .pred || isCtl d) && immOk e k 3
  | 4, op =>
    k == .f && e.mod == 0 && tok a && b == .none && tok d &&
    (if op ≤ 10 then decide (e.fmt ≤ 2) && e.imm == 0
     else if op = 11 then sortFmt e.fmt && decide (e.imm < 2)
     else if op = 12 then sortFmt e.fmt && decide (e.imm < 512) && decide (bits e.imm 0 8 ≤ 256 / laneWidth e.fmt)
     else op == 13 && (decide (e.fmt ≤ 2) || lookupDirectFmt e.fmt) && decide (e.imm < 16))
  | 5, 0 | 5, 1 =>
    k == .m && e.fmt == 14 && e.mod == 0 && tok a && tok b && isSpad d && e.predSrc == 0 && decide (e.imm < 32) &&
    (bitAt e.imm 4 || e.imm == 0)
  | 5, 2 =>
    k == .m && (e.fmt == 13 || e.fmt == 0) && e.mod == 0 && tok a && b == .none && isSpad d && e.predSrc == 0 &&
    decide (e.imm < 32) && (bitAt e.imm 4 || e.imm == 0)
  | 5, 3 =>
    k == .m && e.fmt == 14 && e.mod == 0 && tok a && b == .none && isSpad d && e.predSrc == 0 && decide (e.imm < 32) &&
    (bitAt e.imm 4 || e.imm == 0)
  | 5, 4 =>
    k == .m && decide (11 ≤ e.fmt ∧ e.fmt ≤ 14) && e.mod == 0 && isSpad a && tok b && tok d && e.predSrc == 0 && e.imm == 0
  | 5, 5 => k == .m && plain && isSpad a && b == .none && d == .none && e.predSrc == 0 && decide (e.imm < 4)
  | 6, 0 => e.fmt == 0 && Nat.land e.mod 7 == 0 && srcOk w false a && b == .none && isMesh d && e.predSrc == 0 && immOk e k 0
  | 6, 1 => e.fmt == 0 && Nat.land e.mod 7 == 0 && isMesh a && b == .none && isSpad d && e.predSrc == 0 && e.imm == 0
  | 6, 2 => plain && a == .none && b == .none && isMesh d && e.predSrc == 0
  | 6, 3 =>
    e.fmt == 0 && Nat.land e.mod 7 == 0 && srcOk w false a && b == .none && isMesh d && e.predSrc == 0 &&
    (a == .imm || decide (e.imm < 4096))
  | 6, 4 =>
    e.fmt == 0 && decide (e.mod ≤ 8) && (tok a || isAcc a) && b == .none && isMesh d && e.predSrc == 0 && e.imm == 0
  | 7, 0 | 7, 1 => plain && a == .none && b == .none && (match d with | .tally _ => true | _ => false)
  | _, _ => false

/-- The output track an entry pushes, if any. -/
def Entry.pushPort (e : Entry) (k : CellKind) : Option Nat :=
  match e.d k with
  | .port p => some p
  | _ => none

/-- ROUTE o of fold f (R136). -/
def CellRegs.routeOf (r : CellRegs) (f o : Nat) : Nat := (r.route.get 0 (56 * f + o)).toNat

/-- The checks of R94 on a lookup descriptor, for an entry of format `fmt`. -/
def lookupOk (d fmt : Nat) : Bool :=
  let base := bits d 0 16
  let n := bits d 16 13
  let linear := bitAt d 29
  bits d 30 2 == 0 && bits d 56 8 == 0 && linear == !lookupDirectFmt fmt &&
    (if linear then decide (2 ≤ n ∧ n ≤ 4096) && base % 4 == 0 && decide (base + 4 * n ≤ 0xFF80)
     else decide (1 ≤ n ∧ n ≤ 256) && decide (base + n ≤ 0xFF80))

/-- The whole test of R32 on one entry of fold f: opcode and operands, tally numbers, predicate, and R139's SEQ route for a push. -/
def entryOk (k : CellKind) (r : CellRegs) (f : Nat) (e : Entry) : Bool :=
  opcodeOk k e && decide (e.waitTally ≤ 47) && decide (e.sigTally ≤ 47) && e.predSrc != 3 &&
  (match e.pushPort k with
   | some p => bits (r.routeOf f p) 0 3 == 2
   | none => true)

/-- Ports an entry pops, in operand order, with KEEP (R40, R42). -/
def Entry.popPorts (e : Entry) (k : CellKind) : List (Nat × Bool) :=
  let keeps := e.cls == 1 || e.cls == 3
  (match e.a k with | .port p => [(p, keeps && bitAt e.mod 0)] | _ => []) ++
  (match e.b k with | .port p => [(p, keeps && bitAt e.mod 1)] | _ => [])

/-- Scale generator of a MAC or CONVERT in an MX format (R68, R72). -/
def Entry.scaleAg (e : Entry) : Option Nat :=
  if e.cls = 2 ∧ e.op = 0 ∧ isMx e.fmt then some (bits e.imm 0 4)
  else if e.cls = 1 ∧ e.op = 1 ∧ (isMx e.fmt || isMx (bits e.imm 0 4)) then some (bits e.imm 4 4)
  else none

/-- Generator that takes a MEM operation's old values (R96). -/
def Entry.oldAg (e : Entry) : Option Nat :=
  if e.cls = 5 ∧ e.op ≤ 3 ∧ bitAt e.imm 4 then some (bits e.imm 0 4) else none

/-- Every generator an iteration advances, once each (R36, R68, R96). -/
def Entry.generators (e : Entry) (k : CellKind) : List Nat :=
  let of := fun (o : Operand) => match o with | .spad g => [g] | _ => []
  (of (e.a k) ++ of (e.b k) ++ of (e.d k) ++ e.scaleAg.toList ++ e.oldAg.toList).dedup

/-- Bytes a SPAD source reads: CCOUNT a line, DMA_ISSUE a descriptor, others the width (R35, R96, R111). -/
def Entry.readLen (e : Entry) (k : CellKind) : Nat :=
  if e.cls = 5 ∧ e.op = 4 then 64 else if e.cls = 5 ∧ e.op = 5 then 32 else e.width k

/-- The scratchpad reads of an iteration, in the order of R113. `ptr` gives a generator's pointer. -/
def Entry.reads (e : Entry) (k : CellKind) (ptr : Nat → Nat) : List ReadAsk :=
  (match e.a k with | .spad g => [⟨.srcA, ptr g, e.readLen k⟩] | _ => []) ++
  (match e.b k with | .spad g => [⟨.srcB, ptr g, e.width k⟩] | _ => []) ++
  (match e.scaleAg with | some g => [⟨.scale, ptr g, 4⟩] | none => []) ++
  (if e.cls = 5 ∧ e.op ≤ 3 then match e.d k with | .spad g => [⟨.memTarget, ptr g, 32⟩] | _ => [] else [])

/-- Is an access aligned to its width and inside the scratchpad (R36)? -/
def accessOk (k : CellKind) (addr len : Nat) : Bool := addr % len == 0 && decide (addr + len ≤ k.spadBytes)

/-- Latency L of an entry (R44, R86, R99). The table gives a MOVE from an IMM or PRED source, and ZERO, no latency: DESIGN CHOICE 1, that of a port
source (log entry 117). -/
def Entry.latency (e : Entry) (k : CellKind) : Nat :=
  match e.cls, e.op with
  | 0, _ => 1
  | 7, _ => 1
  | 1, _ => (match e.a k with | .spad _ | .tally _ | .acc _ => 2 | _ => 1)
  | 2, 0 => 4
  | 2, _ => 2
  | 3, _ => 2
  | 4, 0 => 10 | 4, 1 => 12 | 4, 2 => 10 | 4, 3 => 12 | 4, 4 => 8 | 4, 5 => 8 | 4, 6 => 8
  | 4, 7 => 14 | 4, 8 => 14 | 4, 9 => 18 | 4, 10 => 18 | 4, 11 => 12 | 4, 12 => 10
  | 4, _ => if lookupDirectFmt e.fmt then 6 else 10
  | 5, 2 => if e.fmt = 0 then 6 else 4
  | 5, 4 => 3
  | 5, 5 => 2
  | 5, _ => 4
  | _, _ => 2

/-- Cycles before the special-function unit accepts again (R86). -/
def Entry.funcGap (e : Entry) : Nat :=
  if e.cls = 4 then
    if 7 ≤ e.op ∧ e.op ≤ 10 then (if e.fmt = 0 then 2 else 1)
    else if e.op = 11 ∨ e.op = 12 then (if laneWidth e.fmt = 8 then 2 else 1)
    else if e.op = 13 then (if e.fmt = 0 then 1 else 2)
    else 1
  else 0

/-- Configuration fields of a cell (R56). -/
def CellRegs.foldActive (r : CellRegs) (f : Nat) : Bool := bitAt r.cellControl.toNat f
def CellRegs.quantum (r : CellRegs) : Nat := bits r.cellControl.toNat 8 8
def CellRegs.gen (r : CellRegs) : Bool := bitAt r.cellControl.toNat 16
def CellRegs.startOf (r : CellRegs) (f : Nat) : Nat := bits r.foldStart.toNat (5 * f) 5
def CellRegs.passes (r : CellRegs) (f : Nat) : Nat := bits (r.foldSwitch.get 0 f).toNat 0 16
def CellRegs.slice (r : CellRegs) (p f : Nat) : Nat := bits (r.portPart.get 0 p).toNat (5 * f) 5
def CellRegs.popsOf (r : CellRegs) (f p : Nat) : Nat := bits (r.portCount.get 0 (56 * f + p)).toNat 0 16
def CellRegs.pushesOf (r : CellRegs) (f p : Nat) : Nat := bits (r.portCount.get 0 (56 * f + p)).toNat 16 16
def CellRegs.routeTag (r : CellRegs) (f o : Nat) : Nat := bits (r.routeOf f o) 9 3
def CellRegs.routeKind (r : CellRegs) (f o : Nat) : Nat := bits (r.routeOf f o) 0 3
def CellRegs.routeSel (r : CellRegs) (f o : Nat) : Nat := bits (r.routeOf f o) 3 6
def CellRegs.steerTimeout (r : CellRegs) : Nat := bits r.switchControl.toNat 0 16
def CellRegs.sheepdogUs (r : CellRegs) : Nat := bits r.sheepdog.toNat 0 16

/-- Active folds in ascending order. -/
def CellRegs.folds (r : CellRegs) : List Nat := (List.range 8).filter r.foldActive

/-- Tallies that CMP_CLEAR entries of active folds name (R118). -/
def CellRegs.cmpTargets (r : CellRegs) (k : CellKind) : List Nat :=
  r.folds.flatMap fun f => (List.range 32).flatMap fun n =>
    let e := r.entry f n
    match e.cls, e.op, e.d k with
    | 7, 1, .tally t => [t]
    | _, _, _ => []

/-- STEER u of fold f (R147). -/
structure SteerCfg where
  en : Bool
  mask : Bool
  aPort : Nat
  bPort : Nat
  ctrlPort : Nat
  bit : Nat
  polarity : Bool
  deriving DecidableEq, Repr

/-- Read STEER u of fold f (R147). -/
def CellRegs.steerOf (r : CellRegs) (f u : Nat) : SteerCfg :=
  let v := (r.steer.get 0 (4 * f + u)).toNat
  { en := bitAt v 0, mask := bitAt v 1, aPort := bits v 2 6, bPort := bits v 8 6, ctrlPort := bits v 14 6,
    bit := bits v 20 2, polarity := bitAt v 22 }

/-- JUNCTION j of fold f: enabled, X port, Y port (R151). -/
def CellRegs.junctionOf (r : CellRegs) (f j : Nat) : Bool × Nat × Nat :=
  let v := (r.junction.get 0 (2 * f + j)).toNat
  (bitAt v 0, bits v 1 3, bits v 4 3)

/-- The active fold that uses steering unit u, junction j. -/
def CellRegs.steerFold (r : CellRegs) (u : Nat) : Option Nat := r.folds.find? fun f => (r.steerOf f u).en
def CellRegs.junctionFold (r : CellRegs) (j : Nat) : Option Nat := r.folds.find? fun f => (r.junctionOf f j).1

/-- Inputs of the steering units and junctions that fold f enables. -/
def CellRegs.unitInputs (r : CellRegs) (f : Nat) : List Nat :=
  ((List.range 4).flatMap fun u =>
    let c := r.steerOf f u
    if c.en then c.ctrlPort :: c.aPort :: (if c.mask then [] else [c.bPort]) else []) ++
  ((List.range 2).flatMap fun j =>
    let (en, x, y) := r.junctionOf f j
    if en then [x, y] else [])

/-- Does the switch take the tokens of fold f's slice of port p: by a route, a steering unit or a junction (R138)? -/
def CellRegs.switchTakes (r : CellRegs) (f p : Nat) : Bool :=
  decide (p ∈ r.unitInputs f) || (List.range 56).any fun o => r.routeKind f o == 1 && r.routeSel f o == p

/-- Generator n's configuration (R58). -/
structure AgConfig where
  base : Nat
  stride : Int
  wrap : Nat
  wrapEn : Bool
  deriving DecidableEq, Repr

/-- Read AG_CONFIG n (R58). -/
def CellRegs.agOf (r : CellRegs) (n : Nat) : AgConfig :=
  let v := (r.agConfig.get 0 n).toNat
  { base := bits v 0 18, stride := signedOf 18 (bits v 18 18), wrap := bits v 36 16, wrapEn := bitAt v 52 }

/-- Pointer of generator n. -/
def Cell.pointer (c : Cell) (n : Nat) : Nat := (c.ag.get (0, 0) n).1

/-- Generator n after one advance (R36). DESIGN CHOICE (log entry 119): a pointer that runs past its 18 bits or below 0 wraps modulo 2^18, and COUNT
wraps modulo 2^16 where WRAP_EN is 0. -/
def Cell.advanceAg (c : Cell) (n : Nat) : Cell :=
  let g := c.regs.agOf n
  let (cur, count) := c.ag.get (0, 0) n
  let next :=
    if g.wrapEn && count + 1 == g.wrap then (g.base, 0)
    else (wrapTo 18 ((cur : Int) + g.stride), (count + 1) % 2 ^ 16)
  { c with ag := c.ag.set (0, 0) n next }

/-- Generator n back at BASE (R38, R48). -/
def Cell.resetAg (c : Cell) (n : Nat) : Cell := { c with ag := c.ag.set (0, 0) n ((c.regs.agOf n).base, 0) }

end Sys2Proof.Machine
end

