-- ==== Sys2Proof/Machine/Flags.lean ====
section
/-!
DEFINITION. Status words and flags that a cell computes: CELL_ID, CELL_STATUS, FAULT_INFO, FOLD_STATE, waiter bits, the switch
status words, and whether a wait is met (R41, R55, R57, R137, R150, R152, R243).
-/
namespace Sys2Proof.Machine

/-- The number of a CELL_STATUS state (R55). -/
def CellMode.code : CellMode → Nat
  | .empty => 0 | .loaded => 1 | .running => 2 | .halted => 3 | .fenced => 4 | .dead => 5

/-- The KIND code of CELL_ID (R55). -/
def kindCode : CellKind → Nat
  | .t => 0 | .m => 1 | .f => 2

/-- Is the cell's clock gated (R50)? A cell that is not running shows the reset value. -/
def Cell.gated (c : Cell) : Bool := c.mode == .running && c.seq.gated

/-- Mesh requests of the sequencer in flight (R55, R220). -/
def Cell.outstanding (c : Cell) : Nat := (c.mesh.out.filter fun o => o.pkt.req == 0).length

/-- CELL_ID (R55). -/
def cellId (at_ : Coord) : Nat := at_.x + 2 ^ 10 * at_.y + 2 ^ 20 * kindCode at_.kind + 2 ^ 22 * at_.field

/-- CELL_STATUS (R55). -/
def Cell.status (c : Cell) : Nat :=
  let f := c.seq.folds.get .zero c.seq.cur
  let code := match c.fault.first with | some r => r.code.toNat | none => 0
  c.mode.code + 2 ^ 3 * c.seq.cur + 2 ^ 6 * f.entry + 2 ^ 11 * (f.iter % 2 ^ 16) + (if c.gated then 2 ^ 27 else 0) +
    (if c.fault.first.isSome then 2 ^ 28 else 0) + 2 ^ 29 * code + 2 ^ 45 * c.outstanding

/-- FAULT_INFO (R57). -/
def Cell.faultInfo (c : Cell) : Nat :=
  match c.fault.first with
  | some r => r.code.toNat + 2 ^ 16 * r.fold + 2 ^ 19 * r.entry + 2 ^ 24 * (r.iter % 2 ^ 16)
  | none => 0

/-- FOLD_STATE f (R57). -/
def Cell.foldStateWord (c : Cell) (f : Nat) : Nat :=
  let s := c.seq.folds.get .zero f
  s.entry + 2 ^ 5 * (s.iter % 2 ^ 16) + 2 ^ 21 * s.pred.toNat + 2 ^ 25 * (s.pass % 2 ^ 32)

/-- Wait threshold of fold f's current entry (R41). -/
def Cell.threshold (c : Cell) (f : Nat) (e : Entry) (entry : Nat) : Nat :=
  e.waitOff + e.waitPer * (c.seq.done.get 0 (32 * f + entry) + (if e.rep = 0 then 0 else 1))

/-- Is the wait of fold f's current entry met at the values of the start of the cycle (R41, R46)? -/
def Cell.waitMet (c : Cell) (f : Nat) : Bool :=
  let s := c.seq.folds.get .zero f
  let e := c.regs.entry f s.entry
  !e.waitEn || decide (c.threshold f e s.entry ≤ c.tallyAtStart e.waitTally)

/-- FOLD_WAITERS of a tally (R243). -/
def Cell.foldWaiters (c : Cell) (t : Nat) : Nat :=
  (List.range 8).foldl (fun acc f =>
    let s := c.seq.folds.get .zero f
    let e := c.regs.entry f s.entry
    if c.regs.foldActive f && e.waitEn && e.waitTally == t && !c.waitMet f then acc + 2 ^ f else acc) 0

/-- A tally word as it stood at the start of the cycle (R243, R245). `dmaWait` says which DMA channels' head descriptors wait on which tally. -/
def Cell.tallyWord (c : Cell) (at_ : Coord) (dmaWait : List (Nat × Nat)) (t : Nat) : Nat :=
  let v := c.tallyStart t
  let last := v.last.getD at_
  v.value + 2 ^ 32 * last.x + 2 ^ 42 * last.y + 2 ^ 52 * c.foldWaiters t +
    2 ^ 60 * (dmaWait.foldl (fun acc d => if d.2 = t then acc + 2 ^ d.1 else acc) 0)

/-- STEER_STATE u and JUNCTION_STATE j (R150, R152). -/
def steerWord (u : PairUnit) : Nat :=
  u.data.length % 8 + 2 ^ 3 * (u.ctrl.length % 8) + 2 ^ 6 * min u.wait 0xFFFF + (if u.timedOut then 2 ^ 22 else 0)
def junctionWord (u : PairUnit) : Nat :=
  u.data.length % 4 + 2 ^ 2 * (u.ctrl.length % 4) + 2 ^ 4 * min u.wait 0xFFFF + (if u.timedOut then 2 ^ 20 else 0)

/-- SWITCH_STATUS (R137). -/
def FabricState.statusWord (f : FabricState) : Nat :=
  min f.stale 0xFFFF + 2 ^ 16 * min f.linkParity 0xFFFF + (if f.sweep then 2 ^ 32 else 0)

end Sys2Proof.Machine
end

