-- ==== Sys2Proof/Machine/CellMap.lean ====
section
/-!
DEFINITION. The local address map of a cell (R19, R29, R54–R58, R134–R137, R147–R152, R243, R245): every 8-byte word a mesh
access can read or write, and which accesses are refused.
-/
namespace Sys2Proof.Machine

/-- How a word outside the scratchpad is held. -/
inductive WordKind
  | absent
  | readOnly (v : Nat)
  | tally (t : Nat) (v : Nat)
  | writable (v : Nat)
  deriving DecidableEq, Repr

/-- The 8-byte word at an offset that is a multiple of 8, outside the scratchpad. -/
def Cell.wordAt (c : Cell) (at_ : Coord) (dmaWait : List (Nat × Nat)) (off : Nat) : WordKind :=
  if 0x100000 ≤ off ∧ off < 0x100180 then .tally ((off - 0x100000) / 8) (c.tallyWord at_ dmaWait ((off - 0x100000) / 8))
  else if 0x200000 ≤ off ∧ off < 0x201000 then
    let i := (off - 0x200000) / 16
    .writable (bits (c.regs.stepTable.get 0 i).toNat (if off % 16 = 0 then 0 else 64) 64)
  else if 0x300000 ≤ off ∧ off < 0x302000 then
    let f := (off - 0x300000) / 0x400
    let r := off % 0x400
    if r = 0 then .writable (c.regs.foldSwitch.get 0 f).toNat
    else if 0x40 ≤ r ∧ r < 0x200 then .writable (c.regs.route.get 0 (56 * f + (r - 0x40) / 8)).toNat
    else if 0x200 ≤ r ∧ r < 0x2E0 then
      let p := (r - 0x200) / 4
      .writable ((c.regs.portCount.get 0 (56 * f + p)).toNat + 2 ^ 32 * (c.regs.portCount.get 0 (56 * f + p + 1)).toNat)
    else if 0x300 ≤ r ∧ r < 0x320 then .writable (c.regs.steer.get 0 (4 * f + (r - 0x300) / 8)).toNat
    else if 0x320 ≤ r ∧ r < 0x330 then .writable (c.regs.junction.get 0 (2 * f + (r - 0x320) / 8)).toNat
    else .absent
  else if off = 0x302000 then .writable c.regs.switchControl.toNat
  else if off = 0x302008 then .readOnly c.fab.statusWord
  else if 0x302010 ≤ off ∧ off < 0x302030 then .readOnly (steerWord (c.fab.steer.get .zero ((off - 0x302010) / 8)))
  else if 0x302030 ≤ off ∧ off < 0x302040 then .readOnly (junctionWord (c.fab.junction.get .zero ((off - 0x302030) / 8)))
  else if off = 0x3F0000 then .readOnly (cellId at_)
  else if off = 0x3F0008 then .readOnly c.status
  else if off = 0x3F0010 then .writable c.regs.cellControl.toNat
  else if off = 0x3F0018 then .writable c.regs.foldStart.toNat
  else if off = 0x3F0020 then .writable c.regs.sheepdog.toNat
  else if off = 0x3F0028 then .writable c.regs.tallyStepClear.toNat
  else if off = 0x3F0030 then .writable c.regs.sheepdogExempt.toNat
  else if off = 0x3F0038 then .readOnly c.faultInfo
  else if 0x3F0040 ≤ off ∧ off < 0x3F00C0 then .writable (c.regs.agConfig.get 0 ((off - 0x3F0040) / 8)).toNat
  else if 0x3F00C0 ≤ off ∧ off < 0x3F0140 then
    let g := c.ag.get (0, 0) ((off - 0x3F00C0) / 8)
    .readOnly (g.1 + 2 ^ 18 * g.2)
  else if 0x3F0140 ≤ off ∧ off < 0x3F01C0 then .writable (c.regs.meshTarget.get 0 ((off - 0x3F0140) / 8)).toNat
  else if 0x3F0200 ≤ off ∧ off < 0x3F03C0 then .writable (c.regs.portPart.get 0 ((off - 0x3F0200) / 8)).toNat
  else if 0x3F0400 ≤ off ∧ off < 0x3F0800 then
    let i := (off - 0x3F0400) / 4
    .readOnly (c.seq.done.get 0 i + 2 ^ 32 * c.seq.done.get 0 (i + 1))
  else if 0x3F0800 ≤ off ∧ off < 0x3F0840 then .readOnly (c.foldStateWord ((off - 0x3F0800) / 8))
  else .absent

/-- Store an 8-byte word in a register or table (R54, R134, R245). DESIGN CHOICE (log entry 127): reserved bits that a mesh write sets are stored and
read back. -/
def Cell.storeWord (c : Cell) (off v : Nat) : Cell :=
  let w : Reg64 := BitVec.ofNat 64 v
  let regs := fun (f : CellRegs → CellRegs) => { c with regs := f c.regs }
  if 0x100000 ≤ off ∧ off < 0x100180 then
    { c with tallies := c.tallies.upd .zero ((off - 0x100000) / 8) fun t => { t with value := v % 2 ^ 32 } }
  else if 0x200000 ≤ off ∧ off < 0x201000 then
    let i := (off - 0x200000) / 16
    let old := (c.regs.stepTable.get 0 i).toNat
    let new := if off % 16 = 0 then v % 2 ^ 64 + 2 ^ 64 * (old / 2 ^ 64) else old % 2 ^ 64 + 2 ^ 64 * (v % 2 ^ 64)
    regs fun r => { r with stepTable := r.stepTable.set 0 i (BitVec.ofNat 128 new) }
  else if 0x300000 ≤ off ∧ off < 0x302000 then
    let f := (off - 0x300000) / 0x400
    let q := off % 0x400
    if q = 0 then regs fun r => { r with foldSwitch := r.foldSwitch.set 0 f w }
    else if 0x40 ≤ q ∧ q < 0x200 then regs fun r => { r with route := r.route.set 0 (56 * f + (q - 0x40) / 8) w }
    else if 0x200 ≤ q ∧ q < 0x2E0 then
      let p := 56 * f + (q - 0x200) / 4
      regs fun r => { r with portCount :=
        (r.portCount.set 0 p (BitVec.ofNat 32 v)).set 0 (p + 1) (BitVec.ofNat 32 (v / 2 ^ 32)) }
    else if 0x300 ≤ q ∧ q < 0x320 then regs fun r => { r with steer := r.steer.set 0 (4 * f + (q - 0x300) / 8) w }
    else if 0x320 ≤ q ∧ q < 0x330 then regs fun r => { r with junction := r.junction.set 0 (2 * f + (q - 0x320) / 8) w }
    else c
  else if off = 0x302000 then regs fun r => { r with switchControl := w }
  else if off = 0x3F0010 then regs fun r => { r with cellControl := w }
  else if off = 0x3F0018 then regs fun r => { r with foldStart := w }
  else if off = 0x3F0020 then regs fun r => { r with sheepdog := w }
  else if off = 0x3F0028 then regs fun r => { r with tallyStepClear := w }
  else if off = 0x3F0030 then regs fun r => { r with sheepdogExempt := w }
  else if 0x3F0040 ≤ off ∧ off < 0x3F00C0 then regs fun r => { r with agConfig := r.agConfig.set 0 ((off - 0x3F0040) / 8) w }
  else if 0x3F0140 ≤ off ∧ off < 0x3F01C0 then regs fun r => { r with meshTarget := r.meshTarget.set 0 ((off - 0x3F0140) / 8) w }
  else if 0x3F0200 ≤ off ∧ off < 0x3F03C0 then regs fun r => { r with portPart := r.portPart.set 0 ((off - 0x3F0200) / 8) w }
  else c

/-- The 8-byte words an access `[off, off + len)` touches. -/
def wordsOf (off len : Nat) : List Nat :=
  if len = 0 then [off / 8 * 8] else (List.range ((off + len + 7) / 8 - off / 8)).map fun i => (off / 8 + i) * 8

/-- Replace bytes `[off, off + len)` that fall in the 8-byte word at `base` by the data (given with its own offset). -/
def mergeWord (base old off : Nat) (data : Payload) : Nat :=
  Payload.toNat ((List.range 8).map fun i =>
    if off ≤ base + i ∧ base + i < off + data.length then data.getD (base + i - off) .zero
    else PByte.ofData (BitVec.ofNat 8 (bits old (8 * i) 8)))

/-- Read bytes outside the scratchpad: none where any touched word is not implemented (R19). -/
def Cell.readRegs (c : Cell) (at_ : Coord) (dmaWait : List (Nat × Nat)) (off len : Nat) : Option Payload :=
  let word := fun o => match c.wordAt at_ dmaWait o with
    | .absent => none | .readOnly v => some v | .tally _ v => some v | .writable v => some v
  if (wordsOf off len).all fun o => (word o).isSome then
    some ((List.range len).map fun i =>
      PByte.ofData (BitVec.ofNat 8 (bits ((word ((off + i) / 8 * 8)).getD 0) (8 * ((off + i) % 8)) 8)))
  else none

/-- Write bytes outside the scratchpad; refused (none) while the region runs, on a read-only word or outside the extent (R19, R54, R245). -/
def Cell.writeRegs (c : Cell) (at_ : Coord) (off : Nat) (data : Payload) : Option Cell :=
  let ws := wordsOf off data.length
  let may := fun o => match c.wordAt at_ [] o with
    | .tally _ _ => true | .writable _ => true | _ => false
  if c.mode = .running ∨ !ws.all may then none
  else if data.isEmpty then some c
  else some (ws.foldl (fun (c : Cell) o =>
    match c.wordAt at_ [] o with
    | .writable v => c.storeWord o (mergeWord o v off data)
    | .tally t _ => if off < o + 4 then c.storeWord o (mergeWord o (c.tally t) off data) else c
    | _ => c) c)

end Sys2Proof.Machine
end

