-- ==== Sys2Proof/Machine/FuncUnit.lean ====
section
/-!
DEFINITION. The special functions of an F-cell (R85–R94): correctly rounded results. A transcendental function is
enclosed in an interval of fixed-point numbers with `p` fraction bits; when both ends round to the same encoding that is
the result. The slack of 2 ^ 16 units of the last place bounds the floors of every series below (fewer than 2 ^ 10 terms,
each losing at most a few units).
-/
namespace Sys2Proof.Machine

/-- An enclosure: the value lies between `lo` and `hi` times 2 ^ `e`. -/
structure Ival where
  lo : Int
  hi : Int
  e  : Int
  deriving DecidableEq, Repr

/-- Sum of `z ^ (2k+1) / (2k+1)`, all at `p` fraction bits. -/
def atanhLoop (p : Nat) (z2 : Nat) : Nat → Nat → Nat → Nat → Nat
  | 0, _, _, sum => sum
  | n + 1, k, term, sum => atanhLoop p z2 n (k + 2) (term * z2 / 2 ^ p) (sum + term / k)

/-- atanh of `z` in [0, 1/2) at `p` bits. -/
def atanhFix (p z : Nat) : Nat := atanhLoop p (z * z / 2 ^ p) (p / 2) 1 z 0

/-- ln 2 at `p` bits. -/
def lnTwo (p : Nat) : Nat := 2 * atanhFix p (2 ^ p / 3)

/-- ln of `n / d` in [1, 2) at `p` bits. -/
def lnFix (p n d : Nat) : Nat := 2 * atanhFix p ((n - d) * 2 ^ p / (n + d))

/-- Taylor sum of e ^ r for 0 ≤ r < 1 at `p` bits. -/
def expLoop (p r : Nat) : Nat → Nat → Nat → Nat → Nat
  | 0, _, _, sum => sum
  | n + 1, k, term, sum =>
    let t := term * r / (2 ^ p * k)
    expLoop p r n (k + 1) t (sum + t)

/-- e ^ r at `p` bits, 0 ≤ r < 1. -/
def expFix (p r : Nat) : Nat := expLoop p r (p / 3) 1 (2 ^ p) (2 ^ p)

/-- Alternating sum of `1 / (k q ^ k)`. -/
def atanLoop (q2 : Nat) : Nat → Nat → Int → Int → Int → Int
  | 0, _, _, _, sum => sum
  | n + 1, k, s, term, sum => atanLoop q2 n (k + 2) (-s) (term / q2) (sum + s * (term / k))

/-- arctan (1 / q) at `p` bits. -/
def atanInv (p q : Nat) : Int := atanLoop (q * q) (p / 4) 1 1 ((2 ^ p : Nat) / q) 0

/-- π / 2 at `p` bits, by Machin's formula. -/
def halfPi (p : Nat) : Nat := (8 * atanInv p 5 - 2 * atanInv p 239).toNat

/-- Alternating Taylor sum: sin starts from `r` at k = 1, cos from 1 at k = 0. -/
def trigLoop (p r2 : Nat) : Nat → Nat → Int → Int → Int
  | 0, _, _, sum => sum
  | n + 1, k, term, sum =>
    let t := -(term * r2 / ((2 ^ p : Nat) * ((k + 1) * (k + 2) : Nat)))
    trigLoop p r2 n (k + 2) t (sum + t)

/-- sin r and cos r at `p` bits, 0 ≤ r < 2. -/
def sinFix (p r : Nat) : Int := trigLoop p (r * r / 2 ^ p) (p / 6) 1 r r
def cosFix (p r : Nat) : Int := trigLoop p (r * r / 2 ^ p) (p / 6) 0 (2 ^ p : Nat) (2 ^ p : Nat)

/-- An enclosure of a number at `p` bits. -/
def Ival.near (p : Nat) (v : Int) (e : Int) : Ival := ⟨v - 2 ^ 16, v + 2 ^ 16, e - p⟩

/-- An exact number. -/
def Ival.exact (v : Int) (e : Int) : Ival := ⟨v, v, e⟩

/-- e ^ x for |x| < 512 as an enclosure of the mantissa with its exponent; `x` at `p` bits. -/
def expIval (p : Nat) (x : Int) : Ival :=
  let l := lnTwo p
  let k := x * (2 ^ p : Nat) / l / (2 ^ p : Nat)
  let r := x - k * l
  -- r may leave [0, ln 2) by the error of k × ln 2; the series holds there
  Ival.near p (if 0 ≤ r then (expFix p r.toNat : Int) else (2 ^ p : Nat) + r) k

/-- A signed dyadic number at `p` fraction bits, rounded down. -/
def fixOf (p : Nat) (m e : Int) : Int :=
  if 0 ≤ e + p then m * 2 ^ (e + p).toNat else m / 2 ^ (-(e + p)).toNat

/-- Enclosure scaled to `p` fraction bits. -/
def Ival.atBits (p : Nat) (v : Ival) : Int × Int := (fixOf p v.lo v.e, fixOf p v.hi v.e + 1)

/-- Enclosures of the transcendental functions (opcodes 0–3 and 7–10) at a finite non-zero `m × 2 ^ e`. -/
def funcIval (p op : Nat) (m e : Int) : Ival :=
  let x := fixOf p m e
  let one : Int := (2 ^ p : Nat)
  let size : Int := (Nat.log2 m.natAbs : Int) + e        -- |x| < 2 ^ (size + 1)
  match op with
  | 0 =>
    if size ≥ 9 then (if m < 0 then Ival.exact 1 (-1000) else Ival.exact 1 1000)
    else
      let k := x / one
      let f := x - k * one
      if f = 0 then Ival.exact 1 k
      else Ival.near p (expFix p (f.toNat * lnTwo p / 2 ^ p)) k
  | 1 =>
    if size ≥ 9 then (if m < 0 then Ival.exact 1 (-1000) else Ival.exact 1 1000) else expIval p x
  | 2 =>
    let l := Nat.log2 m.natAbs
    if m.natAbs = 2 ^ l then Ival.exact (l + e) 0
    else Ival.near p ((l + e) * one + (lnFix p m.natAbs (2 ^ l) * 2 ^ p / lnTwo p : Nat)) 0
  | 3 =>
    let l := Nat.log2 m.natAbs
    if m = 2 ^ l ∧ (l : Int) + e = 0 then Ival.exact 0 0
    else Ival.near p ((l + e) * lnTwo p + (lnFix p m.natAbs (2 ^ l) : Nat)) 0
  | 7 =>
    let v : Ival :=
      if size ≥ 6 then Ival.exact 1 0
      else
        let (lo, hi) := (expIval p (2 * x.natAbs)).atBits p
        ⟨(lo - one) * one / (lo + one), (hi - one) * one / (hi + one) + 1, -p⟩
    if m < 0 then ⟨-v.hi, -v.lo, v.e⟩ else v
  | 8 =>
    if size ≥ 8 then (if m < 0 then Ival.exact 1 (-1000) else Ival.exact 1 0)
    else
      let (lo, hi) := (expIval p x).atBits p
      ⟨lo * one / (one + lo), hi * one / (one + hi) + 1, -p⟩
  | _ =>
    let w := p + 140
    let hp : Int := (halfPi w : Nat)
    let ax := fixOf w m.natAbs e
    let q := ax / hp
    let r := ((ax - q * hp) / (2 ^ 140 : Nat)).toNat
    let quad := ((if op = 9 then q else q + 1) % 4).toNat
    let v : Int := match quad with
      | 0 => sinFix p r
      | 1 => cosFix p r
      | 2 => -sinFix p r
      | _ => -cosFix p r
    Ival.near p (if op = 9 ∧ m < 0 then -v else v) 0

/-- The encoding both ends of an enclosure round to, if they agree in sign and encoding (R86). -/
def Ival.round (f : FloatFmt) (v : Ival) : Option Nat :=
  if decide (0 < v.lo) || decide (v.hi < 0) || decide (v.lo = v.hi) then
    let a := f.ofNum false (.fin v.lo v.e)
    if a = f.ofNum false (.fin v.hi v.e) then some a else none
  else none

/-- Integer square root, bit by bit from 2 ^ n. -/
def isqrtLoop (v : Nat) : Nat → Nat → Nat
  | 0, r => r
  | n + 1, r => isqrtLoop v n (if (r + 2 ^ n) * (r + 2 ^ n) ≤ v then r + 2 ^ n else r)

/-- floor (sqrt v). -/
def isqrt (v : Nat) : Nat := isqrtLoop v (Nat.log2 v / 2 + 1) 0

/-- sqrt of `m × 2 ^ e`: exact, or a number strictly between the two neighbours of 128 more bits (R86). -/
def sqrtBits (f : FloatFmt) (m : Nat) (e : Int) : Nat :=
  let odd := e % 2 = 1
  let m := if odd then 2 * m else m
  let e := if odd then e - 1 else e
  let v := m * 2 ^ 256
  let s := isqrt v
  if s * s = v then f.ofRat false false s 1 (e / 2 - 128) else f.ofRat false false (2 * s + 1) 2 (e / 2 - 128)

/-- 1 / sqrt of `m × 2 ^ e` (R86). -/
def rsqrtBits (f : FloatFmt) (m : Nat) (e : Int) : Nat :=
  let odd := e % 2 = 1
  let m := if odd then 2 * m else m
  let e := if odd then e - 1 else e
  let s := isqrt (2 ^ 512 / m)
  if s * s * m = 2 ^ 512 then f.ofRat false false s 1 (-(e / 2) - 256)
  else f.ofRat false false (2 * s + 1) 2 (-(e / 2) - 256)

/-- One special-function lane: opcodes 0x00–0x0A in a floating format (R86, R87). -/
def funcLane (op fmt : Nat) (f : FloatFmt) (l : Nat) : Nat :=
  let nan := f.nan.getD 0
  let num := fun n => f.ofNum false n
  match f.decode l with
  | .nan => nan
  | .inf neg =>
    match op with
    | 0 | 1 => if neg then 0 else num (.inf false)
    | 2 | 3 | 5 => if neg then nan else num (.inf false)
    | 4 => f.signBit neg
    | 6 => if neg then nan else 0
    | 7 => num (.fin (if neg then -1 else 1) 0)
    | 8 => if neg then 0 else num (.fin 1 0)
    | _ => nan
  | .fin m e =>
    if m = 0 then
      match op with
      | 0 | 1 | 10 => num (.fin 1 0)
      | 2 | 3 => num (.inf true)
      | 4 | 6 => num (.inf false)
      | 8 => num (.fin 1 (-1))
      | _ => 0
    else if m < 0 ∧ (op = 2 ∨ op = 3 ∨ op = 5 ∨ op = 6) then nan
    else
      match op with
      | 4 => f.ofRat false (decide (m < 0)) 1 m.natAbs (-e)
      | 5 => sqrtBits f m.natAbs e
      | 6 => rsqrtBits f m.natAbs e
      | _ =>
        match (funcIval 512 op m e).round f with
        | some b => b
        | none =>
          match (funcIval 1024 op m e).round f with
          | some b => b
          | none => Config.funcOpen op fmt l

/-- A special function over the lanes of a token (R85). -/
def funcToken (op fmt a : Nat) : Nat :=
  match floatOf fmt with
  | some f => ofLanes (laneWidth fmt) ((lanesOf (laneWidth fmt) 32 a).map (funcLane op fmt f))
  | none => 0

/-- floor of `m × 2 ^ e`. -/
def floorNum (m e : Int) : Int := if 0 ≤ e then m * 2 ^ e.toNat else m / 2 ^ (-e).toNat

/-- LINEAR lookup of one lane (R93; DESIGN CHOICE, log entry 124: an X0 that is a NaN, or an infinite X0 equal to x, makes t a NaN and the lane
the produced NaN; with a finite x, an infinite X0 makes t the opposite infinity): `entry i` reads the FP32 table. -/
def linearLane (f : FloatFmt) (x0 : Nat) (scaleExp : Int) (entries : Nat) (entry : Nat → Nat) (l : Nat) : Nat :=
  let nan := f.nan.getD 0
  let t := ((f.decode l).add (FloatFmt.bf16.decode x0).neg).shift scaleExp
  let top : Int := (entries : Int) - 2
  let go := fun (i : Int) (fr : Num) =>
    match FloatFmt.fp32.decode (entry i.toNat), FloatFmt.fp32.decode (entry (i.toNat + 1)) with
    | .fin a ea, .fin b eb =>
      f.ofNum false ((Num.fin a ea).add (fr.mul ((Num.fin b eb).add (Num.fin a ea).neg)))
    | _, _ => nan
  match t with
  | .nan => nan
  | .inf true => go 0 (.fin 0 0)
  | .inf false => go top (.fin 1 0)
  | .fin m e =>
    let fl := floorNum m e
    let i := min (max fl 0) top
    let d := (Num.fin m e).add (.fin (-i) 0)
    let fr := if d.lt (.fin 0 0) then Num.fin 0 0 else if (Num.fin 1 0).lt d then Num.fin 1 0 else d
    go i fr

end Sys2Proof.Machine
end

