-- ==== Sys2Proof/Machine/Packets.lean ====
section
/-!
DEFINITION. Mesh packets (R184–R191): types, sizes, the flits a packet is sent as, CRC-32C over them, and responses.
-/
namespace Sys2Proof.Machine

/-- The packet types of R188. -/
def tPut : Nat := 1
def tGet : Nat := 2
def tTallyAdd : Nat := 3
def tFlockUp : Nat := 4
def tFlockDown : Nat := 5
def tRed : Nat := 6
def tLoftRd : Nat := 7
def tLoftWr : Nat := 8
def tAck : Nat := 9
def tNack : Nat := 10
def tReply : Nat := 11
def tMultiReply : Nat := 12
def tFanout : Nat := 13
def tDrop : Nat := 14

/-- Is the TYPE listed (R188)? -/
def Packet.typeOk (p : Packet) : Bool := decide (1 ≤ p.type ∧ p.type ≤ 14)

/-- Requests ask for an effect, responses report one (R184). -/
def Packet.isRequest (p : Packet) : Bool := decide (p.type ≤ 8)

/-- A posted request receives no response (R187). -/
def Packet.posted (p : Packet) : Bool := decide (6 ≤ p.req)

/-- LEN of a PUT, GET, FLOCK or REPLY (R188). -/
def Packet.len (p : Packet) : Nat := p.aux % 128

/-- Flits of a packet (R188). -/
def Packet.flits (p : Packet) : Nat :=
  match p.type with
  | 1 | 5 | 11 => 1 + (p.len + 15) / 16
  | 4 => 2 + (p.len + 15) / 16
  | 6 => 3 + (p.entries.length + 3) / 4
  | 8 => 5
  | 12 => 5 + (p.entries.length + 1) / 2
  | _ => 1

/-- A coordinate in 20 bits (R186). -/
def coordBits (c : Coord) : Nat := c.x % 2 ^ 10 + 2 ^ 10 * (c.y % 2 ^ 10)

/-- The DST field: a flock id in FLOCK_DOWN, K in MULTI_REPLY, otherwise a cell (R188). -/
def Packet.dstBits (p : Packet) : Nat :=
  if p.type = tFlockDown then p.flock % 2 ^ 12
  else if p.type = tMultiReply then p.entries.length % 32
  else coordBits p.dst

/-- The header flit with a given CRC field (R186). -/
def Packet.header (p : Packet) (crc : Nat) : Nat :=
  crc % 2 ^ 32 + (if p.tallyEn then 2 ^ 32 else 0) + 2 ^ 33 * (p.tally % 64) + 2 ^ 39 * (p.aux % 256) +
  2 ^ 47 * (p.offset % 2 ^ 24) + 2 ^ 71 * (p.tag % 16) + 2 ^ 75 * (p.req % 8) + 2 ^ 78 * coordBits p.src +
  2 ^ 98 * p.dstBits + 2 ^ 118 * (p.age % 4) + 2 ^ 120 * (p.attempt % 4) + (if p.seq then 2 ^ 122 else 0) +
  (if p.epoch then 2 ^ 123 else 0) + 2 ^ 124 * (p.type % 16)

/-- A contributor entry of a RED packet, 32 bits (R216). -/
def Contributor.redBits (c : Contributor) : Nat :=
  coordBits c.at_ + 2 ^ 20 * (c.req % 8) + 2 ^ 23 * (c.tag % 16) + (if c.seq then 2 ^ 27 else 0) + 2 ^ 28 * (c.attempt % 4)

/-- A requester entry of a MULTI_REPLY, 64 bits (R213). -/
def Contributor.replyBits (c : Contributor) : Nat :=
  c.redBits + 2 ^ 30 * (c.byte % 64) + 2 ^ 36 * (c.len % 128)

/-- Numbers of `w` bytes as plain bytes, little-endian, one after the other. -/
def bytesOf (w : Nat) (l : List Nat) : List Byte := l.flatMap fun v => leBytes w v

/-- Pad a list of bytes with zeros to a multiple of 16. -/
def padFlit (l : List Byte) : List Byte := l ++ List.replicate ((16 - l.length % 16) % 16) 0

/-- The data bytes of every flit after the header (R188, R213, R216). -/
def Packet.body (p : Packet) : List Byte :=
  let data := padFlit (p.payload.map (·.data))
  match p.type with
  | 4 => leBytes 16 (p.flock % 2 ^ 12) ++ data
  | 6 => data ++ padFlit (bytesOf 4 (p.entries.map Contributor.redBits))
  | 12 => data ++ padFlit (bytesOf 8 (p.entries.map Contributor.replyBits))
  | _ => data

/-- One bit of the reflected CRC-32C (R191). -/
def crcBit (c : Nat) : Nat := if c % 2 = 1 then Nat.xor (c / 2) 0x82F63B78 else c / 2

/-- One byte of CRC-32C. -/
def crcByte (c : Nat) (b : Byte) : Nat :=
  let c := Nat.xor c b.toNat
  crcBit (crcBit (crcBit (crcBit (crcBit (crcBit (crcBit (crcBit c)))))))

/-- CRC-32C of bytes (R191). -/
def crc32c (l : List Byte) : Nat := Nat.xor (l.foldl crcByte 0xFFFFFFFF) 0xFFFFFFFF

/-- CRC-32C of a packet, its CRC field taken as zero (R191). -/
def Packet.crcOf (p : Packet) : BitVec 32 := BitVec.ofNat 32 (crc32c (leBytes 16 (p.header 0) ++ p.body))

/-- The packet with its CRC computed, as a requester or a rewriting router sends it (R191). -/
def Packet.seal (p : Packet) : Packet := { p with crc := p.crcOf }

/-- Does the CRC hold (R191)? -/
def Packet.crcOk (p : Packet) : Bool := p.crc == p.crcOf

/-- Has the packet's age run out (R195)? -/
def Packet.expired (p : Packet) (now : Nat) : Bool := (now + 4 - p.age) % 4 == 3

/-- A response to a request's sender (R188): it echoes REQ, TAG, SEQ and ATTEMPT. -/
def Packet.respond (p : Packet) (type : Nat) (here : Coord) (epoch : Bool) (now status aux : Nat) (payload : Payload) : Packet :=
  ({ type, epoch, seq := p.seq, attempt := p.attempt, age := now % 4, dst := p.src, src := here, req := p.req, tag := p.tag,
     offset := status, aux, tally := 0, tallyEn := false, flock := 0, payload, entries := [], crc := 0, left := none } : Packet).seal

/-- A payload as a destination takes it: poison stays, any other payload with a good CRC has its parity regenerated (R192). -/
def Packet.cleanPayload (p : Packet) : Payload :=
  if p.payload.poisoned then p.payload else p.payload.map fun b => PByte.ofData b.data

end Sys2Proof.Machine
end

