-- ==== Sys2Proof/Machine/Slots.lean ====
section
/-!
DEFINITION. The read and write slots of a scratchpad's banks, and the requests that contend for them (R95, R107–R115).
-/
namespace Sys2Proof.Machine

/-- A request for a bank slot that waits (R113): the cycle first made in, its place among requests of one age (the mesh port, DMA channels 0–3, the
sequencer), its line, write? -/
structure BankAsk where
  since : Nat
  place : Nat
  line  : Nat
  wr    : Bool
  deriving DecidableEq, Repr

/-- The scratchpad address of an access at the mesh port: a reply's is the address its requester gave (R37, R113). -/
def Work.portAddr (w : Work) (p : Packet) : Nat :=
  if p.type = tReply then
    ((w.cell.mesh.out.find? fun o => o.pkt.req == p.req && o.pkt.tag == p.tag && o.pkt.seq == p.seq).bind (·.local_)).getD p.offset
  else p.offset

/-- The bank slots a packet's access takes: read, write (R111, R218). -/
def Packet.slots (p : Packet) : Bool × Bool :=
  if p.type = tGet then (true, false) else if p.type = tRed then (true, true) else (false, true)

/-- The requests that wait for bank slots of the cell's scratchpad (R113): the mesh port's, the DMA channels', the writes past their commit, and the
reads of the iteration that holds the sequencer. -/
def Work.asks (w : Work) : List BankAsk :=
  (match w.cell.mesh.port with
   | some (p, since) => ([false, true].filter fun wr => if wr then p.slots.2 else p.slots.1).map fun wr =>
       { since, place := 0, line := w.portAddr p / 64, wr }
   | none => []) ++
  (w.dmaAsk.map fun a => { since := a.2.1, place := 1 + a.1, line := a.2.2.1, wr := a.2.2.2 }) ++
  (w.cell.seq.late.flatMap fun i => i.effects.filterMap fun x => match x with
    | .spad addr _ _ => some { since := i.due, place := 5, line := addr / 64, wr := true }
    | _ => none) ++
  (match w.cell.seq.asking with
   | some a => a.want.map fun r => { since := a.since, place := 5, line := r.addr / 64, wr := false }
   | none => [])

/-- Is a request granted its slot now: the slot is free, and no request that waits for it is older, or of the same age and earlier in the order of R113?
Once the reads of a cycle have begun its writes are over (R95). A cell that is not running has no cycle to contend in. -/
def Work.grants (w : Work) (since place line : Nat) (wr : Bool) : Bool :=
  w.cell.mode != .running ||
  (!(wr && w.cell.seq.reading) && !w.slotTaken line wr && w.asks.all fun a =>
    !(a.wr == wr && bankOf w.here.kind a.line == bankOf w.here.kind line &&
      (decide (a.since < since) || (a.since == since && decide (a.place < place)))))

/-- The cycle in which a request is first made: this one, or for a write the next one where the reads of this cycle have begun (R95, R113). -/
def Cell.askCycle (c : Cell) (wr : Bool) : Nat := if wr && c.seq.reading then c.seq.cycle + 1 else c.seq.cycle

/-- May the cell make reads other than the sequencer's now: it has no cycle, or the writes of its cycle are made (R95)? -/
def Cell.mayRead (c : Cell) : Bool := c.mode != .running || c.seq.reading

/-- The writes of a running cell's cycle are made (R95). -/
def Work.readsBegin (w : Work) : Work := if w.cell.mode = .running then w.mapSeq fun q => { q with reading := true } else w

end Sys2Proof.Machine
end

