-- ==== Sys2Proof/Machine/Sequencer.lean ====
section
/-!
DEFINITION. The cell sequencer (R41–R51, R112–R115): one core cycle of a cell — commits that fall due, the firing test, the
issue of one iteration or a fold switch — and what each opcode does (R38 and the owning chapters).
-/
namespace Sys2Proof.Machine

/-! ### The firing test (R41) -/

/-- Every effect still in flight, oldest first: the writes past their commit, then the iterations before it (R99, R115). -/
def SeqState.pendingEffects (s : SeqState) : List Effect := (s.late ++ s.inflight).flatMap (·.effects)

/-- Head token of the current generation in a slice (R53). -/
def Cell.headToken (c : Cell) (p f : Nat) : Option Token :=
  (c.fab.slices.get [] (8 * p + f)).find? fun t => t.gen == c.regs.gen

/-- Is a credit held for a push of fold f to track o? None while the holding register is occupied (R41, R139). -/
def Cell.pushCredit (c : Cell) (f o : Nat) : Bool :=
  (c.fab.hold.get none o).isNone && decide (0 < c.fab.credits.get 0 (8 * o + c.regs.routeTag f o))

/-- Does an effect write the 64-byte line? A MEM update of the same 32 bytes is forwarded, not waited for (R99). -/
def Effect.holdsLine (line : Nat) (memTarget : Option Nat) : Effect → Bool
  | .spad addr data mem =>
    !data.isEmpty && addr / 64 == line && !(mem && memTarget == some (addr / 32))
  | _ => false

/-- An update of accumulator n in flight: a MAC, or a fill, set or clear (R41, R61). -/
def Effect.macOf (n : Nat) : Effect → Bool
  | .mac a _ _ _ _ => a == n
  | _ => false
def Effect.setOf (n : Nat) : Effect → Bool
  | .accFill a _ => a == n
  | .accSet a _ => a == n
  | .accClear a => a == n
  | _ => false

/-- Accumulators an entry reads; the one it updates. -/
def Entry.accReads (e : Entry) (k : CellKind) : List Nat :=
  (match e.a k with | .acc n => [n] | _ => []) ++ (match e.b k with | .acc n => [n] | _ => [])
def Entry.accWrites (e : Entry) (k : CellKind) : List Nat := match e.d k with | .acc n => [n] | _ => []

/-- The accumulator conditions of R41. DESIGN CHOICE (log entry 145): an update that its predicate or R63 suppresses is none in flight, so it holds back
nothing. -/
def accFree (e : Entry) (k : CellKind) (fx : List Effect) : Bool :=
  let macHeld := fun n => fx.any (Effect.macOf n)
  let setHeld := fun n => fx.any (Effect.setOf n)
  (e.accReads k).all (fun n => !macHeld n && !setHeld n) &&
  (e.accWrites k).all (fun n => !setHeld n && (e.op == 0 || !macHeld n))

/-- Does an entry read the predicate register (R41, R45)? -/
def Entry.readsPred (e : Entry) (k : CellKind) : Bool :=
  e.predSrc != 0 || e.a k == .pred || e.b k == .pred

/-- A predicate write of fold f is in flight. -/
def SeqState.predBusy (s : SeqState) (f : Nat) : Bool :=
  s.inflight.any fun i => i.fold == f && i.effects.any fun x => match x with | .predSet _ => true | _ => false

/-- Can MUSTER_ENTER be taken (R256)? -/
def CellMusters.canEnter (m : CellMusters) (id : Nat) : Bool :=
  match m.overrun with
  | none => true
  | some o => o.muster != id && decide ((m.parts.get { nextParity := false, pending := [] } id).pending.length < 2)

/-- Tags of the sequencer free to use: not outstanding and not resting (R197). -/
def Cell.freeTag (c : Cell) (req now : Nat) : Option Nat :=
  (List.range 16).find? fun t =>
    !c.mesh.out.any (fun o => o.pkt.req == req && o.pkt.tag == t) && decide (c.mesh.resting.get 0 (16 * req + t) ≤ now)

/-- Conditions of R41 after the wait, for a REPEAT_COUNT above 0. -/
def Work.restOk (w : Work) (f : Nat) (e : Entry) (k : CellKind) : Bool :=
  let c := w.cell
  let s := c.seq.folds.get .zero f
  let fx := c.seq.pendingEffects
  let memTarget := if e.cls = 5 ∧ e.op ≤ 3 then match e.d k with | .spad g => some (c.pointer g / 32) | _ => none else none
  !(decide (0 < s.iter) && decide (c.seq.cycle ≤ s.lastIssue + e.interval)) &&
  (e.popPorts k).all (fun p => (c.headToken p.1 f).isSome) &&
  (match e.pushPort k with | some o => c.pushCredit f o | none => true) &&
  ((e.reads k c.pointer).all fun r => !fx.any (Effect.holdsLine (r.addr / 64) (if r.role = .memTarget then memTarget else none))) &&
  accFree e k fx &&
  !(e.readsPred k && c.seq.predBusy f) &&
  !(e.cls == 6 && (c.outstanding == 16 || (c.freeTag 0 w.now).isNone)) &&
  !(e.cls == 0 && e.op == 1 && decide (0 < c.outstanding)) &&
  !(e.cls == 5 && e.op == 5 && decide (4 ≤ w.dmaHeld.getD (e.imm % 4) 0 +
      (fx.filter fun x => match x with | .dmaIssue ch _ _ => ch == e.imm % 4 | _ => false).length)) &&
  !(e.cls == 4 && decide (c.seq.cycle < c.seq.funcFree)) &&
  !(e.cls == 0 && e.op == 5 && !c.must.canEnter (e.imm % 256))

/-- A fold that may issue in the step at all: active, not finished (R145), not stopped by an invalid entry (R32), PASSES above 0 (R135). -/
def Cell.foldLive (c : Cell) (f : Nat) : Bool :=
  let s := c.seq.folds.get .zero f
  c.regs.foldActive f && !s.finished && !s.invalid && decide (0 < c.regs.passes f)

/-- can_fire(f) (R41). -/
def Work.canFire (w : Work) (f : Nat) : Bool :=
  let c := w.cell
  let s := c.seq.folds.get .zero f
  let e := c.regs.entry f s.entry
  c.foldLive f && (!e.waitEn || decide (c.threshold f e s.entry ≤ 0xFFFFFFFF)) && c.waitMet f &&
  (e.rep == 0 || w.restOk f e w.here.kind)

/-- An invalid current entry stops its fold and raises CONFIG_INVALID (R32); a threshold beyond 32 bits raises TALLY_OVERFLOW once (R41). -/
def Work.inspectFold (w : Work) (f : Nat) : Work :=
  let s := w.cell.seq.folds.get .zero f
  let e := w.cell.regs.entry f s.entry
  if !w.cell.foldLive f then w
  else if !entryOk w.here.kind w.cell.regs f e then
    (w.raise Codes.configInvalid f s.entry s.iter 0).mapSeq fun q =>
      { q with folds := q.folds.upd .zero f fun s => { s with invalid := true } }
  else if e.waitEn && decide (w.cell.threshold f e s.entry > 0xFFFFFFFF) &&
      !w.cell.fault.reports.any (fun r => r.code == Codes.tallyOverflow && r.fold == f && r.entry == s.entry) then
    w.raise Codes.tallyOverflow f s.entry s.iter e.waitTally
  else w

/-! ### Commits (R44, R46, R115) -/

/-- Raise RANGE_ESCAPE when ESCAPE went from 0 to 1 (R75), and store the word. DESIGN CHOICE (log entry 123): an ACC_FILL that puts ESCAPE back to 0
counts as a clear, so the next escape raises again. -/
def Work.setAcc (w : Work) (n : Nat) (new : Word256) (i : Inflight) : Work :=
  let old := Acc.ofWord (w.cell.accs.get 0 n)
  let w := w.map fun c => { c with accs := c.accs.set 0 n new }
  if !old.escape && (Acc.ofWord new).escape then w.raise Codes.rangeEscape i.fold i.entry i.iter n else w

/-- Put a token in the holding register of its track (R139). -/
def Work.hold (w : Work) (f track : Nat) (payload : Payload) (ctl : BitVec 4) : Work :=
  w.mapFab fun fb =>
    let t : Token := {
      payload := if portControl track then [] else payload, ctl, ctlBad := false, tag := w.cell.regs.routeTag f track, gen := w.cell.regs.gen,
      sideBad := false }
    { fb with hold := fb.hold.set none track (some (f, t)) }

/-- A MEM update that takes effect reaches a MEM operation that has been granted its read of the same 32 bytes and has not issued yet (R99, R115). -/
def Cell.memSeen (c : Cell) (k : CellKind) (addr : Nat) (data : Payload) : Cell :=
  { c with seq := { c.seq with asking := c.seq.asking.map fun a =>
      match (c.regs.entry a.fold (c.seq.folds.get .zero a.fold).entry).d k with
      | .spad g =>
        if c.pointer g = addr then { a with got := a.got.map fun (r : ReadRole × Payload) => if r.1 = .memTarget then (r.1, data) else r } else a
      | _ => a } }

/-- Is a token for a track among the effects that wait past their commit (R139)? -/
def SeqState.tokenWaits (s : SeqState) (track : Nat) : Bool :=
  s.late.any fun i => i.effects.any fun x => match x with | .push t _ _ => t == track | _ => false

/-- Apply one effect of an iteration: a scratchpad write where its slot is granted, a token where its holding register is free. -/
def Work.applyEffect (w : Work) (i : Inflight) : Effect → Work
  | .mac n fmt a b scale => w.setAcc n (macWord (w.cell.accs.get 0 n) fmt a b scale) i
  | .accFill n data =>
    if data.poisoned then
      w.setAcc n ({ (Acc.ofWord (w.cell.accs.get 0 n)) with nan := true } : Acc).toWord i
    else
      let a := Acc.ofNat data.toNat
      if a.fillOk then w.setAcc n a.toWord i else w.raise Codes.configInvalid i.fold i.entry i.iter n
  | .accSet n word => w.setAcc n word i
  | .accClear n => w.map fun c => { c with accs := c.accs.set 0 n (Acc.ofWord (c.accs.get 0 n)).cleared.toWord }
  | .accEscape n =>
    let a := Acc.ofWord (w.cell.accs.get 0 n)
    if a.exact && !a.escape then w.setAcc n a.esc.toWord i else w
  | .predSet v => w.mapSeq fun q => { q with folds := q.folds.upd .zero i.fold fun s => { s with pred := v } }
  | .push track payload ctl => w.hold i.fold track payload ctl
  | .send tag =>
    match w.cell.mesh.out.find? fun o => o.pkt.req == 0 && o.pkt.tag == tag with
    | some o =>
      let pkt := ({ o.pkt with age := w.now % 4, epoch := w.epoch } : Packet).seal
      { (w.mapMesh fun m => { m with out := m.out.map fun o' =>
          if o'.pkt.req = 0 ∧ o'.pkt.tag = tag then { o' with sentAt := w.now, pkt } else o' }) with sends := w.sends ++ [pkt] }
    | none => w
  | .dmaIssue ch addr data => { w with dma := w.dma ++ [(ch, addr, data)] }
  | .cmpClear t imm =>
    let v := w.cell.tallyAtStart t
    if v = imm then w.clearTally t
    else w.raise (if v < imm then Codes.tallyUnderflow else Codes.tallyOverflow) i.fold i.entry i.iter t
  | .tallyAdd t n => w.addTallyBy t n none i.fold i.entry i.iter
  | .spad addr data mem =>
    let w := w.takeSlot (addr / 64) true
    if mem then (w.write addr data).map fun c => c.memSeen w.here.kind addr data else w.writeChecked addr data i.fold i.entry i.iter

/-- Is the effect a scratchpad write? -/
def Effect.isPad : Effect → Bool
  | .spad _ data _ => !data.isEmpty
  | _ => false

/-- Is the effect a TALLY operation's? -/
def Effect.isTally : Effect → Bool
  | .tallyAdd _ _ => true
  | .cmpClear _ _ => true
  | _ => false

/-- May an effect that has come to its commit be applied: a write where its bank grants it (R113, R115), a token where the holding register of its
track is free and no older token waits for it (R139), any other at once? -/
def Work.mayApply (w : Work) (i : Inflight) : Effect → Bool
  | .spad addr data _ => data.isEmpty || w.grants i.due 5 (addr / 64) true
  | .push track _ _ => (w.cell.fab.hold.get none track).isNone && !w.cell.seq.tokenWaits track
  | _ => true

/-- The signal of an iteration (R44, R46). -/
def Work.applySignal (w : Work) (i : Inflight) : Work :=
  match i.signal with
  | some (t, n) => w.addTallyBy t n none i.fold i.entry i.iter
  | none => w

/-- Apply what may be applied of an iteration past its commit; the rest waits. The signal comes with the last of the scratchpad writes (R115). -/
def Work.finish (w : Work) (i : Inflight) : Work :=
  let r := i.effects.foldl (fun (r : List Effect × Work) x =>
    if r.2.mayApply i x then (r.1, r.2.applyEffect i x) else (r.1 ++ [x], r.2)) ([], w)
  let held := r.1.any Effect.isPad
  let w := if held then r.2 else r.2.applySignal i
  if r.1.isEmpty then w
  else w.mapSeq fun q => { q with late := q.late ++ [{ i with effects := r.1, signal := if held then i.signal else none }] }

/-- A MEM operation's update that takes effect carries every older update of the same 32 bytes with it, by the forwarding of R99: those that are still
to be applied would come too late, since MEM operations execute in issue order (log entry 116). -/
def SeqState.supersede (s : SeqState) (i : Inflight) : SeqState :=
  let hit := fun (a : Nat) => i.effects.any fun x => match x with | .spad b _ true => a == b | _ => false
  let drop := fun (j : Inflight) =>
    if j.start < i.start then { j with effects := j.effects.filter fun x => match x with | .spad a _ true => !hit a | _ => true } else j
  { s with inflight := s.inflight.map drop, late := s.late.map drop }

/-- Commit one iteration (R44): what it does takes effect, or waits for its slots and registers. -/
def Work.commitOne (w : Work) (i : Inflight) : Work := (w.mapSeq fun q => q.supersede i).finish i

/-- Commit every iteration due by the current cycle, in issue order (R44). -/
def Work.commitDue (w : Work) : Work :=
  let due := w.cell.seq.inflight.filter fun i => decide (i.due ≤ w.cell.seq.cycle)
  let w := w.mapSeq fun q => { q with inflight := q.inflight.filter fun i => decide (q.cycle < i.due) }
  due.foldl Work.commitOne w

/-- Whatever is past its commit and may now be applied is, oldest first (R113, R115, R139). -/
def Work.grantLate (w : Work) : Work := w.cell.seq.late.foldl Work.finish (w.mapSeq fun q => { q with late := [] })

/-- The TALLY operations that issued in the cycle act at its end, so that the next cycle's waits see their results (R44): a comparison against the value
at the start of the cycle, and an increment among those of the cycle (R46). Their signals stay in flight for one cycle more. -/
def Work.tallyOps (w : Work) : Work :=
  let ops := w.cell.seq.inflight.flatMap fun i => (i.effects.filter Effect.isTally).map fun x => (i, x)
  let w := w.mapSeq fun q => { q with inflight := q.inflight.map fun i => { i with effects := i.effects.filter fun x => !x.isTally } }
  ops.foldl (fun w e => w.applyEffect e.1 e.2) w

/-! ### What each opcode does (R38) -/

/-- The value a source operand gives: bytes at the entry's width, and the 4 bits of a control token. -/
def Work.sourceValue (w : Work) (f : Nat) (e : Entry) (k : CellKind) (o : Operand) (got : Option Payload) : Payload :=
  let width := e.width k
  match o with
  | .port p =>
    match w.cell.headToken p f with
    | some t => if portControl p then Payload.ofNat width t.ctl.toNat else t.payload
    | none => Payload.ofNat width 0
  | .spad _ => got.getD (Payload.ofNat width 0)
  | .acc n => Payload.ofNat width (w.cell.accs.get 0 n).toNat
  | .tally t => Payload.ofNat width (w.cell.tally t)
  | .imm => Payload.ofNat width e.imm
  | .pred => Payload.ofNat width (w.cell.seq.folds.get .zero f).pred.toNat
  | _ => Payload.ofNat width 0

/-- The effect of writing a token to the destination: a push, or a scratchpad write of an aligned access inside the extent (R36). -/
def Work.putResult (w : Work) (e : Entry) (k : CellKind) (ok : Bool) (f iter : Nat) (v : Payload) : List Effect × Work :=
  match e.d k with
  | .port p => ([.push p v (BitVec.ofNat 4 v.toNat)], w)
  | .spad g =>
    let addr := w.cell.pointer g
    if !ok then ([], w)
    else if accessOk k addr v.length then ([.spad addr v false], w)
    else ([], w.raise Codes.configInvalid f (w.cell.seq.folds.get .zero f).entry iter g)
  | _ => ([], w)

/-- Lane counts of a MEM operation's old and new values (R97): CAS by width, FADD by format. -/
def memUpdate (op fmt : Nat) (old a b : Nat) : Nat :=
  let w := if op = 1 ∨ op = 3 then 64 else 32
  let lo := lanesOf w 32 old
  let la := lanesOf w 32 a
  let lb := lanesOf w 32 b
  ofLanes w ((List.range (256 / w)).map fun i =>
    let o := lo.getD i 0
    let x := la.getD i 0
    if op ≤ 1 then (if o = x then lb.getD i 0 else o)
    else if op = 2 ∧ fmt = 0 then arithLane 0 0 false o x
    else (o + x) % 2 ^ w)

/-- Equal lanes of a line (R98). -/
def ccount (fmt : Nat) (line v : Nat) : Nat :=
  let w := match fmt with | 12 => 4 | 11 => 8 | 13 => 32 | _ => 64
  ((lanesOf w 64 line).filter fun l => l == v % 2 ^ w).length

/-- The 32 bytes a MEM operation finds: the stored bytes with the updates still in flight to them, in issue order (R99). -/
def SeqState.forwarded (s : SeqState) (addr : Nat) (stored : Payload) : Payload :=
  s.pendingEffects.foldl (fun p x => match x with
    | .spad a d true => if a = addr then d else p
    | _ => p) stored

/-- LOOKUP of one token: the checks of R94, then DIRECT (R92) or LINEAR (R93) through the unit's own read port. -/
def Work.lookup (w : Work) (f entry iter : Nat) (e : Entry) (tok : Payload) : Option Payload × Work :=
  let d := (w.cell.pad.lookups.get 0 (e.imm % 16)).toNat
  let base := bits d 0 16
  let n := bits d 16 13
  let linear := bitAt d 29
  if !lookupOk d e.fmt then (none, w.raise Codes.configInvalid f entry iter (e.imm % 16))
  else if tok.poisoned then (some (Payload.poison 32), w)
  else if linear then
    match floatOf e.fmt with
    | none => (none, w)
    | some fl =>
      -- every table entry a lane needs is read, checked and, if poisoned, poisons the token
      let ls := lanesOf (laneWidth e.fmt) 32 tok.toNat
      let need := fun l =>
        match ((fl.decode l).add (FloatFmt.bf16.decode (bits d 32 16)).neg).shift (signedOf 8 (bits d 48 8)) with
        | .nan => []
        | .inf true => [0, 1]
        | .inf false => [n - 2, n - 1]
        | .fin m x =>
          let i := (min (max (floorNum m x) 0) ((n : Int) - 2)).toNat
          [i, i + 1]
      let (bad, w) := ((ls.flatMap need).dedup).foldl (fun (acc : Bool × Work) i =>
        let (p, w) := acc.2.read (base + 4 * i) 4 f entry iter
        (acc.1 || p.poisoned, w)) (false, w)
      if bad then (some (Payload.poison 32), w)
      else
        let entryOf := fun i => (w.cell.stored (base + 4 * i) 4).toNat
        (some (Payload.ofNat 32 (ofLanes (laneWidth e.fmt)
          (ls.map (linearLane fl (bits d 32 16) (signedOf 8 (bits d 48 8)) n entryOf)))), w)
  else
    let ls := lanesOf 8 32 tok.toNat
    let idx := ls.map fun k => min k (n - 1)
    let (bad, w) := idx.dedup.foldl (fun (acc : Bool × Work) i =>
      let (p, w) := acc.2.read (base + i) 1 f entry iter
      (acc.1 || p.poisoned, w)) (false, w)
    if bad then (some (Payload.poison 32), w)
    else (some (Payload.ofNat 32 (ofLanes 8 (idx.map fun i => (w.cell.stored (base + i) 1).toNat))), w)

/-- The fields of a mesh target register (R58). -/
structure MeshTarget where
  dst : Coord
  offset : Nat
  tally : Nat
  tallyEn : Bool
  deriving DecidableEq, Repr

/-- Read MESH_TARGET n (R58). -/
def CellRegs.targetOf (r : CellRegs) (n : Nat) : MeshTarget :=
  let v := (r.meshTarget.get 0 n).toNat
  { dst := { x := bits v 0 10, y := bits v 10 10 }, offset := bits v 20 24, tally := bits v 44 6, tallyEn := bitAt v 50 }

/-- Register a mesh request of the sequencer as outstanding from its issue cycle (R37, R41, R220): tag, SEQ, and the packet without its CRC. DESIGN
CHOICE (log entry 120): a base offset plus i × the payload size beyond 24 bits wraps modulo 2^24. -/
def Work.meshIssue (w : Work) (f : Nat) (e : Entry) (k : CellKind) (iter : Nat) (data : Payload) : List Effect × Work :=
  let n := match e.a k, e.d k with | _, .mesh n => n | .mesh n, _ => n | _, _ => 0
  let t := w.cell.regs.targetOf n
  let width := e.width k
  match w.cell.freeTag 0 w.now with
  | none => ([], w)
  | some tag =>
    let seq := w.cell.mesh.seqBits.get false tag
    let off := (t.offset + iter * width) % 2 ^ 24
    let base : Packet := {
      type := 1, epoch := w.epoch, seq, attempt := 0, age := w.now % 4, dst := t.dst, src := w.here,
      req := 0, tag, offset := off, aux := width, tally := t.tally, tallyEn := t.tallyEn, flock := 0, payload := [], entries := [], crc := 0, left := none }
    let pkt : Packet := match e.op with
      | 0 => { base with payload := data }
      | 1 => { base with type := 2, tally := 0, tallyEn := false }
      | 2 => { base with type := 3, offset := e.imm, aux := 0 }
      | 3 => { base with type := 4, flock := e.imm % 4096, payload := data }
      | _ => { base with
               type := 6, aux := e.mod + 16, payload := data,
               entries := [{ at_ := w.here, req := 0, tag, seq, attempt := 0, byte := 0, len := 0 }] }
    let local_ := match e.op, e.d k with | 1, .spad g => some (w.cell.pointer g) | _, _ => none
    let o : Outstanding := {
      pkt, sentAt := w.now, resent := false, local_, arrival := if e.op = 1 ∧ t.tallyEn then some t.tally else none,
      by_ := { fold := f, entry := (w.cell.seq.folds.get .zero f).entry, iter }, line := 0, acks := 0, drops0 := 0, drops1 := 0, members := none }
    ([.send tag], w.mapMesh fun m => { m with out := m.out ++ [o], seqBits := m.seqBits.set false tag (!seq) })

/-- The signal that a MUSTER_ENTER gives the round it posts (R256). -/
def Entry.roundSignal (e : Entry) (fold entry iter : Nat) : RoundSignal := { tally := e.sigTally, amount := e.sigAmt, by_ := { fold, entry, iter } }

/-- MUSTER_ENTER (R256). -/
def Work.musterEnter (w : Work) (f entry iter : Nat) (e : Entry) : Work :=
  let id := e.imm % 256
  let d : CellMuster := { nextParity := false, pending := [] }
  let part := w.cell.must.parts.get d id
  let flag := w.cell.fault.first.isSome
  if part.pending.length < 2 then
    let new : CellMuster := { nextParity := !part.nextParity, pending := part.pending ++ [e.roundSignal f entry iter] }
    { (w.map fun c => { c with must := { c.must with parts := c.must.parts.set d id new } }) with
      posts := w.posts ++ [(id, part.nextParity, flag)] }
  else
    let o : Overrun := { muster := id, flag, signal := e.roundSignal f entry iter }
    -- the held flag is FAULT_LATCHED, which MUSTER_OVERRUN itself has just set
    (w.raise Codes.musterOverrun f entry iter id).map fun c =>
      { c with must := { c.must with overrun := some { o with flag := c.fault.first.isSome } } }

/-- The poison rule of lane-wise units (R128). -/
def poisonOr (bad : Bool) (width : Nat) (v : Nat) : Payload := if bad then Payload.poison width else Payload.ofNat width v

/-- The local effects of one iteration (R38, R42): what `ok` suppresses is left out (R45). DESIGN CHOICE (log entry 118): an AG_RESET whose predicate is
not met leaves the generators alone, though R45 does not name generators among what is suppressed; (log entry 148) an ACC_FILL whose predicate is not met
checks no reserved bits; (log entry 149) an ACC_OUT whose predicate is not met and whose VALUE lies outside the window pushes the produced NaN of an escape
and, the escape being a suppressed write, raises nothing. -/
def Work.execute (w : Work) (f entry iter : Nat) (e : Entry) (ok : Bool) (got : List (ReadRole × Payload)) : List Effect × Work :=
  let k := w.here.kind
  let width := e.width k
  let find := fun r => (got.find? fun g => g.1 == r).map (·.2)
  let a := w.sourceValue f e k (e.a k) (find .srcA)
  let b := w.sourceValue f e k (e.b k) (find .srcB)
  let scale := find .scale
  let sw := match scale with | some s => s.toNat | none => 0
  let scaleBad := match scale with | some s => s.poisoned | none => false
  let only := fun (l : List Effect) => if ok then l else []
  let put := fun (v : Payload) => w.putResult e k ok f iter v
  match e.cls, e.op with
  | 0, 2 => (only [.predSet (BitVec.ofNat 4 a.toNat)], w)
  | 0, 3 => (only [.predSet (BitVec.ofNat 4 e.imm)], w)
  | 0, 4 => ([], if ok then w.map fun c => ((List.range 16).filter (bitAt e.imm)).foldl Cell.resetAg c else w)
  | 0, 5 => ([], w.musterEnter f entry iter e)
  | 0, _ => ([], w)
  | 1, 0 => put a
  | 1, 1 => put (poisonOr (a.poisoned || scaleBad) width
      (convertToken e.fmt (bits e.imm 0 4) (bits e.imm 8 3) (bitAt e.mod 2) sw width a.toNat))
  | 1, _ => put (Payload.ofNat width 0)
  | 2, 0 =>
    match e.d k with
    | .acc n =>
      if orderedOnly e.fmt && (Acc.ofWord (w.cell.accs.get 0 n)).exact then
        ([], w.raise Codes.configInvalid f entry iter n)
      else (only [.mac n e.fmt a b scale], w)
    | _ => ([], w)
  | 2, 1 =>
    match e.a k with
    | .acc n =>
      let acc := Acc.ofWord (w.cell.accs.get 0 n)
      let t := acc.tested
      let (fx, w) := put (Payload.ofNat width (t.output e.fmt (bitAt e.mod 1)))
      (fx ++ (if t.escape && !acc.escape then only [.accEscape n] else []) ++ (if bitAt e.mod 2 then only [.accClear n] else []), w)
    | _ => ([], w)
  | 2, 2 =>
    match e.a k with
    | .acc n => put (Payload.ofNat 32 (w.cell.accs.get 0 n).toNat)
    | _ => ([], w)
  | 2, 3 => (match e.d k with | .acc n => only [.accFill n a] | _ => [], w)
  | 2, _ => (match e.d k with | .acc n => only [.accSet n (anchorWord e.imm (bitAt e.mod 3))] | _ => [], w)
  | 3, 8 | 3, 9 =>
    let r := !a.poisoned && !b.poisoned && cmpLanes (e.op == 8) e.fmt a.toNat b.toNat
    let v : Nat := if r then 2 ^ (e.imm % 4) else 0
    if e.d k == .pred then (only [.predSet (BitVec.ofNat 4 v)], w) else put (Payload.ofNat 4 v)
  | 3, op => put (poisonOr (a.poisoned || b.poisoned) width (vectorToken op e.fmt (bitAt e.mod 2) width a.toNat b.toNat))
  | 4, 13 =>
    match w.lookup f entry iter e a with
    | (some v, w) => w.putResult e k ok f iter v
    | (none, w) =>
      match e.d k with
      | .port p => ([.push p (Payload.ofNat 32 0) 0], w)
      | _ => ([], w)
  | 4, 11 => put (poisonOr a.poisoned 32 (sortToken e.fmt (bitAt e.imm 0) a.toNat))
  | 4, 12 => put (poisonOr a.poisoned 32 (topkToken e.fmt (bits e.imm 0 8) (bitAt e.imm 8) a.toNat))
  | 4, op => put (poisonOr a.poisoned 32 (funcToken op e.fmt a.toNat))
  | 5, 4 => put (poisonOr (a.poisoned || b.poisoned) 32 (ccount e.fmt a.toNat b.toNat))
  | 5, 5 => ([.dmaIssue (e.imm % 4) (match e.a k with | .spad g => w.cell.pointer g | _ => 0) a], w)
  | 5, op =>
    match e.d k with
    | .spad g =>
      let addr := w.cell.pointer g
      let inRing := (w.cell.channelAt addr).isSome
      if !accessOk k addr 32 || inRing then
        -- the operation is not performed; the old values it would have found are not stated
        let w := if inRing then w.raise Codes.configInvalid f entry iter g else w
        ([], w)
      else
        let old := w.cell.seq.forwarded addr ((find .memTarget).getD (Payload.ofNat 32 0))
        let bad := old.poisoned || a.poisoned || (b.poisoned && decide (op ≤ 1))
        let new := poisonOr bad 32 (memUpdate op e.fmt old.toNat a.toNat b.toNat)
        let back : List Effect × Work := match e.oldAg with
          | some o =>
            let oa := w.cell.pointer o
            if !accessOk k oa 32 then ([], w.raise Codes.configInvalid f entry iter o)
            else if (w.cell.channelAt oa).isSome then ([], w.raise Codes.configInvalid f entry iter o)
            else ([.spad oa old false], w)
          | none => ([], w)
        ([.spad addr new true] ++ back.1, back.2)
    | _ => ([], w)
  | 6, _ => w.meshIssue f e k iter a
  | 7, 0 => (match e.d k with | .tally t => only [.tallyAdd t e.imm] | _ => [], w)
  | 7, _ => (match e.d k with | .tally t => only [.cmpClear t e.imm] | _ => [], w)
  | _, _ => ([], w)

/-! ### Issue (R42, R43, R45, R47, R51, R145) -/

/-- Is the predicate of an iteration met (R45)? -/
def predMet (e : Entry) (pred : BitVec 4) : Bool :=
  match e.predSrc with
  | 1 => pred.getLsbD e.predBit
  | 2 => !pred.getLsbD e.predBit
  | _ => true

/-- Pop the head token of a slice and return its credit (R42, R141). -/
def Work.pop (w : Work) (f p : Nat) : Work :=
  match takeFirst (fun (t : Token) => t.gen == w.cell.regs.gen) (w.cell.fab.slices.get [] (8 * p + f)) with
  | some (_, rest) =>
    { (w.mapFab fun fb => { fb with slices := fb.slices.set [] (8 * p + f) rest }) with popped := w.popped ++ [(p, f)] }
  | none => w

/-- PASS and the port-count check of a fold end, then the finishing check (R51, R145). -/
def Work.foldEnd (w : Work) (f entry iter : Nat) : Work :=
  let s := w.cell.seq.folds.get .zero f
  let r := w.cell.regs
  let mismatch := (List.range 56).any fun p =>
    w.cell.seq.pops.get 0 (56 * f + p) != r.popsOf f p || w.cell.seq.pushes.get 0 (56 * f + p) != r.pushesOf f p
  let pass := satAdd 0xFFFFFFFF s.pass 1
  let done := decide (pass ≥ r.passes f)
  let w1 := w.mapSeq fun q => { q with
    folds := q.folds.set .zero f { s with pass, finished := done },
    pops := q.pops.keep fun i _ => i / 56 != f,
    pushes := q.pushes.keep fun i _ => i / 56 != f }
  let w2 := if s.pass ≥ 0xFFFFFFFF then w1.raise Codes.tallyOverflow f entry iter 0 else w1
  let w3 := if mismatch then w2.raise Codes.rateMismatch f entry iter 0 else w2
  let left := (List.range 56).any fun p => decide (0 < r.popsOf f p) && (w3.cell.headToken p f).isSome
  if done && left then w3.raise Codes.rateMismatch f entry iter 1 else w3

/-- Move to the next entry, ending the pass at a FOLD_END (R42). -/
def Work.advance (w : Work) (f : Nat) (e : Entry) (entry iter : Nat) : Work :=
  let w := if e.foldEnd then w.foldEnd f entry iter else w
  let next := if e.foldEnd then w.cell.regs.startOf f else e.next
  w.mapSeq fun q => { q with folds := q.folds.upd .zero f fun s => { s with entry := next, iter := 0 } }

/-- What an issued iteration books beside its effects: heads popped, generators advanced, the credit taken, DONE counted, the effects put in
flight until their commit, and the move to the next iteration or entry (R42–R44, R47, R51). DESIGN CHOICE (log entry 121): where SRC_A and SRC_B name the
same input port both read its head, one token is enough to fire, and two pops are made as far as tokens go and two are counted. -/
def Work.book (w : Work) (f : Nat) (e : Entry) (s : FoldState) (fx : List Effect) : Work :=
  let k := w.here.kind
  let w := ((e.popPorts k).filter fun p => !p.2).foldl (fun w p => w.pop f p.1) w
  let w := (e.generators k).foldl (fun w g => w.map fun c => c.advanceAg g) w
  let w := match e.pushPort k with
    | some o => w.mapFab fun fb => { fb with credits := fb.credits.upd 0 (8 * o + w.cell.regs.routeTag f o) (· - 1) }
    | none => w
  let d : Nat := w.cell.seq.done.get 0 (32 * f + s.entry)
  let w := if d ≥ 0xFFFFFFFF then w.raise Codes.tallyOverflow f s.entry s.iter 0 else w
  let last := decide (s.iter + 1 = e.rep)
  let signal := if (!e.sigLast || last) && !(e.cls == 0 && e.op == 5) && decide (0 < e.sigAmt) then some (e.sigTally, e.sigAmt) else none
  let fly : Inflight := { start := w.cell.seq.cycle, due := w.cell.seq.cycle + e.latency k, fold := f, entry := s.entry, iter := s.iter, effects := fx, signal }
  let w := w.mapSeq fun q => { q with
    inflight := q.inflight ++ [fly],
    done := q.done.set 0 (32 * f + s.entry) (satAdd 0xFFFFFFFF d 1),
    folds := q.folds.upd .zero f fun s => { s with iter := s.iter + 1, lastIssue := q.cycle },
    funcFree := if e.cls = 4 then q.cycle + e.funcGap else q.funcFree,
    pops := ((e.popPorts k).filter fun p => !p.2).foldl (fun m p => m.upd 0 (56 * f + p.1) (· + 1)) q.pops,
    pushes := match e.pushPort k with | some o => q.pushes.upd 0 (56 * f + o) (· + 1) | none => q.pushes }
  if last then w.advance f e s.entry s.iter else w

/-- Issue one iteration of fold f, with the scratchpad bytes its reads were granted (R42). -/
def Work.issue (w : Work) (f : Nat) (got : List (ReadRole × Payload)) : Work :=
  let s := w.cell.seq.folds.get .zero f
  let e := w.cell.regs.entry f s.entry
  let w := w.mapSeq fun q => { q with stallFrom := w.now, barked := false }
  if e.rep = 0 then
    (w.addTallyBy e.sigTally e.sigAmt none f s.entry s.iter).advance f e s.entry s.iter
  else
    let (fx, w) := w.execute f s.entry s.iter e (predMet e s.pred) got
    w.book f e s fx

/-- Grant the reads an iteration still asks for, as far as the bank slots of this cycle go; reads of one line share a slot (R112–R114). -/
def Work.grantReads (w : Work) (f entry iter since : Nat) : List ReadAsk → List Nat → List (ReadRole × Payload) → List ReadAsk →
    List ReadAsk × List (ReadRole × Payload) × Work
  | [], _, got, left => (left, got, w)
  | r :: rest, lines, got, left =>
    if !accessOk w.here.kind r.addr r.len then
      -- the access is not performed (R36): the bytes it would have given are a free value
      let w := w.raise Codes.configInvalid f entry iter r.addr
      let (v, w) := w.freeBytes r.len
      Work.grantReads w f entry iter since rest lines (got ++ [(r.role, v)]) left
    else if r.role = .memTarget && (w.cell.channelAt r.addr).isSome then
      -- a MEM operation inside a ring is refused before it reads (R120)
      Work.grantReads w f entry iter since rest lines got left
    else
      let line := r.addr / 64
      if decide (line ∈ lines) || w.grants since 5 line false then
        let w := w.takeSlot line false
        let (v, w) := w.read r.addr r.len f entry iter
        Work.grantReads w f entry iter since rest (line :: lines) (got ++ [(r.role, v)]) left
      else Work.grantReads w f entry iter since rest lines got (left ++ [r])

/-- Ask for the reads of fold f's current iteration, or go on asking; issue when all are granted (R114). -/
def Work.ask (w : Work) (a : Asking) : Work × Bool :=
  let s := w.cell.seq.folds.get .zero a.fold
  let (left, got, w) := w.grantReads a.fold s.entry s.iter a.since a.want [] a.got []
  if left.isEmpty then ((w.mapSeq fun q => { q with asking := none }).issue a.fold got, true)
  else (w.mapSeq fun q => { q with asking := some { a with want := left, got } }, false)

/-- First active fold after `cur` that can fire, ascending and wrapping (R49). -/
def Work.nextFold (w : Work) : Option Nat :=
  ((List.range 7).map fun i => (w.cell.seq.cur + 1 + i) % 8).find? fun f => w.canFire f

/-- What a cycle did: the class and opcode issued, a fold switch, or nothing. -/
inductive CycleOutcome | issued (cls op : Nat) | switched | idle
  deriving DecidableEq, Repr

/-- Class and opcode of fold f's current entry. -/
def Cell.currentOp (c : Cell) (f : Nat) : Nat × Nat :=
  let e := c.regs.entry f (c.seq.folds.get .zero f).entry
  (e.cls, e.op)

/-- The scheduling rule of R49 with the read slots of R114. -/
def Work.schedule (w : Work) : Work × CycleOutcome :=
  match w.cell.seq.asking with
  | some a =>
    let op := w.cell.currentOp a.fold
    let (w, issued) := w.ask a
    if issued then (w.mapSeq fun q => { q with run := q.run + 1 }, .issued op.1 op.2) else (w, .idle)
  | none =>
    let w := w.cell.regs.folds.foldl Work.inspectFold w
    let cur := w.cell.seq.cur
    let g := w.nextFold
    if w.canFire cur && (decide (w.cell.seq.run < w.cell.regs.quantum) || g.isNone) then
      let op := w.cell.currentOp cur
      let s := w.cell.seq.folds.get .zero cur
      let e := w.cell.regs.entry cur s.entry
      let want := if e.rep = 0 then [] else e.reads w.here.kind w.cell.pointer
      let (w, issued) := w.ask { fold := cur, since := w.cell.seq.cycle, want, got := [] }
      if issued then (w.mapSeq fun q => { q with run := q.run + 1 }, .issued op.1 op.2) else (w, .idle)
    else match g with
      | some f => (w.mapSeq fun q => { q with cur := f, run := 0 }, .switched)
      | none => (w, .idle)

/-- Tokens the switch holds to send on: in a slice that a route or a unit of its fold consumes, in a unit, or in a holding register (R140). -/
def Cell.switchBusy (c : Cell) : Bool :=
  let unit := fun (u : PairUnit) => !u.data.isEmpty || !u.ctrl.isEmpty || !u.out.isEmpty
  (c.fab.slices.any fun e => !e.2.isEmpty && c.regs.switchTakes (e.1 % 8) (e.1 / 8)) ||
  c.fab.steer.any (fun e => unit e.2) || c.fab.junction.any (fun e => unit e.2) || c.fab.hold.any fun e => e.2.isSome

/-- The cell's clock runs while an active fold can fire, a mesh access is pending, or an operation is in flight in one of its units (R50, R140). -/
def Work.clockRuns (w : Work) : Bool :=
  let q := w.cell.seq
  w.cell.regs.folds.any w.canFire || w.cell.mesh.port.isSome || !w.cell.mesh.windows.isEmpty || !q.inflight.isEmpty || !q.late.isEmpty ||
  q.asking.isSome || decide (q.cycle < q.funcFree) || w.dmaHeld.any (fun n => decide (0 < n)) || w.cell.switchBusy

/-- The cell goes into a cycle: its number, free slots, the tallies as they stand at its start, the drift test, and whether its clock is gated
(R46, R50, R107, R121). -/
def Work.intoCycle (w : Work) (n : Nat) : Work :=
  let w := (w.mapSeq fun q => { q with cycle := n, slots := [], reading := false, arrivals := [], snap := some w.cell.tallies }).driftTest
  w.mapSeq fun q => { q with gated := !w.clockRuns }

/-- A cycle ends: its TALLY operations act, and the next begins. -/
def Work.endCycle (w : Work) : Work :=
  let w := w.tallyOps
  w.intoCycle (w.cell.seq.cycle + 1)

/-- The sequencer's part of a cycle, its commits done (R41, R49): none while it is stopped (R60). -/
def Work.sequence (w : Work) : Work × CycleOutcome := if w.cell.seq.stopped then (w, .idle) else w.schedule

/-- The next commit of the cell: it goes into that cycle (R44). None where nothing is in flight. -/
def Work.nextCommit (w : Work) : Option Work :=
  match w.cell.seq.inflight with
  | [] => none
  | i :: rest =>
    let first := rest.foldl (fun (m : Inflight) j => if j.due < m.due then j else m) i
    let w := if w.cell.seq.cycle < first.due then w.intoCycle first.due else w
    let w := w.mapSeq fun q => { q with inflight := q.inflight.erase first }
    some (w.commitOne first)

/-! ### Step start (R48, R83, R90, R116, R118, R150) and the sheepdog (R59) -/

/-- The accumulators an image gives: anchor and mode per accumulator. -/
def accStart (anchors : SMap Word256) (n : Nat) : Word256 := anchors.get 0 n

/-- What every cell of a region does at the release of the step-start muster, in one cycle (R48, R83, R90, R116, R118, R123, R137, R150, R246, R257). The
latch of the lookup descriptors checks no parity (DESIGN CHOICE, log entry 126). -/
def Work.stepStart (w : Work) (anchors : SMap Word256) : Work :=
  let k := w.here.kind
  let r := w.cell.regs
  let folds := r.folds
  let (chan, bad) := latchChannels k w.cell.pad.bytes r.tallyStepClear.toNat (r.cmpTargets k)
  let look : SMap Reg64 := if k = .f then
      (List.range 16).foldl (fun m n => m.set 0 n (BitVec.ofNat 64 (w.cell.stored (0xFF80 + 8 * n) 8).toNat)) []
    else []
  let w := w.map fun c => { c with
    ag := [],
    tallies := c.tallies.mapVals .zero fun t v => if bitAt r.tallyStepClear.toNat t then { v with value := 0 } else v,
    accs := anchors,
    seq := { c.seq with
      folds := folds.foldl (fun m f => m.set .zero f { FoldState.zero with entry := r.startOf f }) [],
      done := [], cur := folds.headD 0, run := 0, inflight := [], late := [], asking := none, pops := [], pushes := [],
      stallFrom := w.now, barked := false, gated := false, stopped := false, snap := none, slots := [], reading := false, arrivals := [] },
    fault := { c.fault with first := none, dropped := 0 },
    fab := { c.fab with
      linkParity := 0,
      steer := c.fab.steer.mapVals .zero fun _ u => { u with wait := 0, timedOut := false },
      junction := c.fab.junction.mapVals .zero fun _ u => { u with wait := 0, timedOut := false } },
    pad := { c.pad with channels := chan, drifted := [], lookups := look },
    must := CellMusters.reset }
  let w := w.map fun c => (List.range 16).foldl Cell.resetAg c
  let w := w.mapSeq fun q => { q with snap := some w.cell.tallies }
  if bad then w.raiseHere Codes.configInvalid 0 else w

/-- Is the fold mid-pass: away from its FOLD_START entry at iteration 0 (R59)? -/
def Cell.midPass (c : Cell) (f : Nat) : Bool :=
  let s := c.seq.folds.get .zero f
  c.regs.foldActive f && !(s.entry == c.regs.startOf f && s.iter == 0)

/-- Is the fold blocked solely by a wait on an exempt tally (R59)? -/
def Work.exemptWait (w : Work) (f : Nat) : Bool :=
  let c := w.cell
  let s := c.seq.folds.get .zero f
  let e := c.regs.entry f s.entry
  e.waitEn && bitAt c.regs.sheepdogExempt.toNat e.waitTally && !c.waitMet f && c.foldLive f &&
  (e.rep == 0 || w.restOk f e w.here.kind)

/-- Do the sheepdog's conditions hold (R59), issue apart? -/
def Work.stalled (w : Work) : Bool :=
  w.cell.mode == .running && w.cell.regs.folds.any fun f => w.cell.midPass f && !w.exemptWait f

/-- Does the sheepdog count now (R59)? The stall it counts is unbroken since `stallFrom`, which an issue moves on. -/
def Work.watched (w : Work) : Bool := w.stalled && !w.cell.seq.stopped

/-- A moment at which the sheepdog's conditions do not hold: the next stall counts from here (R59). -/
def Work.stallAnew (w : Work) (now : Nat) : Work := w.mapSeq fun q => { q with stallFrom := now, barked := false }

/-- Has every active fold finished, or stopped by an invalid entry, with nothing left in flight (R32, R175)? -/
def Cell.workDone (c : Cell) : Bool :=
  c.regs.folds.all (fun f =>
    let s := c.seq.folds.get .zero f
    s.finished || s.invalid || c.regs.passes f == 0) &&
  c.seq.inflight.isEmpty && c.seq.late.isEmpty && c.seq.asking.isNone

end Sys2Proof.Machine
end

