-- ==== Sys2Proof/Machine/Fabric.lean ====
section
/-!
DEFINITION. The static fabric of one cell (R132–R156): arrival of tokens, credits, the grant pass over the output tracks,
steering units and junctions, and the generation sweep.
-/
namespace Sys2Proof.Machine

/-- Direction of a port or track (R34, R132). -/
def trackDir (o : Nat) : Nat := if o < 8 then o / 2 else if o < 24 then (o - 8) / 4 else (o - 24) / 8

/-- The port across the edge that a track feeds, and the track that feeds a port (R34). -/
def facing (o : Nat) : Nat :=
  let d := oppositeDir (trackDir o)
  if o < 8 then d * 2 + o % 2 else if o < 24 then 8 + d * 4 + (o - 8) % 4 else 24 + d * 8 + (o - 24) % 8

/-! ### Arrival (R52, R53, R133, R140, R153, R155) -/

/-- What a link does to a token on its way: an inverted sideband parity, inverted payload parities (R153). -/
def Token.corrupt (t : Token) (err : TokenErr) : Token :=
  { t with
    sideBad := t.sideBad != err.sideband
    ctlBad := t.ctlBad != (decide (err.flips.length % 2 = 1) && t.payload.isEmpty)
    payload := (t.payload.zip (List.range t.payload.length)).map fun b =>
      if b.2 ∈ err.flips then { b.1 with par := !b.1.par } else b.1 }

/-- A token arrives at input port p (R52, R153, R155). -/
def Work.tokenArrive (w : Work) (p : Nat) (t : Token) : Work :=
  let count := fun (w : Work) =>
    (w.mapFab fun fb => { fb with linkParity := satAdd 0xFFFF fb.linkParity 1 }).raiseHere Codes.parityLink p
  if t.sideBad then count w
  else
    let bad := t.payload.parityError || t.ctlBad
    let w := if bad then count w else w
    let t := if t.payload.parityError then { t with payload := Payload.poison t.payload.length }
             else if t.ctlBad then { t with ctl := 0, ctlBad := false } else t
    if w.cell.fab.sweep && t.gen != w.cell.regs.gen then
      w.mapFab fun fb => { fb with stale := satAdd 0xFFFF fb.stale 1 }
    else if w.cell.regs.slice p t.tag = 0 then w.raiseHere Codes.foldPartition p
    else w.mapFab fun fb => { fb with slices := fb.slices.upd [] (8 * p + t.tag) (· ++ [t]) }

/-- Credits on their way back reach their counters (R141). -/
def FabricState.creditsBack (f : FabricState) : FabricState :=
  { f with
    credits := f.creditWire.foldl (fun m e => m.upd 0 e.1 fun n => min 16 (n + e.2)) f.credits
    creditWire := [] }

/-! ### The grant pass (R138, R139) -/

/-- Tracks of fold f that name input port p. -/
def CellRegs.multicast (r : CellRegs) (f p : Nat) : List Nat :=
  (List.range 56).filter fun o => r.routeKind f o == 1 && r.routeSel f o == p

/-- Is a credit held for a route's tag? -/
def Cell.routeCredit (c : Cell) (f o : Nat) : Bool := decide (0 < c.fab.credits.get 0 (8 * o + c.regs.routeTag f o))

/-- The grant pass in progress: the work, tracks taken, and the tokens sent with their tracks. -/
structure GrantPass where
  work : Work
  taken : List Nat
  sent : List (Nat × Token)
  deriving DecidableEq, Repr

/-- A token leaves on a track with the route's tag, taking a credit unless it was reserved at issue (R136, R141). -/
def GrantPass.send (g : GrantPass) (f o : Nat) (t : Token) (reserved : Bool) : GrantPass :=
  let tag := g.work.cell.regs.routeTag f o
  { g with
    work := if reserved then g.work else g.work.mapFab fun fb => { fb with credits := fb.credits.upd 0 (8 * o + tag) (· - 1) }
    taken := o :: g.taken
    sent := g.sent ++ [(o, { t with tag })] }

/-- Grant one track of fold f, if it has a candidate there (R138, R139). -/
def GrantPass.track (g : GrantPass) (f o : Nat) : GrantPass :=
  let c := g.work.cell
  if o ∈ g.taken then g
  else match c.regs.routeKind f o with
  | 1 =>
    let p := c.regs.routeSel f o
    let group := c.regs.multicast f p
    -- the group is granted whole, at its lowest track
    if group.head? = some o then
      match c.headToken p f with
      | some t =>
        if group.all (fun o' => c.routeCredit f o' && !(o' ∈ g.taken)) then
          group.foldl (fun g o' => g.send f o' t false) { g with work := g.work.pop f p }
        else g
      | none => g
    else g
  | 2 =>
    match c.fab.hold.get none o with
    | some (f', t) =>
      if f' = f then ({ g with work := g.work.mapFab fun fb => { fb with hold := fb.hold.set none o none } }).send f o t true else g
    | none => g
  | 3 =>
    let u := c.regs.routeSel f o
    match (c.fab.steer.get .zero u).out with
    | t :: rest =>
      if (c.regs.steerOf f u).en && c.routeCredit f o then
        ({ g with work := g.work.mapFab fun fb => { fb with steer := fb.steer.upd .zero u fun s => { s with out := rest } } }).send f o t false
      else g
    | [] => g
  | 4 =>
    let j := c.regs.routeSel f o
    match (c.fab.junction.get .zero j).out with
    | t :: rest =>
      if (c.regs.junctionOf f j).1 && c.routeCredit f o then
        ({ g with work := g.work.mapFab fun fb => { fb with junction := fb.junction.upd .zero j fun s => { s with out := rest } } }).send f o t false
      else g
    | [] => g
  | _ => g

/-- Active folds in the order of this cycle's pass (R139). -/
def Cell.passOrder (c : Cell) : List Nat :=
  ((List.range 8).map fun i => (c.fab.passFold + 1 + i) % 8).filter c.regs.foldActive

/-- Take the head of a slice into a unit's queue. -/
def Work.takeInto (w : Work) (f p : Nat) : Option (Token × Work) :=
  match w.cell.headToken p f with
  | some t => some (t, w.pop f p)
  | none => none

/-- Fill the queues of steering unit u (R148): control, then data in strict alternation A, B. -/
def Work.fillSteer (w : Work) (u : Nat) : Work :=
  match w.cell.regs.steerFold u with
  | none => w
  | some f =>
    let cfg := w.cell.regs.steerOf f u
    let add := fun (w : Work) (ctl : Bool) (p : Nat) =>
      match w.takeInto f p with
      | some (t, w) => w.mapFab fun fb => { fb with steer := fb.steer.upd .zero u fun s =>
          if ctl then { s with ctrl := s.ctrl ++ [t] } else { s with data := s.data ++ [t] } }
      | none => w
    let len := fun (w : Work) => (w.cell.fab.steer.get .zero u).data.length
    let w := if (w.cell.fab.steer.get .zero u).ctrl.length < 4 then add w true cfg.ctrlPort else w
    if cfg.mask then (if len w < 4 then add w false cfg.aPort else w)
    else
      let w := if len w < 4 ∧ len w % 2 = 0 then add w false cfg.aPort else w
      if len w < 4 ∧ len w % 2 = 1 then add w false cfg.bPort else w

/-- Fill the queues of junction j: 2 tokens per input (R152). -/
def Work.fillJunction (w : Work) (j : Nat) : Work :=
  match w.cell.regs.junctionFold j with
  | none => w
  | some f =>
    let (_, x, y) := w.cell.regs.junctionOf f j
    let u := w.cell.fab.junction.get .zero j
    let w := if u.data.length < 2 then
        match w.takeInto f x with
        | some (t, w) => w.mapFab fun fb => { fb with junction := fb.junction.upd .zero j fun s => { s with data := s.data ++ [t] } }
        | none => w
      else w
    if u.ctrl.length < 2 then
      match w.takeInto f y with
      | some (t, w) => w.mapFab fun fb => { fb with junction := fb.junction.upd .zero j fun s => { s with ctrl := s.ctrl ++ [t] } }
      | none => w
    else w

/-- Are the heads a unit needs present and alike in tag and generation (R149, R152)? `need` data tokens. -/
def PairUnit.pairs (u : PairUnit) (need : Nat) : Bool :=
  match u.ctrl.head? with
  | none => false
  | some t => decide (need ≤ u.data.length) && (u.data.take need).all fun d => d.tag == t.tag && d.gen == t.gen

/-- Is a head present (R150)? -/
def PairUnit.waiting (u : PairUnit) : Bool := !u.data.isEmpty || !u.ctrl.isEmpty

/-- Data tokens one firing of unit u takes. -/
def CellRegs.steerNeed (r : CellRegs) (u : Nat) : Nat :=
  match r.steerFold u with
  | some f => if (r.steerOf f u).mask then 1 else 2
  | none => 2

/-- Count one cycle of a unit that waits for a reason other than a missing credit (R150). -/
def PairUnit.countWait (need : Nat) (u : PairUnit) : PairUnit :=
  if u.waiting && !u.pairs need then { u with wait := satAdd 0xFFFF u.wait 1 } else u

/-- One switch cycle: the grant pass, the waits, and the units' queues (R138, R139, R148, R150). Answers the tokens sent. -/
def Work.switchCycle (w : Work) : Work × List (Nat × Token) :=
  let order := w.cell.passOrder
  let first : GrantPass := { work := w, taken := [], sent := [] }
  let g := order.foldl (fun (g : GrantPass) f => (List.range 56).foldl (fun (g : GrantPass) o => g.track f o) g) first
  let w := g.work.mapFab fun fb => { fb with
    passFold := order.headD fb.passFold
    steer := fb.steer.mapVals .zero fun u s => s.countWait (g.work.cell.regs.steerNeed u)
    junction := fb.junction.mapVals .zero fun _ s => s.countWait 1 }
  let w := (List.range 4).foldl Work.fillSteer w
  ((List.range 2).foldl Work.fillJunction w, g.sent)

/-! ### Steering units and junctions (R149–R152) -/

/-- The route that carries a unit's output, as its track. DESIGN CHOICE (log entry 151): where two routes of a fold name one unit, of which R149 speaks as having
one output, the lowest track's credit lets it fire, and an output leaves by whichever route is granted first. -/
def CellRegs.unitTrack (r : CellRegs) (f kind sel : Nat) : Option Nat :=
  (List.range 56).find? fun o => r.routeKind f o == kind && r.routeSel f o == sel

/-- Does the output hold a credit beyond those its waiting outputs will take (R149)? -/
def Cell.unitCredit (c : Cell) (f kind sel waiting : Nat) : Bool :=
  match c.regs.unitTrack f kind sel with
  | some o => decide (waiting < c.fab.credits.get 0 (8 * o + c.regs.routeTag f o))
  | none => false

/-- Steering unit u fires, if it can (R149). -/
def Cell.steerFire (c : Cell) (u : Nat) : Option Cell :=
  match c.regs.steerFold u with
  | none => none
  | some f =>
    let cfg := c.regs.steerOf f u
    let s := c.fab.steer.get .zero u
    let need := if cfg.mask then 1 else 2
    if s.pairs need && c.unitCredit f 3 u s.out.length then
      match s.ctrl, s.data with
      | ct :: ctrl, a :: rest =>
        let chooseA := ct.ctl.getLsbD cfg.bit != cfg.polarity
        let out := if chooseA then a
          else if cfg.mask then { a with payload := Payload.ofNat a.payload.length 0, ctl := 0 }
          else rest.headD a
        let new : PairUnit := { data := if cfg.mask then rest else rest.drop 1, ctrl, out := s.out ++ [out], wait := 0, timedOut := s.timedOut }
        some { c with fab := { c.fab with steer := c.fab.steer.set .zero u new } }
      | _, _ => none
    else none

/-- Junction j fires, if it can: the pair combines by R80; poison in, poison out (R152). -/
def Cell.junctionFire (c : Cell) (j : Nat) : Option Cell :=
  match c.regs.junctionFold j with
  | none => none
  | some f =>
    let s := c.fab.junction.get .zero j
    if s.pairs 1 && c.unitCredit f 4 j s.out.length then
      match s.data, s.ctrl with
      | x :: data, y :: ctrl =>
        let out := { x with payload := reducePayload 0 x.payload y.payload }
        let new : PairUnit := { data, ctrl, out := s.out ++ [out], wait := 0, timedOut := s.timedOut }
        some { c with fab := { c.fab with junction := c.fab.junction.set .zero j new } }
      | _, _ => none
    else none

/-- A unit's wait reaches STEER_TIMEOUT (R150, R152): steering units 0–3, junctions as 4 and 5. None where it does not wait or has timed out. -/
def Work.steerTimeout (w : Work) (u : Nat) : Option Work :=
  let limit := w.cell.regs.steerTimeout
  let s := if u < 4 then w.cell.fab.steer.get .zero u else w.cell.fab.junction.get .zero (u - 4)
  let need := if u < 4 then w.cell.regs.steerNeed u else 1
  if s.waiting && !s.pairs need && !s.timedOut then
    let new := { s with wait := max s.wait limit, timedOut := true }
    some ((w.mapFab fun fb =>
      if u < 4 then { fb with steer := fb.steer.set .zero u new }
      else { fb with junction := fb.junction.set .zero (u - 4) new }).raiseHere Codes.steerTimeout u)
  else none

/-! ### The generation sweep (R154–R156) -/

/-- Drop the tokens of another generation from a table of queues, with how many fell. -/
def sweepQueues (gen : Bool) (m : SMap (List Token)) : SMap (List Token) × Nat :=
  (m.mapVals [] fun _ l => l.filter fun t => t.gen == gen,
   (m.map fun e => (e.2.filter fun t => t.gen != gen).length).sum)

/-- Drop old tokens from the units. -/
def sweepUnits (gen : Bool) (m : SMap PairUnit) : SMap PairUnit × Nat :=
  let keep := fun (l : List Token) => l.filter fun t => t.gen == gen
  let lost := fun (l : List Token) => (l.filter fun t => t.gen != gen).length
  (m.mapVals .zero fun _ u => { u with data := keep u.data, ctrl := keep u.ctrl, out := keep u.out },
   (m.map fun e => lost e.2.data + lost e.2.ctrl + lost e.2.out).sum)

/-- Discard every old token the cell holds, wires included, into STALE_COUNT (R154 step 5, R155). -/
def Cell.sweep (c : Cell) : Cell :=
  let g := c.regs.gen
  let (s1, n1) := sweepQueues g c.fab.slices
  let (s2, n2) := sweepQueues g c.fab.wires
  let old := fun (h : Option (Nat × Token)) => h.any fun t => t.2.gen != g
  let s3 := c.fab.hold.mapVals none fun _ h => if old h then none else h
  let n3 := (c.fab.hold.filter fun e => old e.2).length
  let (s4, n4) := sweepUnits g c.fab.steer
  let (s5, n5) := sweepUnits g c.fab.junction
  { c with fab := { c.fab with
      slices := s1, wires := s2, hold := s3, steer := s4, junction := s5,
      stale := satAdd 0xFFFF c.fab.stale (n1 + n2 + n3 + n4 + n5) } }

/-- Step 4 of a reload: STALE_COUNT clears, SWEEP_ACTIVE sets, GEN flips, and the discarding starts (R154). -/
def Cell.startSweep (c : Cell) : Cell :=
  { c with
    regs := { c.regs with cellControl := c.regs.cellControl ^^^ 0x10000 }
    fab := { c.fab with stale := 0, sweep := true } }.sweep

/-- Step 6: the window closes (R150, R154). -/
def Cell.endSweep (c : Cell) : Cell :=
  let c := c.sweep
  { c with fab := { c.fab.waitsCleared with sweep := false, creditWire := [] } }

end Sys2Proof.Machine
end

