-- ==== Sys2Proof/Machine/RunState.lean ====
section
/-!
DEFINITION. The state of regions, commands, musters, vaults and DMA channels (R102–R106, R158–R181, R221–R242, R251–R262, R500).
-/
namespace Sys2Proof.Machine

/-- Region states (R170). -/
inductive RegionMode | empty | loading | loaded | ready | running | aborting | halted
  deriving DecidableEq, Repr

/-- Where a command came from, to answer it: source and SEQ (R172, R173). -/
structure CmdRef where
  src : Source
  seq : Nat
  opcode : Nat
  deriving DecidableEq, Repr

/-- What a LOADING region is being loaded for (R169, R181). -/
inductive LoadKind
  | new
  /-- Reload of a LOADED or HALTED region, QUIESCED or not (R156). -/
  | reload (quiesced : Bool)
  /-- RELOCATE: origin before the move. -/
  | relocate (bx oy : Nat)
  deriving DecidableEq, Repr

/-- A load in progress: the command, its kind, the checked body, the step it starts from, the placement, and what happens next. -/
structure LoadJob where
  cmd : CmdRef
  kind : LoadKind
  body : List Byte
  step : Nat
  bx : Nat
  oy : Nat
  /-- Waiting for the DMA channels to report idle, or for a routing flip to end (R154, R169, R332). -/
  waitIdle : Bool
  /-- The target's cells hold the image (R169 step 5). -/
  installed : Bool
  /-- The generation sweep is open (R154 step 5). -/
  sweeping : Bool
  /-- State the region returns to if the load fails at its target (R181). -/
  back : RegionMode
  deriving DecidableEq, Repr

/-- A step in progress (R175). -/
structure StepRun where
  cmd : CmdRef
  step : Nat
  hostCommit : Bool
  /-- The step-start muster has been released to the cells. -/
  released : Bool
  /-- FLAG of the step-end release that has reached the management complex. -/
  ended : Option Bool
  deriving DecidableEq, Repr

/-- A region (R158–R181, R500), held by its handle. -/
structure Region where
  /-- Region state [07 R170; reset EMPTY (no region)]. -/
  mode : RegionMode
  /-- Origin block BX, BY [07 R158; 7 + 7 bits]. -/
  bx : Nat
  oy : Nat
  /-- WIDTH and HEIGHT in blocks [07 R158; 7 + 7 bits]. -/
  w : Nat
  h : Nat
  /-- The muster list: entry 0 step-start, entry 1 step-end [07 R166]. -/
  musters : List Nat
  /-- The image body in force [07 R160; bytes]. -/
  body : List Byte
  /-- Image digest of the envelope the region was loaded from [19 R451/R457; 256 bits]. -/
  digest : List Byte
  /-- Operator key slot that signed the image, none for a vendor or unsigned image [19 R455]. -/
  slot : Option Nat
  /-- COMMITTED_STEP [07 R178; 32 bits]. -/
  committed : Nat
  /-- The pending step [07 R178]. -/
  pendingStep : Option Nat
  /-- The step in progress. -/
  run : Option StepRun
  /-- HALT commands that wait for the boundary. -/
  halts : List CmdRef
  /-- ABORT commands that wait for the boundary or for referrers. -/
  aborts : List CmdRef
  /-- Code that forced the boundary (R176). -/
  forced : Option Code
  /-- The cell whose fault forced it, if one did (R322). -/
  forcedBy : Option Coord
  /-- Faults that reached the management complex since the step started: code and cell, none for a unit that is no cell (R175, R322). -/
  faults : List (Code × Option Coord)
  /-- A load, reload or relocation in progress. -/
  load : Option LoadJob
  /-- START whose sweep is open (R174). -/
  starting : Option CmdRef
  /-- Released by ABORT, waiting for running referrers (R500). -/
  releasing : Bool
  /-- Peer-lost [07 R500; 1 bit]. -/
  peerLost : Bool
  /-- A STEP held until a PEER rewrite is done (R181). -/
  heldStep : Option HcpMsg
  /-- Regions whose placement changed and whose PEER words this region has still to take (R181). -/
  peersMoved : List Nat
  /-- Its flocks with their members as last resolved, the root first [08 R209, 07 R500]. -/
  trees : List (Nat × List Coord)
  /-- Cells suspect for the cell check after a boundary [13 R322]. -/
  suspects : List Coord
  deriving DecidableEq, Repr

/-- A command whose SEQ is kept: its completion once sent (R173). -/
structure CmdRecord where
  seq : Nat
  done : Option (List Byte)
  deriving DecidableEq, Repr

/-- A LOAD whose envelope is still arriving (R173). -/
structure PendingLoad where
  cmd : CmdRef
  msg : HcpMsg
  /-- Received pieces of the envelope: offset and bytes. -/
  pieces : List (Nat × List Byte)
  /-- Microsecond of the last LOAD_DATA. -/
  last : Nat
  deriving DecidableEq, Repr

/-- The HCP endpoint (R172, R173). -/
structure HcpState where
  /-- The last 64 commands of each source [07 R173]. -/
  records : List (Source × List CmdRecord)
  /-- Envelopes that are arriving [07 R173]. -/
  loads : List PendingLoad
  /-- Commands that wait for the previous one of their region [07 R171]. -/
  waiting : List HcpMsg
  deriving DecidableEq, Repr

/-- A muster object (R251–R262), by its number. Tree nodes are numbered: block nodes 0–8,159 (120 f + 12 ky + kx), field roots 10,000 + f, row
nodes 11,000 + r, the apex 12,000 (R253). -/
structure Muster where
  /-- REGION: handle of the holding region [10 R261; 16 bits; reset 0]. -/
  region : Nat
  /-- Keys of the cells that participate; PARTICIPANTS is their number [10 R251/R261; 20 bits; reset 0]. -/
  cells : List Nat
  /-- TOP: 0 block node, 1 field root, 2 row node, 3 apex [10 R261; 2 bits; reset 0]. -/
  top : Nat
  /-- Ring unit arrivals that the apex counts beside the cells' [12 R307]. -/
  units : Nat
  /-- Engine ids of the members of a linked muster, empty when unlinked [10 R252]. -/
  members : List Nat
  /-- The two counters of each node [10 R253; reset 0]. -/
  counts : SMap (Nat × Nat)
  /-- The OR of the flags each node has counted, by parity [10 R255; reset false]. -/
  flags : SMap (Bool × Bool)
  /-- Completions on their way: the node each reaches next, its parity and its flag [10 R255]. -/
  transit : List (Nat × Bool × Bool)
  /-- ARRIVED_0 and ARRIVED_1: arrivals of cells counted and not yet released [10 R261; 2 × 20 bits; reset 0]. -/
  arrived : Nat × Nat
  /-- Releases on their way to a cell: cell key, in order [10 R255, R257]. -/
  releases : List Nat
  /-- ROUNDS [10 R261; 32 bits; reset 0]. -/
  rounds : Nat
  /-- OLDEST_PARITY [10 R261; 1 bit; reset 0]. -/
  oldest : Bool
  /-- LAST_FLAG [10 R261; 1 bit; reset 0]. -/
  lastFlag : Bool
  /-- A round completed at this engine's apex that waits for the linked release: parity, FLAG, and the microsecond of the last MUSTER_ARRIVE [10 R259, 11 R295]. -/
  waiting : Option (Bool × Bool × Nat)
  /-- The leader's count: engine id, parity, FLAG and REFCLK cycle stamp of each arrival of the rounds in progress [10 R259, R260]. -/
  linked : List (Nat × Bool × Bool × Nat)
  /-- Member skews of the last released round in nanoseconds [10 R260/R262; 32 bits]. -/
  skews : SMap Nat
  /-- The last release per parity: FLAG, SLOWEST, MAX_SKEW [10 R259, R260]. -/
  lastRelease : SMap (Bool × Nat × Nat)
  /-- Engines that the leader counted in the last released round of each parity [11 R295]. -/
  counted : SMap (List Nat)
  deriving DecidableEq, Repr

/-- Where a DMA line stands: its read is out, its data have arrived, its write is out, or it is done. -/
inductive LinePhase | reading | arrived | writing | done
  deriving DecidableEq, Repr

/-- A line of a DMA descriptor in progress (R240, R241). -/
structure DmaLine where
  index : Nat
  phase : LinePhase
  /-- Data read, waiting to be written. -/
  data  : Payload
  status : Code
  /-- Members a FLOCK line that failed had delivered (R212). -/
  detail : Nat
  deriving DecidableEq, Repr

/-- An access of a DMA channel to the scratchpad of its own cell (R111). -/
inductive PadAccess | lineRead | lineWrite | status
  deriving DecidableEq, Repr

/-- The access a channel waits to make for its bank slot: the core cycle in which it was first asked for, the line, and which access it is (R113). -/
structure SlotAsk where
  since  : Nat
  line   : Nat
  access : PadAccess
  deriving DecidableEq, Repr

/-- A DMA descriptor in its channel (R102–R105, R239–R242). -/
structure DmaDesc where
  /-- Scratchpad address it was issued from (R104). -/
  addr : Nat
  /-- The 256-bit copy (R239). -/
  word : Word256
  /-- Poisoned or invalid: completes with CONFIG_INVALID and moves nothing (R128, R242). -/
  invalid : Bool
  started : Bool
  /-- Serial number on its channel of its line 0. -/
  base : Nat
  /-- Next line to request. -/
  next : Nat
  /-- Lines in progress. -/
  lines : List DmaLine
  /-- Lowest-numbered failed line, its status, and what a flock line had delivered (R212, R241). -/
  failed : Option (Nat × Code × Nat)
  /-- Stream record its record was PUT to (R283). -/
  placed : Option Nat
  /-- That PUT has been acknowledged (R283). -/
  recorded : Bool
  deriving DecidableEq, Repr

/-- A DMA channel of an M-cell (R102, R103). -/
structure DmaChannel where
  /-- Descriptor queue [04 R102; 4 × 256 bits; reset empty]. -/
  queue : List DmaDesc
  /-- The channel waits for a Relend tag [04 R103; reset false]. -/
  stalled : Bool
  /-- Lines that started descriptors of the channel have been given serial numbers for. -/
  serial : Nat
  /-- Stream record the next descriptor uses [11 R283; 1 bit; reset 0]. -/
  record : Bool
  /-- The region of the cell was aborted: unstarted descriptors are dropped [04 R105; reset false]. -/
  aborted : Bool
  /-- The access to its own scratchpad that the channel waits to make [05 R113; reset none]. -/
  asking : Option SlotAsk
  deriving DecidableEq, Repr

/-- STATE of a stored line (R226). -/
inductive LineState | data | poison | lost | other (b : Byte)
  deriving DecidableEq, Repr

/-- A stored line as a codeword: 64 data bytes, STATE, 8 check bytes (R226). -/
structure LoftLine where
  code : List Byte
  deriving DecidableEq, Repr

/-- Who asked a vault for a line. -/
inductive LoftSource
  /-- A LOFT_RD or LOFT_WR packet (R188). -/
  | mesh (pkt : Packet)
  /-- The channel of the M-cell itself: channel and line (R240). -/
  | channel (ch line : Nat)
  deriving DecidableEq, Repr

/-- A line request in a vault's queue (R222). -/
structure LoftRequest where
  src : LoftSource
  line : Nat
  /-- Data to write, none for a read. -/
  write : Option Payload
  /-- Accepted into the queue (R222). -/
  accepted : Bool
  deriving DecidableEq, Repr

/-- A physical vault (R221–R235), by its physical number. -/
structure Vault where
  /-- Stored lines that differ from the filling line [09 R221/R226; 393,216 × 73 bytes, by line; reset DESIGN CHOICE 0x00 DATA (log entry 2)]. -/
  lines : SMap LoftLine
  /-- What an unlisted line holds: DATA after S6, LOST on a spare being taken over (R233, R237). -/
  fill : LineState
  /-- Queue of 256 line requests [09 R222; reset empty]. -/
  queue : List LoftRequest
  /-- The port last served the mesh, for its alternation [04 R106; reset false]. -/
  lastMesh : Bool
  /-- CORRECTED [09 R235; 16 bits; reset 0]. -/
  corrected : Nat
  /-- UNCORRECTABLE [09 R235; 16 bits; reset 0]. -/
  uncorrectable : Nat
  /-- PORT_PARITY [09 R235; 16 bits; reset 0]. -/
  portParity : Nat
  /-- The physical vault is lost for the session [09 R236; reset false]. -/
  lost : Bool
  /-- It failed its test at S6 [09 R233; reset false]. -/
  failedTest : Bool
  /-- Refreshes performed, per bank [09 R224; reset 0]. -/
  refreshes : SMap Nat
  deriving DecidableEq, Repr

/-- Entry of the vault map (R234): REMAPPED to a physical vault, PENDING or FENCED. -/
inductive VaultEntry | remapped (pv : Nat) | pending | fenced
  deriving DecidableEq, Repr

/-- The loft (R221–R238). -/
structure LoftState where
  vaults : SMap Vault
  /-- The vault map: entries of logical vaults not at their home [09 R234; up to 4,096 × 64 bits; reset empty]. -/
  map : SMap VaultEntry
  /-- Spares assigned, by physical number: logical vault [09 R233]. -/
  assigned : SMap Nat
  /-- Regions that were RUNNING when a logical vault's physical vault was lost and have not left RUNNING since [09 R237; reset none]. -/
  draining : SMap (List Nat)
  deriving DecidableEq, Repr

/-- A muster nobody holds (R261). -/
def Muster.zero : Muster :=
  { region := 0, cells := [], top := 0, units := 0, members := [], counts := [], flags := [], transit := [], arrived := (0, 0), releases := [],
    rounds := 0, oldest := false, lastFlag := false, waiting := none, linked := [], skews := [], lastRelease := [], counted := [] }

/-- An idle DMA channel. -/
def DmaChannel.zero : DmaChannel := { queue := [], stalled := false, serial := 0, record := false, aborted := false, asking := none }

/-- A vault at reset. -/
def Vault.zero : Vault :=
  { lines := [], fill := .data, queue := [], lastMesh := false, corrected := 0, uncorrectable := 0, portParity := 0,
    lost := false, failedTest := false, refreshes := [] }

end Sys2Proof.Machine
end

