-- ==== Sys2Proof/Machine/DefectState.lean ====
section
/-!
DEFINITION. The defect map, the failure bookkeeping and the fallow reservations (R319–R341).
-/
namespace Sys2Proof.Machine

/-- A defect-history record in module flash (R338). -/
inductive HistoryUnit
  | cell (c : Coord) (cause : Nat)
  | vault (pv : Nat)
  | paddock (p : Nat)
  /-- Privileged unit: KIND of R336 and its number. -/
  | unit (kind number : Nat)
  deriving DecidableEq, Repr

/-- Errors counted on an edge network (R325): events in the step and in the session. -/
structure EdgeCount where
  step : Nat
  session : Nat
  deriving DecidableEq, Repr

/-- Where a privileged resource is, when not at home (R336). -/
inductive Place | remapped (physical : Nat) | fenced
  deriving DecidableEq, Repr

/-- Paddock states of R335. -/
inductive PaddockMode | off | powered | tripped | failedS3 | offHub
  deriving DecidableEq, Repr

/-- Changes of a paddock that the defect map does not show yet (R331): the cells that left service with it, the mesh links that went down, the free spare
vaults that left the pool, and whether the flip that will record them has still to begin. -/
structure MapHold where
  paddock : Nat
  cells : List Nat
  links : List Nat
  spares : List Nat
  later : Bool
  deriving DecidableEq, Repr

/-- The defect map and what counts toward it (R319–R341). -/
structure DefectState where
  /-- Cells out of service and their CAUSE, by cell key [13 R321/R334; 4 bits; reset none]; the state is in the cell. -/
  causes : SMap Nat
  /-- Fabric networks marked down, keyed 8 cellKey + 4 south + network [13 R334; reset none]. -/
  fabricDown : List Nat
  /-- Mesh links marked down, keyed 2 cellKey + south [13 R334; reset none]. -/
  meshDown : List Nat
  /-- Edges on which a spare track or wire is in use, keyed 2 cellKey + south [13 R334; reset none]. -/
  spareUsed : List Nat
  /-- PARITY_LINK counts per edge network, keyed as fabricDown [13 R325; reset 0]. -/
  fabricCount : SMap EdgeCount
  /-- Headers dropped per mesh link, keyed as meshDown [13 R325; reset 0]. -/
  headerCount : SMap Nat
  /-- FABRIC_STEP_LIMIT 0x7011:01 [13 R325; 16 bits; reset 2]. -/
  stepLimit : Nat
  /-- FABRIC_SESSION_LIMIT 0x7011:02 [13 R325; 16 bits; reset 8]. -/
  sessionLimit : Nat
  /-- MESH_HEADER_LIMIT 0x7011:03 [13 R325; 16 bits; reset 16]. -/
  headerLimit : Nat
  /-- VAULT_UNCORRECTABLE_LIMIT 0x7010:01 [13 R326; 16 bits; reset 4]. -/
  uncorrLimit : Nat
  /-- VAULT_CORRECTED_LIMIT 0x7010:02 [13 R326; 16 bits; reset 4,096]. -/
  corrLimit : Nat
  /-- VAULT_PORT_PARITY_LIMIT 0x7010:03 [13 R326; 16 bits; reset 16]. -/
  portLimit : Nat
  /-- GENERATION [13 R333; 32 bits; reset 0]. -/
  generation : Nat
  /-- Paddock states, RETRIED apart [13 R335; 2 bits each; reset off (unpowered)]. -/
  paddocks : SMap PaddockMode
  /-- Paddocks S3 retried at this bring-up [13 R335; reset none]. -/
  retried : List Nat
  /-- Hub controllers not at home, by logical number [13 R336; reset none]. -/
  hubPlace : SMap Place
  /-- Free spare controllers: West and East half [13 R333; 0–2 each; reset 2]. -/
  hubSpares : Nat × Nat
  /-- Row nodes 0–7 and apex 8 not at home [13 R336; reset none]. -/
  nodePlace : SMap Place
  /-- NODE_SPARES_FREE: West row, East row, apex [13 R333; 3 bits; reset 0b111]. -/
  nodeSpares : Bool × Bool × Bool
  /-- Row nodes and apex (8) that failed and whose place is taken once these regions are at their boundary [13 R254/R320; reset none]. -/
  nodeWaits : List (Nat × List Nat)
  /-- Gateways whose slots moved or have none, by home gateway [13 R336; reset none]. -/
  gatePlace : SMap Place
  /-- Block nodes that failed, by block number 120 f + 12 ky + kx [13 R321; reset none]. -/
  blockFailed : List Nat
  /-- S6 could not map every logical vault [13 R337; reset false]. -/
  s6Short : Bool
  /-- The defect history in flash: power-cycle count and unit [13 R338; reset PRESUMED empty (log entry 4)]. -/
  history : List (Nat × HistoryUnit)
  /-- Fallow reservations 0x7020:01–40 [13 R340; 64 × 64 bits; reset DESIGN CHOICE 0 (log entry 1)]. -/
  fallow : SMap Reg64
  /-- Heartbeats missed in a row, per hub [13 R327; reset 0]. -/
  misses : SMap Nat
  /-- Logical vaults whose map update is due, each list one update: those of one trip together, any other vault alone [13 R331, R333; reset none]. -/
  vaultsChanging : List (List Nat)
  /-- Those of them that were REMAPPED before, as the map still shows them [13 R331; reset none]. -/
  wasAway : List Nat
  /-- Paddocks off whose first update of the map waits for a routing version, with what it will show [13 R331, R333; reset none]. -/
  unmapped : List MapHold
  deriving DecidableEq, Repr

/-- The defect map at reset. -/
def DefectState.reset : DefectState :=
  { causes := [], fabricDown := [], meshDown := [], spareUsed := [], fabricCount := [], headerCount := [], stepLimit := 2,
    sessionLimit := 8, headerLimit := 16, uncorrLimit := 4, corrLimit := 4096, portLimit := 16, generation := 0, paddocks := [],
    retried := [], hubPlace := [], hubSpares := (2, 2), nodePlace := [], nodeSpares := (true, true, true), nodeWaits := [], gatePlace := [],
    blockFailed := [], s6Short := false, history := [], fallow := [], misses := [], vaultsChanging := [], wasAway := [], unmapped := [] }

end Sys2Proof.Machine
end

