-- ==== Sys2Proof/Machine/RelendState.lean ====
section
/-!
DEFINITION. The state of Relend (R263–R298) and of the collective ring unit (R299–R318).
-/
namespace Sys2Proof.Machine

/-- A Relend frame (R285). -/
structure Frame where
  kind : Nat
  poison : Bool
  hold : Bool
  dst : Nat
  src : Nat
  srcPort : Nat
  hop : Nat
  tag : Nat
  seq : Bool
  attempt : Nat
  /-- LEN: payload bytes, or the bytes a READ asks for. -/
  len : Nat
  addr : Nat
  status : Code
  amount : Nat
  payload : List Byte
  crc : BitVec 32
  deriving DecidableEq, Repr

/-- Port states (R265, R298). -/
inductive PortMode | down | training | up | bypassed | fenced
  deriving DecidableEq, Repr

/-- Who a Relend request belongs to at its engine. -/
inductive RequestOwner
  /-- Line of a stream record: gateway, slot, record, line (R283). -/
  | stream (gateway slot record line : Nat)
  /-- A WRITE of the ring unit: slot, segment, phase 2? (R305). -/
  | ring (slot segment : Nat) (second : Bool)
  deriving DecidableEq, Repr

/-- A tag that is not FREE (R288, R290). -/
inductive TagPhase | sent | accepted | resting
  deriving DecidableEq, Repr

/-- A tag in use. -/
structure TagUse where
  phase : TagPhase
  frame : Frame
  owner : RequestOwner
  /-- Microsecond at which the running timer started. -/
  since : Nat
  resent : Bool
  deriving DecidableEq, Repr

/-- Units of the two credit pools of a link: requests and responses (R266, R272). -/
structure Pools where
  req  : Nat
  resp : Nat
  deriving DecidableEq, Repr

/-- No unit of either pool. -/
def Pools.zero : Pools := { req := 0, resp := 0 }

/-- A unit that a port sent and keeps until it is acknowledged: number, credits returned, frame data (R266, R267). -/
structure SentUnit where
  seq     : Nat
  credits : Pools
  data    : List Byte
  deriving DecidableEq, Repr

/-- A link unit as a port sends it: its lane, its header and its frame data (R266). -/
structure TxUnit where
  /-- SEQ mod 8. -/
  lane : Nat
  seq : Nat
  /-- The last unit received in order. -/
  ack : Nat
  /-- Request and response credits returned. -/
  credits : Pools
  /-- ACK + 1 is to be replayed. -/
  nak : Bool
  /-- The unit carries no frame data. -/
  idle : Bool
  data : List Byte
  deriving DecidableEq, Repr

/-- A Relend port (R263–R268, R288, R298). -/
structure Port where
  /-- STATE [11 R298; 3 bits; reset DOWN; BYPASSED for ports 0–7 while their bypass is closed (R268)]. -/
  mode : PortMode
  /-- SPARE_IN_USE and SPARE_FOR [11 R298; 1 + 4 bits; reset 0]. -/
  spareFor : Option Nat
  /-- Lanes that failed in service and wait for a step boundary [13 R329; reset none]. -/
  laneFailed : List Nat
  /-- A step-end muster has released since its spare lane was trained: the swap is due [13 R320; reset false]. -/
  laneDue : Bool
  /-- Next unit number to send [11 R266; 16 bits; reset 0]. -/
  txSeq : Nat
  /-- Replay buffer: units sent and not acknowledged [11 R267; 1 MiB; reset empty]. -/
  replay : List SentUnit
  /-- Frames that wait for a credit of their pool, as bytes [11 R272; reset empty]. -/
  txHeld : List (List Byte)
  /-- Frames that wait for room or for the link, as bytes [11 R267; reset empty]. -/
  txWait : List (List Byte)
  /-- The first of them has partly left in a unit. -/
  txPart : Bool
  /-- Next unit number expected [11 R267; 16 bits; reset 0]. -/
  rxSeq : Nat
  /-- NAK due: the first missing unit [11 R267; reset none]. -/
  nak : Option Nat
  /-- Units that wait for an earlier one of another lane, in order of their numbers [11 R266; reset none]. -/
  early : List LinkUnit
  /-- Microsecond of the last acknowledgement, or since which units are unacknowledged [11 R267; reset 0]. -/
  ackAt : Nat
  /-- The units that the last sending put on the lanes, in order, with their headers [11 R266; reset none]. -/
  light : List TxUnit
  /-- Frame bytes received and not yet a whole frame [11 R266; reset empty]. -/
  rxBytes : List Byte
  /-- Frames received, in order, waiting to be handled [11 R272/R285; reset none]. -/
  rx : List Frame
  /-- Times of the last replays in microseconds [11 R267; reset none]. -/
  replayTimes : List Nat
  /-- Credits taken by frames sent, which the far side has not returned, in units [11 R266, R272; reset 0]. -/
  txUsed : Pools
  /-- Units that frames received hold here [11 R272, R294; reset 0]. -/
  rxHeld : Pools
  /-- Units given up here whose credits are not yet returned [11 R266; reset 0]. -/
  rxFreed : Pools
  /-- Tags not FREE [11 R288; 4,096; reset none]. -/
  tags : SMap TagUse
  /-- SEQ of each tag [11 R288; reset 0]. -/
  tagSeq : SMap Bool
  /-- Microsecond since which a request waits for a tag of the port [11 R289; reset none]. -/
  tagWait : Option Nat
  /-- CORRECTED_CW, UNCORRECTABLE_CW, REPLAYS, LINK_DOWNS, DROP_CRC, DROP_HOPS, STRAY_RESPONSE, REJECTED, STALL_CYCLES, keyed 0–8 [11 R298; 9 × 32 bits; reset 0]. -/
  counters : SMap Nat
  deriving DecidableEq, Repr

/-- What a mesh request of a gateway is for. -/
inductive GateUse
  /-- Local read or write of a stream line: slot, record, line, write? -/
  | stream (slot record line : Nat) (write : Bool)
  /-- Data access or arrival increment of an inbound request, by its position. -/
  | serve (id : Nat) (arrival : Bool)
  deriving DecidableEq, Repr

/-- A request in hand at a gateway (R292, R293). -/
structure Inbound where
  id : Nat
  /-- Port it came by and its frame. -/
  port : Nat
  frame : Frame
  window : Nat
  /-- Microsecond it was taken in hand, or of the last ACCEPT (R291). -/
  since : Nat
  /-- An ACCEPT has been sent (R291). -/
  told : Bool
  /-- Its data access has been sent (R294). -/
  issued : Bool
  /-- The data access is done: its status and data. -/
  done : Option (Code × Payload)
  /-- Mesh requests not yet acknowledged. -/
  open_ : Nat
  /-- The arrival of a space 0x0 write has been sent. -/
  arrivalSent : Bool
  deriving DecidableEq, Repr

/-- A stored outcome (R293). -/
structure Outcome where
  src : Nat
  port : Nat
  tag : Nat
  seq : Bool
  status : Code
  at_ : Nat
  deriving DecidableEq, Repr

/-- A stream record at its gateway (R283, R284). -/
structure StreamRecord where
  /-- The record as the channel PUT it (R283). -/
  word : Word256
  next : Nat
  lines : List DmaLine
  linesDone : Nat
  failed : Option (Nat × Code × Nat)
  done : Bool
  /-- Microsecond since which it is held at the in-flight bound. -/
  stalledAt : Option Nat
  /-- Changed since the channel's previous poll (R284). -/
  changed : Bool
  /-- A poll that is not answered yet: the microsecond at which it came, and its packet (R284). -/
  polledAt : Option (Nat × Packet)
  /-- Its place among what the gateway was asked: its mesh requests are as old as the record (R294; log entry 130). -/
  id : Nat
  deriving DecidableEq, Repr

/-- A gateway (R280–R284, R292–R294). -/
structure Gateway where
  /-- Stream records, keyed 2 slot + record [11 R281; 16 slots × 2; reset none]. -/
  records : SMap StreamRecord
  /-- Mesh requests outstanding and what each is for [11 R280; 16 tags; reset none]. -/
  out : List (Outstanding × GateUse)
  seqBits : SMap Bool
  resting : SMap Nat
  /-- Inbound requests in hand [11 R292; reset none]. -/
  inbound : List Inbound
  nextId : Nat
  /-- Outcomes of the last 64 writes and increments [11 R293; 64; reset none]. -/
  outcomes : List Outcome
  /-- Time of the last eviction [11 R293; reset none]. -/
  evicted : Option Nat
  /-- The gateway is lost (R282). -/
  lost : Bool
  deriving DecidableEq, Repr

/-- Window states (R276). -/
inductive WindowMode | closed | open_ | closing
  deriving DecidableEq, Repr

/-- A window (R276). -/
structure Window where
  base : Nat
  space : Nat
  read : Bool
  write : Bool
  inc : Bool
  arrivalEn : Bool
  arrivalTally : Nat
  mode : WindowMode
  size : Nat
  arrivalX : Nat
  arrivalY : Nat
  resv : Nat
  accepted : Nat
  rejected : Nat
  /-- Accepted requests whose response is not sent (R278). -/
  busy : Nat
  /-- ODP requests whose CLOSE waits (R278). -/
  closers : List OdpMsg
  deriving DecidableEq, Repr

/-- A member of a pace group as last heard (R296, R408). -/
structure PaceHeard where
  khz : Nat
  reason : Nat
  seq : Nat
  at_ : Nat
  deriving DecidableEq, Repr

/-- Engine-wide Relend configuration (R270–R277, R290, R296). -/
structure RelendState where
  ports : SMap Port
  gateways : SMap Gateway
  /-- Windows 0–4,095 [11 R276; 4,096 × 128 bits + counts; reset 0 (CLOSED)]. -/
  windows : SMap Window
  /-- Route table [11 R271; 4,096 × 32 bits; reset 0]. -/
  routes : SMap (BitVec 32)
  /-- ENGINE_ID 0x6001:01 [11 R270; 16 bits; reset 0]. -/
  engineId : Nat
  /-- ENGINE_ID has been written since the cold bring-up, and S8 has left its wait [11 R270]. -/
  idWritten : Bool
  idLocked : Bool
  /-- Pace group [11 R296; 64 × 16 bits; reset empty]. -/
  paceGroup : List Nat
  /-- PACE_SEQ [11 R296; 16 bits; reset 0]. -/
  paceSeq : Nat
  /-- Microsecond of the last PACE sent [11 R296; reset DESIGN CHOICE 0 (log entry 1)]. -/
  paceAt : Nat
  /-- The engine's point is lowered: last reason sent [11 R296; reset none]. -/
  paceReason : Option Nat
  /-- Newest PACE of each sender [11 R296]. -/
  heard : SMap PaceHeard
  /-- Home gateways whose slots moved to a spare gateway [11 R282; reset none]. -/
  movedGates : SMap Nat
  deriving DecidableEq, Repr

/-- Phase of a ring slot's collective (R304–R307). -/
inductive RingPhase | idle | gathering | reducing | distributing | posted | aborted
  deriving DecidableEq, Repr

/-- A segment the ring unit is sending to its successor (R305, R307). -/
structure RingSend where
  segment : Nat
  /-- Phase 2, else phase 1. -/
  second : Bool
  /-- Lines not yet sent, each with its line number. -/
  rest : List (Nat × Payload)
  /-- WRITEs without their RESPONSE. -/
  open_ : Nat
  /-- The check record has been sent. -/
  record : Bool
  /-- CARRIED of the record. -/
  carried : Nat
  deriving DecidableEq, Repr

/-- A collective in its ring slot (R299–R318), by slot. -/
structure RingSlot where
  /-- Region and index of its collective declaration. -/
  region : Nat
  decl : Nat
  /-- STATE [12 R318; 3 bits; reset IDLE]. -/
  phase : RingPhase
  /-- The step of the last state change [12 R318; 32 bits; reset 0]. -/
  step : Nat
  /-- Segments whose total lies in RESULT. -/
  written : List Nat
  /-- Segments whose phase 1 and phase 2 records were acted on (R309). -/
  first : List Nat
  second : List Nat
  sends : List RingSend
  /-- The first local failure: segment, phase 2?, code [12 R312/R318; reset none]. -/
  failure : Option (Nat × Bool × Code)
  /-- CAUSE [12 R318; 4 bits; reset 0]. -/
  cause : Nat
  /-- SEGMENT and PHASE in hand [12 R318; 10 + 1 bits; reset 0]. -/
  hand : Nat × Bool
  /-- Microsecond at which the deadline timer last restarted (R313). -/
  since : Nat
  /-- FLAG posted with the ring unit's step-end arrival (R307). -/
  postedFlag : Option Bool
  /-- The last step committed or failed: true committed (R318). -/
  outcome : Option Bool
  deriving DecidableEq, Repr

/-- A port at reset (R298). -/
def Port.zero : Port :=
  { mode := .down, spareFor := none, laneFailed := [], laneDue := false, txSeq := 0, replay := [], txHeld := [], txWait := [], txPart := false, rxSeq := 0, nak := none, early := [],
    ackAt := 0, light := [], rxBytes := [], rx := [], replayTimes := [], txUsed := .zero, rxHeld := .zero, rxFreed := .zero, tags := [], tagSeq := [], tagWait := none,
    counters := [] }

/-- A ring slot that holds no declaration. -/
def RingSlot.zero : RingSlot :=
  { region := 0, decl := 0, phase := .idle, step := 0, written := [], first := [], second := [], sends := [], failure := none, cause := 0,
    hand := (0, false), since := 0, postedFlag := none, outcome := none }

/-- A gateway at reset. -/
def Gateway.zero : Gateway :=
  { records := [], out := [], seqBits := [], resting := [], inbound := [], nextId := 0, outcomes := [], evicted := none, lost := false }

/-- A window at reset (R276). -/
def Window.zero : Window :=
  { base := 0, space := 0, read := false, write := false, inc := false, arrivalEn := false, arrivalTally := 0, mode := .closed, size := 0,
    arrivalX := 0, arrivalY := 0, resv := 0, accepted := 0, rejected := 0, busy := 0, closers := [] }

/-- Relend at reset: ring ports bypassed (R268). -/
def RelendState.reset : RelendState :=
  { ports := (List.range 8).map fun p => (p, { Port.zero with mode := .bypassed }), gateways := [], windows := [], routes := [],
    engineId := 0, idWritten := false, idLocked := false, paceGroup := [], paceSeq := 0, paceAt := 0, paceReason := none, heard := [], movedGates := [] }

end Sys2Proof.Machine
end

