-- ==== Sys2Proof/Machine/ManageState.lean ====
section
/-!
DEFINITION. The state of the field hubs, the firmware receivers, the management complex and its flash: broadcasts (R357–R362), bring-up
(R342–R367), clocks (R368–R389), power (R390–R411), the meter as the engine sees it (R412–R425), the object dictionary's server
(R426–R445), security (R446–R457), the event recorder (R458–R468), and the host port with its queue pairs (R476–R489).
-/
namespace Sys2Proof.Machine

/-! ### Broadcast (R357–R362) -/

/-- What a transfer carries: the firmware of a cell kind, or a section of the load of a region (R357). -/
inductive TransferUse
  | firmware (k : CellKind)
  | section_ (handle index : Nat)
  deriving DecidableEq, Repr

/-- A transfer of a field hub (R357–R362). -/
structure Transfer where
  /-- Transfer number [14 R357; 11 bits]. -/
  number : Nat
  use : TransferUse
  /-- The flock its broadcast goes to. -/
  flock : Nat
  /-- The payload in the staging store. -/
  payload : List Byte
  /-- Cell keys of the members still in the transfer. -/
  members : List Nat
  /-- Members found incomplete by the last sweep, with their bitmaps. -/
  missing : List (Nat × Nat)
  /-- Repair rounds sent [14 R362; 0–3]. -/
  round : Nat
  /-- The packets of the round have left the hub port, and the sweep is due. -/
  sent : Bool
  /-- The third sweep is over, or no member is left incomplete. -/
  done : Bool
  deriving DecidableEq, Repr

/-- A chunk being assembled in one of a receiver's two buffers (R359). -/
structure Assembly where
  transfer : Nat
  seq : Nat
  /-- COUNT, LENGTH and CRC of the header packet. -/
  header : Option (Nat × Nat × Nat)
  /-- Data packets present, by PACKET. -/
  data : SMap (List Byte)
  deriving DecidableEq, Repr

/-- The receiver's account of one transfer (R359). -/
structure Reception where
  /-- RECEIVED bitmap: 64 bits. -/
  bitmap : Nat
  /-- ACCEPTED: 7 bits. -/
  accepted : Nat
  /-- COUNT as a header gave it. -/
  count : Nat
  /-- Bytes of the accepted chunks, by SEQ. -/
  chunks : SMap (List Byte)
  deriving DecidableEq, Repr

/-- The firmware receiver of a cell (R359). -/
structure Receiver where
  /-- Assembly buffers, the older first [14 R359; 2 × 4 KiB; reset empty]. -/
  buffers : List Assembly
  /-- RECEIVED and ACCEPTED by transfer [14 R359; reset 0]. -/
  got : SMap Reception
  /-- CRC_FAIL [14 R359; count; reset 0]. -/
  crcFail : Nat
  /-- Posted packets discarded while not EMPTY [14 R359; count; reset 0]. -/
  discards : Nat
  /-- The control store: cell firmware installed [14 R359; bytes; reset none]. -/
  firmware : Option (List Byte)
  deriving DecidableEq, Repr

/-! ### Event recorder (R458–R468) -/

/-- A record's contents before it is packed into 64 bytes (R458). -/
structure Record where
  cycle : Nat
  hours : Nat
  seconds : Nat
  micros : Nat
  type : Nat
  code : Nat
  origin : Nat
  region : Nat
  location : Nat
  seq : Nat
  detail : List Byte
  /-- In the module log: written only in part as the hold-up collapsed, with what stands there instead [20 R464; reset none]. -/
  torn : Option Nat
  deriving DecidableEq, Repr

/-- The ring of a field hub (R462, R465). -/
structure Ring where
  /-- Records, oldest first, each with its flushed mark [20 R462; 1,024 × 64 bytes; reset empty]. -/
  held : List (Record × Bool)
  /-- DROPPED [20 R465; 16 bits; reset 0]. -/
  dropped : Nat
  /-- A flush is due; FLUSHING shows it while the module log takes flushes [20 R463/R465; reset false]. -/
  due : Bool
  /-- SEQ of the hub's next record [20 R458; 32 bits; reset 0]. -/
  seq : Nat
  deriving DecidableEq, Repr

/-- A field hub (R22, R327, R357, R462). -/
structure Hub where
  /-- Transfers in hand, in the order they go [14 R357; reset none]. -/
  transfers : List Transfer
  ring : Ring
  /-- The hub's holding buffer while its ring is frozen [20 R466; 256 records; reset empty]. -/
  holding : List Record
  /-- Records the holding buffer had no room for since the freeze [20 R467; reset 0]. -/
  held : Nat
  /-- Largest number of repair rounds used at S7 [14 R347; reset 0]. -/
  rounds : Nat
  /-- The hub firmware is loaded and its digest matched [14 R349; reset false]. -/
  loaded : Bool
  deriving DecidableEq, Repr

/-- The recorder of the management complex (R458–R468). -/
structure RecorderState where
  /-- The frozen target: 0 the module log, f + 1 the ring of field f; and the microsecond of its last FREEZE [20 R466; reset none]. -/
  frozen : Option (Nat × Nat)
  /-- The management complex's holding buffer [20 R466; 256 records; reset empty]. -/
  holding : List Record
  /-- Records it had no room for since the freeze [20 R467; reset 0]. -/
  missed : Nat
  /-- HOLD_OVERFLOW 0x8010:02 [18 R444; 32 bits; reset 0]. -/
  overflow : Nat
  /-- SEQ of the management complex's next record [20 R458; 32 bits; reset 0]. -/
  seq : Nat
  /-- Operating time in seconds, and microseconds within the second [20 R461; reset 0]. -/
  opSeconds : Nat
  opMicros : Nat
  deriving DecidableEq, Repr

/-! ### Flash and fuses -/

/-- What survives a power session: module flash and fuses. -/
structure FlashState where
  /-- Power-cycle count [14 R348; 32 bits; reset DESIGN CHOICE 0 (log entry 1)]. -/
  powerCycle : Nat
  /-- Operating time saved, in seconds [20 R461; reset DESIGN CHOICE 0 (log entry 1)]. -/
  opSeconds : Nat
  /-- The time was saved at the end of the last session (R464). -/
  savedAtEnd : Bool
  /-- MODULE_LOG, oldest first [20 R465; 4,194,304 × 64 bytes; reset DESIGN CHOICE empty (log entry 1)]. -/
  log : List Record
  /-- LOG_ERASED 0x8001:03 [20 R468; 32 bits; reset 0]. -/
  logErased : Nat
  /-- LOG_CRC_FAIL 0x8001:04 [20 R468; 32 bits; reset 0]. -/
  logCrcFail : Nat
  /-- OPERATOR_KEY slots 1–4 [18 R444; 4 × 1,312 bytes; reset empty]. -/
  keys : SMap (List Byte)
  /-- OWNER_REQUIRED 0x9004:01 [19 R455; 8 bits; reset 0]. -/
  ownerRequired : Bool
  /-- VENDOR_KEY_MIN 0x9003:01, a fused counter [19 R449; 2 bits; reset DESIGN CHOICE 0 (log entry 1)]. -/
  vendorKeyMin : Nat
  /-- Serial number of the meter [17 R423; 64 bits; reset DESIGN CHOICE 0 (log entry 1)]. -/
  meterSerial : Nat
  /-- FAILED_STARTS 0x2010:02 [14 R365; 8 bits; reset 0]. -/
  failedStarts : Nat
  /-- Fault code and stage of the last failed start [14 R363; reset 0]. -/
  failure : Code × Nat
  /-- Report words of the last failed start [14 R346; 9 × 64 bits; reset 0]. -/
  reports : SMap Reg64
  /-- The management image in flash [14 R355; bytes; reset DESIGN CHOICE empty (log entry 1)]. -/
  image : List Byte
  deriving DecidableEq, Repr

/-! ### Bring-up (R342–R367) -/

/-- Bring-up (R342–R367). -/
structure BootState where
  /-- Both 54 V banks are applied [14 R342; reset false]. -/
  powered : Bool
  /-- REFCLK has toggled for 65,536 cycles [14 R343; reset false]. -/
  refclk : Bool
  /-- Report words 0x2000:01–09 by stage [14 R346; 9 × 64 bits; reset 0]. -/
  reports : SMap Reg64
  /-- The stage in hand, 9 once complete [14 R342; reset none]. -/
  stage : Option Nat
  /-- BRINGUP_STATE 0x2010:04 [14 R365; 8 bits; reset 0]. -/
  state : Nat
  /-- MINIMAL_REASON 0x2010:01 [14 R365; 32 bits; reset 0]. -/
  reason : Nat
  /-- Minimal mode is in force [14 R364; reset false]. -/
  minimal : Bool
  /-- A cold bring-up is due at this microsecond, and whether RESTART asked for it [14 R365; reset none]. -/
  restartAt : Option Nat
  /-- Microsecond at which S8 left its wait [14 R354; reset none]. -/
  s8Left : Option Nat
  /-- Microsecond at which the stage in hand began, of S8 at which it left its wait [14 R346; reset 0]. -/
  stageAt : Nat
  /-- S8 has tested the bypasses and begun to train the ports [14 R354; reset false]. -/
  s8Tested : Bool
  /-- REFCLK was lost and has not returned [15 R369; reset false]. -/
  refLost : Bool
  /-- The running management image [14 R355; bytes; reset none]. -/
  running : Option (List Byte)
  /-- A verified replacement image being written to flash, and the request it answers [14 R366; reset none]. -/
  writing : Option (List Byte × OdpMsg)
  /-- Paddocks of each half (false West) that still have their first and second attempt at S3 [14 R350; reset none]. -/
  first : List Nat × List Nat
  second : List Nat × List Nat
  /-- Version 0 of the routing tables is installed [14 R367; reset false]. -/
  routed : Bool
  /-- Bypasses opened at S8, by ring pair [14 R347; reset none]. -/
  bypassOpen : List Nat
  /-- Units lost before the stage in hand began [14 R346; count; reset 0]. -/
  losses : Nat
  deriving DecidableEq, Repr

/-! ### Clocks (R368–R389) -/

/-- One half's roots (R373–R377). -/
structure HalfClock where
  /-- SET_MHZ [15 R387; 13 bits; reset the part's maximum root frequency]. -/
  set : Nat
  /-- CUR_MHZ when the last ramp began or was redirected, and the microsecond of that [15 R374/R387; 13 bits; reset 0]. -/
  from_ : Nat
  at_ : Nat
  /-- SLEWING [15 R387; 1 bit; reset 0]. -/
  slewing : Bool
  /-- CUR_MHZ summed over the gate of the frequency counters in hand, in MHz × µs / 80, and the microsecond up to which [15 R384; reset 0]. -/
  area : Nat
  areaAt : Nat
  /-- A ramp or a spread write falls in that gate, and the greatest SSC_DEPTH in it [15 R376/R384; reset false, 0]. -/
  moved : Bool
  deep : Nat
  /-- SSC_DEPTH [15 R387; 4 bits; reset 0]. -/
  depth : Nat
  /-- SSC_RATE [15 R387; 9 bits; reset 0x13B]. -/
  rate : Nat
  deriving DecidableEq, Repr

/-- What a field domain that changed its source has counted in the gate in hand (R384). -/
structure DomainGate where
  /-- Its root's CUR_MHZ summed over the time it followed the root, in MHz × µs / 80. -/
  root : Nat
  /-- Microseconds on REFCLK direct. -/
  ref : Nat
  /-- The root's sum, and the microsecond, at the last change of source. -/
  mark : Nat
  at_ : Nat
  /-- Changes of source. -/
  times : Nat
  deriving DecidableEq, Repr

/-- Clocks (R368–R389). -/
structure ClockState where
  west : HalfClock
  east : HalfClock
  /-- READY of each field root [15 R387; reset 0]. -/
  ready : List Nat
  /-- LOCK_HELD of each field root; LOCK is set where it is not 0 [15 R387; 17 bits; reset 0]. -/
  held : SMap Nat
  /-- REF_PRESENT [15 R387; 1 bit; reset 0]. -/
  refPresent : Bool
  /-- Microsecond at which a root in service lost lock [15 R383; reset none]. -/
  lostAt : SMap Nat
  /-- Fields whose root has returned and whose domains have not all gone back to it [15 R383; reset none]. -/
  returning : List Nat
  /-- DOMAIN_SELECT SRC (as asked for), keyed 4 f + k [15 R387; 1 bit; reset 0]. -/
  src : SMap Bool
  /-- DOMAIN_SELECT ACTIVE, keyed 4 f + k [15 R387; 1 bit; reset 0]. -/
  active : SMap Bool
  /-- DOMAIN_SELECT PENDING, keyed 4 f + k [15 R387; 1 bit; reset 0]. -/
  pending : List Nat
  /-- FREQ_COUNT KHZ by domain 0–339 [15 R387; 32 bits; reset 0]. -/
  khz : SMap Nat
  /-- FREQ_COUNT GATES [15 R387; 16 bits; reset 0]. -/
  gates : Nat
  /-- Microsecond at which the gate in hand began [15 R384; reset: when REFCLK came]. -/
  gateAt : Nat
  /-- Field domains, keyed 4 f + k, that have changed their source in the gate in hand [15 R384; reset none]. -/
  splits : SMap DomainGate
  /-- Fields whose domains stood still in part of the gate in hand, their root not up [15 R384; reset none]. -/
  stood : List Nat
  /-- Fields whose core and mesh clocks have been stretched in the gate in hand [15 R384, 16 R399; reset none]. -/
  slowed : List Nat
  /-- What the last set-point write was answered: OK, or CONFIG_INVALID [15 R371; 16 bits; reset OK]. -/
  setAnswer : Code
  /-- SINGLE_HALF_CHANGES 0x3010:02 [15 R388; 32 bits; reset 0]. -/
  singleHalf : Nat
  deriving DecidableEq, Repr

/-! ### Power (R390–R411) -/

/-- States of a DVFS sequencer (R396). -/
inductive DvfsState | idle | vRaise | fRampUp | fRampDown | vLower
  deriving DecidableEq, Repr

/-- The DVFS sequencer of one half (R396, R397). -/
structure HalfPower where
  /-- WEST_OP or EAST_OP [16 R410; 8 bits; reset the part's highest point]. -/
  op : Nat
  /-- The point asked for [16 R396; reset the part's highest point]. -/
  target : Nat
  /-- The point the sequence in hand goes to [16 R396]. -/
  toward : Nat
  /-- DVFS_STATE [16 R410; 4 bits; reset IDLE]. -/
  state : DvfsState
  /-- Points below the highest that a measure no longer in force has left the half at, for R404 to restore [16 R391/R401/R407; reset 0]. -/
  hold : Nat
  /-- Points below the highest that the throttle, the emergency and the bank limit in force ask for [16 R391/R407; reset 0]. -/
  throttle : Nat
  hot : Nat
  bank : Nat
  deriving DecidableEq, Repr

/-- A paddock as its hub presents it (R394). -/
structure PaddockRegs where
  /-- VTARGET_MV [16 R394; 12 bits; reset 0]. -/
  vtarget : Nat
  /-- AVS_OFFSET in steps of 2.5 mV [16 R394; 6 bits signed; reset 0]. -/
  avs : Int
  /-- DROOP_MARGIN in steps of 2.5 mV [16 R394; 5 bits; reset 0x10]. -/
  margin : Nat
  /-- EN [16 R394; 1 bit; reset 0]. -/
  en : Bool
  /-- SETTLED [16 R394; 1 bit; reset 0]. -/
  settled : Bool
  /-- Microsecond at which its target was last written [16 R392; reset 0]. -/
  targetAt : Nat
  /-- STRETCHING [16 R394; 1 bit; reset 0]. -/
  stretching : Bool
  /-- VOUT_MV [16 R394; 12 bits; reset 0]. -/
  vout : Nat
  /-- IOUT [16 R394; 12 bits; reset 0]. -/
  iout : Nat
  /-- TJ_C [16 R394; 8 bits; reset 0]. -/
  tj : Nat
  /-- TLOFT_C [16 R394; 8 bits; reset 0]. -/
  tloft : Nat
  /-- TRIP_CAUSE [16 R394; 4 bits; reset 0]. -/
  cause : Nat
  /-- STRETCH_COUNT [16 R394; 32 bits; reset 0]. -/
  stretches : Nat
  /-- Microseconds of the stretches of the last millisecond, oldest first [16 R401; reset none]. -/
  recent : List Nat
  /-- Learned AVS offset by operating point [16 R398; reset factory]. -/
  learned : SMap Int
  /-- The estimate of the last sample in milliwatts [16 R402; reset 0]. -/
  estimate : Nat
  deriving DecidableEq, Repr

/-- The power controller (R390–R411). -/
structure PowerState where
  /-- CAP_W 0x4001:01 [16 R410; 32 bits; reset FUSED_CAP_W]. -/
  capW : Nat
  /-- CAP_WINDOW_S 0x4001:02 [16 R410; 8 bits; reset 8]. -/
  windowS : Nat
  /-- PRIORITY 0x4001:03 [16 R410; 8 bits; reset 0]. -/
  priority : Nat
  /-- OP_FLOOR 0x4001:04 [16 R410; 8 bits; reset 11]. -/
  opFloor : Nat
  /-- RAISE_HOLD_MS 0x4001:05 [16 R410; 16 bits; reset 100]. -/
  raiseHold : Nat
  /-- WEST_BANK_LIMIT_A 0x4002:01 [16 R410; 16 bits; reset 320]. -/
  westLimit : Nat
  /-- EAST_BANK_LIMIT_A 0x4002:02 [16 R410; 16 bits; reset 320]. -/
  eastLimit : Nat
  /-- T_THROTTLE_C 0x4003:01 [16 R410; 8 bits; reset 95]. -/
  tThrottle : Nat
  /-- DROOP_RATE_LIMIT 0x4003:02 [16 R410; 16 bits; reset 1,000]. -/
  droopLimit : Nat
  /-- PACE_FOLLOW 0x4004:01 [16 R410; 8 bits; reset 0]. -/
  follow : Bool
  /-- PACE_SKEW_NS 0x4004:02 [16 R410; 32 bits; reset 20,000]. -/
  skewNs : Nat
  /-- COEFF_TRIM 0x4011:01–0A [16 R410; 10 × 32 bits; reset 0]. -/
  coeffTrim : SMap Int
  /-- LEAK_TRIM 0x4013:01 [16 R410; 272 × 32 bits; reset 0]. -/
  leakTrim : SMap Int
  /-- SCALE 0x4020:01 [16 R410; 32 bits; reset 65,536]. -/
  scale : Nat
  /-- Scaled input energy of each of the last milliseconds, newest first, in nanojoules [16 R404; reset none]. -/
  energy : List Nat
  /-- The engine's own unscaled estimates of the last 1.1 s, newest first: microsecond and input energy in nanojoules [16 R402/R403; reset none]. -/
  samples : List (Nat × Nat)
  /-- Microsecond of the last estimate sample [16 R402; reset 0]. -/
  sampledAt : Nat
  west : HalfPower
  east : HalfPower
  /-- The controller's own choice of point [16 R404/R408; reset the part's highest point]. -/
  own : Nat
  /-- Points a follower holds below its follow point [16 R409; 0–2; reset 0]. -/
  skewSteps : Nat
  /-- Consecutive releases below half of PACE_SKEW_NS [16 R409; reset 0]. -/
  calm : Nat
  /-- DUTY: memory and links in sixteenths [16 R410; 8 + 8 bits; reset 16, 16]. -/
  memDuty : Nat
  linkDuty : Nat
  /-- Milliseconds since the last step down [16 R404; reset 0]. -/
  sinceDown : Nat
  /-- Milliseconds since CAP_EXCEEDED was last recorded [16 R406; reset none]. -/
  exceededAt : Option Nat
  paddocks : SMap PaddockRegs
  /-- Fields whose clocks are stretched by a droop [16 R399; reset none]. -/
  stretched : List Nat
  /-- Every field's clocks are stretched for a bank limit [16 R391; reset false]. -/
  bankStretch : Bool
  /-- Both banks' last 20 µs averages were below 90 % of their limits [16 R391; reset true]. -/
  bankLow : Bool
  /-- Thermal measures last took a step at this microsecond, for both halves and for the West and the East half (R407). -/
  throttleAt : Option Nat
  westHotAt : Option Nat
  eastHotAt : Option Nat
  /-- A throttle is in force until every junction is 3 K below the limit [16 R407; reset false]. -/
  throttling : Bool
  /-- Consecutive scans with a junction or a loft sensor over its OVERTEMP limit [16 R407; reset 0]. -/
  overScans : Nat
  /-- OVERTEMP has switched the paddocks off [16 R407; reset false]. -/
  overtemp : Bool
  /-- Every sensor read below 70 °C at the last scan [16 R407; reset true]. -/
  cool : Bool
  /-- Input energy of the millisecond in progress, in nanojoules, before SCALE [16 R402; reset 0]. -/
  accruing : Nat
  deriving DecidableEq, Repr

/-! ### The meter as the engine sees it (R412–R425) -/

/-- What the management complex holds of the meter's frames (R415–R424). -/
structure MeterState where
  /-- METER_SERIAL 0x5001:01 [17 R424; 64 bits; reset 0]. -/
  serial : Nat
  /-- METER_FW_VERSION 0x5001:02 [17 R424; 32 bits; reset 0]. -/
  version : Nat
  /-- METER_FW_DIGEST 0x5001:03 [17 R424; 32 bytes; reset zeros]. -/
  digest : List Byte
  /-- METER_PUBLIC_KEY 0x5001:04 [17 R424; 1,312 bytes; reset zeros]. -/
  key : List Byte
  /-- METER_STATE 0x5001:05 [17 R424; 8 bits; reset 0x03]. -/
  state : Nat
  /-- LAST_READING 0x5010:01 [17 R424; 64 bytes; reset zeros]. -/
  reading : List Byte
  /-- The last READING that a SIGNATURE may still sign. -/
  candidates : List (List Byte)
  /-- LAST_SIGNED 0x5020:01 [17 R424; 2,484 bytes; reset zeros]. -/
  signed : List Byte
  /-- FRAME_ERRORS 0x5030:01 [17 R424; 32 bits; reset 0]. -/
  frameErrors : Nat
  /-- SEQ_GAPS 0x5030:02 [17 R424; 32 bits; reset 0]. -/
  seqGaps : Nat
  /-- A valid STATUS has arrived in this power session. -/
  gotStatus : Bool
  /-- A valid READING has arrived in this power session. -/
  gotReading : Bool
  /-- Microsecond of the last valid frame. -/
  lastAt : Nat
  /-- METER_SEAL causes recorded in this power session [17 R423; reset none]. -/
  causes : List Nat
  deriving DecidableEq, Repr

/-- What the sealed meter keeps in its own non-volatile memory, as its frames have told (R8, R418, R419). -/
structure MeterBoard where
  /-- Serial number of the board [17 R416; 64 bits; reset DESIGN CHOICE 0 (log entry 1)]. -/
  serial : Nat
  /-- Cumulative registers of the West and the East bank in millijoules [17 R418; 64 bits each; reset DESIGN CHOICE 0 (log entry 1)]. -/
  west : Nat
  east : Nat
  /-- What its last READINGs told of them [17 R418; 64 bits each; reset DESIGN CHOICE 0 (log entry 1)]. -/
  toldWest : Nat
  toldEast : Nat
  /-- SEAL_BROKEN, latched for the life of the board [17 R419; 1 bit; reset DESIGN CHOICE false (log entry 1)]. -/
  sealBroken : Bool
  deriving DecidableEq, Repr

/-! ### The object dictionary's server and security (R426–R457) -/

/-- An ODP response: its header's fields and its payload (R427). -/
structure OdpReply where
  dest : Source
  version : Nat
  op : Nat
  flags : Nat
  seq : Nat
  index : Nat
  subindex : Nat
  type : Nat
  session : Nat
  offset : Nat
  status : Code
  reason : Nat
  access : Nat
  handle : Nat
  total : Nat
  payload : List Byte
  deriving DecidableEq, Repr

/-- A request the server remembers, with its response once sent (R430). -/
structure OdpRecord where
  src : Source
  seq : Nat
  reply : Option OdpReply
  deriving DecidableEq, Repr

/-- A stage (R435). -/
structure Stage where
  handle : Nat
  src : Source
  index : Nat
  subindex : Nat
  session : Nat
  count : Nat
  total : Nat
  /-- Bytes received, in the order they arrived: offset and bytes. -/
  pieces : List (Nat × List Byte)
  /-- Microsecond of its last frame. -/
  at_ : Nat
  deriving DecidableEq, Repr

/-- A snapshot (R433). -/
structure Snapshot where
  handle : Nat
  index : Nat
  subindex : Nat
  value : List Byte
  /-- Microsecond of its last READ. -/
  at_ : Nat
  deriving DecidableEq, Repr

/-- A challenge held for a source (R437). -/
structure Challenge where
  src : Source
  bytes : List Byte
  at_ : Nat
  deriving DecidableEq, Repr

/-- An authenticated session (R437, R438). -/
structure Session where
  number : Nat
  src : Source
  slot : Nat
  challenge : List Byte
  /-- Verified sealed writes. -/
  count : Nat
  /-- Microsecond of the last sealed write or open. -/
  at_ : Nat
  deriving DecidableEq, Repr

/-- The dictionary's server, its settings and its queries (R426–R445). -/
structure OdpState where
  /-- The last 64 requests of each source [18 R430; reset none]. -/
  records : List OdpRecord
  /-- Stages [18 R435; 16; reset none]. -/
  stages : List Stage
  /-- Snapshots [18 R433; 16; reset none]. -/
  snapshots : List Snapshot
  /-- Challenges [18 R437; reset none]. -/
  challenges : List Challenge
  /-- Sessions [18 R437; 4; reset none]. -/
  sessions : List Session
  /-- ODP_DISCARDS 0x1002:03 [18 R444; 32 bits; reset 0]. -/
  discards : Nat
  /-- RELEND_ATTEMPT_US 0x6010:01 [18 R441; 16 bits; reset 10]. -/
  attemptUs : Nat
  /-- RELEND_RESENDS 0x6010:02 [18 R441; 8 bits; reset 4]. -/
  resends : Nat
  /-- RELEND_COMPLETION_US 0x6010:03 [18 R441; 16 bits; reset 20]. -/
  completionUs : Nat
  /-- Last MUSTER_QUERY 0xA011:01 [18 R444; 8 bits; reset DESIGN CHOICE 0 (log entry 1)]. -/
  muster : Nat
  /-- Last TALLY_QUERY 0xA040:01 [18 R445; 20 bits; reset none]. -/
  tally : Option Nat
  /-- LOW_MARK, HIGH_MARK, STOP_MARK and INJECT_GAP of every router: ROUTER_CONTROL [31:0] and ROUTER_MARKS 0xA030:01, one value for all [08 R206; 18 R445; 32 bits; reset 0x08A0_6040]. -/
  marks : Nat
  /-- HOST_IPV6 0x6300:02 [18 R444; 16 bytes; reset zeros]. -/
  ipv6 : List Byte
  /-- HOST_IPV4 0x6300:03 [18 R444; 32 bits; reset 0]. -/
  ipv4 : Nat
  /-- Responses sent, oldest first; the ports carry them away. -/
  sent : List OdpReply
  /-- ATTEST_REPORT 0x9002:02 [19 R456; reset empty]. -/
  report : List Byte
  /-- Nonce writes in arrival order, the first with its report but for the signature, the others with their nonce [19 R456; reset none]. -/
  attesting : List (List Byte × OdpMsg)
  /-- REPORT_SEQ [19 R457; 32 bits; reset 0]. -/
  reportSeq : Nat
  deriving DecidableEq, Repr

/-! ### The host port (R476–R489) -/

/-- STATE of a queue pair (R481). -/
inductive QpMode | reset | rts | error
  deriving DecidableEq, Repr

/-- What a packet of a queue pair waits to be answered with, once every earlier one has been (R482, R483). -/
inductive RdmaUse
  /-- A WRITE packet, or a duplicate of one, which has no data. -/
  | write (data : List Byte)
  /-- A READ request of some lines. -/
  | read (lines : Nat)
  /-- An error: 0 PSN sequence error, 1 Invalid Request, 2 Remote Access Error. -/
  | nak (kind : Nat)
  deriving DecidableEq, Repr

/-- A packet of a queue pair that is not answered yet, its lines in flight (R482). -/
structure RdmaJob where
  psn : Nat
  use : RdmaUse
  /-- The window that admitted it. -/
  window : Option Nat
  /-- Its first loft address. -/
  addr : Nat
  deriving DecidableEq, Repr

/-- A queue pair (R480–R484). -/
structure QueuePair where
  /-- STATE [21 R481; 8 bits; reset RESET]. -/
  mode : QpMode
  /-- FAMILY, PEER_QPN, START_PSN, PEER_ADDR [21 R481; reset zeros]. -/
  family : Nat
  peer : Nat
  start : Nat
  addr : List Byte
  /-- Next PSN expected [21 R481; 24 bits; reset 0]. -/
  psn : Nat
  /-- A WRITE message is in progress: its R_Key and next address [21 R483; reset none]. -/
  message : Option (Nat × Nat)
  /-- Packets not answered yet, in PSN order, their lines in flight [21 R482; reset none]. -/
  jobs : List RdmaJob
  /-- A PSN sequence NAK has been sent and the expected PSN has not arrived [21 R483; reset false]. -/
  naked : Bool
  /-- Reset writes that wait for the lines in flight: the request and the 32 bytes [21 R481; reset none]. -/
  resetting : List (OdpMsg × List Byte)
  /-- Microsecond of the last CNP [21 R484; reset none]. -/
  cnpAt : Option Nat
  deriving DecidableEq, Repr

/-- What the engine sends on a queue pair (R480). -/
inductive RdmaReply
  | ack (qp psn : Nat)
  | nak (qp psn kind : Nat)
  /-- A READ Response, by its BTH opcode: 0x0D First, 0x0E Middle, 0x0F Last, 0x10 Only. -/
  | read (qp psn opcode : Nat) (data : List Byte)
  | cnp (qp : Nat)
  deriving DecidableEq, Repr

/-- An answer to ARP, neighbour discovery or echo: the port, the asker, what was asked, the engine's address, its MAC address, and what an echo carries
back (R476, R479). -/
structure EthAnswer where
  port : MgmtPort
  dest : Source
  kind : EthKind
  addr : Nat
  mac : Nat
  payload : List Byte
  deriving DecidableEq, Repr

/-- The Ethernet ports (R476–R489). -/
structure EthState where
  /-- The receive buffer: datagrams not yet handed to their server [21 R478; 4 MiB; reset empty]. -/
  rx : List EthFrame
  /-- The counters 0x6301:01–07 by subindex [21 R489; 7 × 32 bits; reset 0]. -/
  counters : SMap Nat
  /-- Datagrams that the field-network port discarded [21 R476; count; reset 0]. -/
  fieldDiscards : Nat
  /-- The host link is up [21 R478; reset false]. -/
  up : Bool
  /-- The module in the OSFP cage is powered [21 R477; reset false]. -/
  module_ : Bool
  /-- Queue pairs by number [21 R480; 64; reset RESET]. -/
  qps : SMap QueuePair
  /-- RoCEv2 responses sent, oldest first; the port carries them away. -/
  sent : List RdmaReply
  /-- Answers to ARP, neighbour discovery and echo sent, oldest first; the ports carry them away [21 R476/R479; reset none]. -/
  answers : List EthAnswer
  deriving DecidableEq, Repr

/-! ### Reset values -/

/-- A receiver at reset. -/
def Receiver.zero : Receiver := { buffers := [], got := [], crcFail := 0, discards := 0, firmware := none }

/-- A ring at reset (R465). -/
def Ring.zero : Ring := { held := [], dropped := 0, due := false, seq := 0 }

/-- A hub at reset. -/
def Hub.zero : Hub := { transfers := [], ring := .zero, holding := [], held := 0, rounds := 0, loaded := false }

/-- The recorder at reset. -/
def RecorderState.reset : RecorderState :=
  { frozen := none, holding := [], missed := 0, overflow := 0, seq := 0, opSeconds := 0, opMicros := 0 }

/-- Flash as it left the factory. -/
def FlashState.reset : FlashState :=
  { powerCycle := 0, opSeconds := 0, savedAtEnd := true, log := [], logErased := 0, logCrcFail := 0, keys := [], ownerRequired := false,
    vendorKeyMin := 0, meterSerial := 0, failedStarts := 0, failure := (0, 0), reports := [], image := [] }

/-- Before power. -/
def BootState.reset : BootState :=
  { powered := false, refclk := false, reports := [], stage := none, state := 0, reason := 0, minimal := false, restartAt := none,
    s8Left := none, stageAt := 0, s8Tested := false, refLost := false, running := none, writing := none, first := ([], []), second := ([], []), routed := false, bypassOpen := [], losses := 0 }

/-- A half's roots at reset (R387), `mhz` the part's maximum root frequency. -/
def HalfClock.zero (mhz : Nat) : HalfClock := { set := mhz, from_ := 0, at_ := 0, slewing := false, area := 0, areaAt := 0, moved := false, deep := 0, depth := 0, rate := 0x13B }

/-- Clocks at reset (R387). -/
def ClockState.zero (mhz : Nat) : ClockState :=
  { west := .zero mhz, east := .zero mhz, ready := [], held := [], refPresent := false, lostAt := [], returning := [], src := [], active := [], pending := [], khz := [],
    gates := 0, gateAt := 0, splits := [], stood := [], slowed := [], setAnswer := 0, singleHalf := 0 }

/-- A sequencer at reset (R396), `op` the part's highest point. -/
def HalfPower.zero (op : Nat) : HalfPower := { op, target := op, toward := op, state := .idle, hold := 0, throttle := 0, hot := 0, bank := 0 }

/-- A paddock's registers at reset (R394). -/
def PaddockRegs.zero : PaddockRegs :=
  { vtarget := 0, avs := 0, margin := 0x10, en := false, settled := false, targetAt := 0, stretching := false, vout := 0, iout := 0, tj := 0, tloft := 0,
    cause := 0, stretches := 0, recent := [], learned := [], estimate := 0 }

/-- The power controller at reset (R410). -/
def PowerState.zero (op cap : Nat) : PowerState :=
  { capW := cap, windowS := 8, priority := 0, opFloor := 11, raiseHold := 100, westLimit := 320, eastLimit := 320, tThrottle := 95,
    droopLimit := 1000, follow := false, skewNs := 20000, coeffTrim := [], leakTrim := [], scale := 65536, energy := [], samples := [],
    sampledAt := 0, west := .zero op, east := .zero op, own := op, skewSteps := 0, calm := 0, memDuty := 16, linkDuty := 16, sinceDown := 0,
    exceededAt := none, paddocks := [], stretched := [], bankStretch := false, bankLow := true, throttleAt := none, westHotAt := none, eastHotAt := none,
    throttling := false, overScans := 0, overtemp := false, cool := true, accruing := 0 }

/-- The meter's entries at reset (R424). -/
def MeterState.reset : MeterState :=
  { serial := 0, version := 0, digest := List.replicate 32 0, key := List.replicate 1312 0, state := 3, reading := List.replicate 64 0,
    candidates := [], signed := List.replicate 2484 0, frameErrors := 0, seqGaps := 0, gotStatus := false, gotReading := false, lastAt := 0,
    causes := [] }

/-- The meter board at reset. -/
def MeterBoard.reset : MeterBoard := { serial := 0, west := 0, east := 0, toldWest := 0, toldEast := 0, sealBroken := false }

/-- The dictionary's server at reset. -/
def OdpState.reset : OdpState :=
  { records := [], stages := [], snapshots := [], challenges := [], sessions := [], discards := 0,
    attemptUs := 10, resends := 4, completionUs := 20, muster := 0, tally := none, marks := 0x08A06040,
    ipv6 := List.replicate 16 0, ipv4 := 0, sent := [], report := [], attesting := [], reportSeq := 0 }

/-- A queue pair at reset (R481). -/
def QueuePair.zero : QueuePair :=
  { mode := .reset, family := 0, peer := 0, start := 0, addr := List.replicate 16 0, psn := 0, message := none, jobs := [], naked := false,
    resetting := [], cnpAt := none }

/-- The Ethernet ports at reset. -/
def EthState.reset : EthState :=
  { rx := [], counters := [], fieldDiscards := 0, up := false, module_ := false, qps := [], sent := [], answers := [] }

end Sys2Proof.Machine
end

