-- ==== Sys2Proof/Machine/Router.lean ====
section
/-!
DEFINITION. A mesh router (R182–R184, R198–R217): its buffers and registers, the staircase routing table, the choice of a lane,
throttling, flock and reply branches, and the combining unit.
-/
namespace Sys2Proof.Machine

/-- A router. Ports: 0 N, 1 E, 2 S, 3 W, 4 local, 5 hub, 6 gateway, 7 the combining unit. -/
structure Router where
  /-- Lane buffers of the input ports [08 R183; 5 lanes × 16 flits, keyed 8 port + lane; reset empty]. -/
  lanes : SMap (List Packet)
  /-- Packets delivered through the local port [08 R198; reset none]. -/
  inbox : List Packet
  /-- Responses of REQ 5 delivered to the gateway beside the router [08 R187; reset none]. -/
  gateInbox : List Packet
  /-- Injection state [08 R205; OPEN 0, SLOWED 1, STOPPED 2; reset OPEN]. -/
  state : Nat
  /-- Mesh cycles that the next request waits while the router is SLOWED [08 R205; 8 bits; reset 0]. -/
  gap : Nat
  /-- Counters at hub-bus offsets 0x08–0x48 in order [08 R206; 9 × 32 bits, keyed 0–8; reset 0]. -/
  counters : SMap Nat
  /-- Routing entries that differ from the staircase [08 R199; 2 × 272 × 8 bits, keyed 512 version + paddock; reset computed]. -/
  table : SMap (BitVec 8)
  /-- Directions whose link is marked down [08 R202; reset none]. -/
  down : List Nat
  /-- Flock table [08 R207; 4,096 × 8 bits; reset 0]. -/
  flocks : SMap (BitVec 8)
  /-- Sender table: flock and root [08 R208; 16 entries; reset empty]. -/
  senders : SMap Coord
  /-- Root table: flock and MEMBERS [08 R208; 64 entries; reset empty]. -/
  roots : SMap Nat
  deriving DecidableEq, Repr

/-- A router at reset (R206, R207). -/
def Router.reset : Router :=
  { lanes := [], inbox := [], gateInbox := [], state := 0, gap := 0, counters := [],
    table := [], down := [], flocks := [], senders := [], roots := [] }

/-- Counter numbers of R206. -/
def cThrottle : Nat := 0
def cDropAge : Nat := 1
def cDropDown : Nat := 2
def cDropFenced : Nat := 3
def cHeaderParity : Nat := 4
def cDropCrc : Nat := 5
def cEpochDiscard : Nat := 6
def cCombined : Nat := 7
def cStray : Nat := 8

/-- Count an event, saturating at 32 bits (R206). -/
def Router.count (r : Router) (n k : Nat) : Router := { r with counters := r.counters.upd 0 n fun v => satAdd 0xFFFFFFFF v k }

/-- Flits held in a lane buffer. -/
def Router.flitsIn (r : Router) (port lane : Nat) : Nat := ((r.lanes.get [] (8 * port + lane)).map Packet.flits).sum

/-- Free flits of a network input buffer (R183). -/
def Router.room (r : Router) (port lane : Nat) : Nat := 16 - r.flitsIn port lane

/-- Flits in the request lanes of the network ports (R205). -/
def Router.occupancy (r : Router) : Nat :=
  ((List.range 4).flatMap fun p => [r.flitsIn p 0, r.flitsIn p 2, r.flitsIn p 3]).sum

/-- The injection state after a change of occupancy, under the marks of ROUTER_CONTROL [23:0] (R205, R206). -/
def Router.throttle (r : Router) (marks : Nat) : Router :=
  let n := r.occupancy
  let state :=
    if n ≥ bits marks 16 8 then 2
    else if n < bits marks 0 8 then 0
    else if r.state = 2 then 1
    else if n ≥ bits marks 8 8 then 1
    else r.state
  { r with state }

/-- Put a packet at the end of a buffer. -/
def Router.push (r : Router) (port lane : Nat) (p : Packet) : Router :=
  { r with lanes := r.lanes.upd [] (8 * port + lane) (· ++ [p]) }

/-- Replace the head of a buffer: none removes it. -/
def Router.setHead (r : Router) (port lane : Nat) (p : Option Packet) : Router :=
  { r with lanes := r.lanes.upd [] (8 * port + lane) fun l => p.toList ++ l.drop 1 }

/-- Head of a buffer. -/
def Router.head (r : Router) (port lane : Nat) : Option Packet := (r.lanes.get [] (8 * port + lane)).head?

/-- Lane a packet of the class waits in at a local, hub or gateway port: 0 requests, 1 responses. -/
def Packet.injectLane (p : Packet) : Nat := if p.isRequest then 0 else 1

/-- A packet enters the router at a port that is not a network link. -/
def Router.inject (r : Router) (port : Nat) (p : Packet) : Router := r.push port p.injectLane p

/-- The rectangle of a paddock: x range and y range, upper ends excluded (R17). -/
def paddockRect (p : Nat) : (Nat × Nat) × (Nat × Nat) :=
  let o := fieldOrigin (p / 4)
  let x := o.x + 48 * (p % 2)
  let y := o.y + 40 * (p % 4 / 2)
  ((x, x + 48), (y, y + 40))

/-- Direction along x toward a range, and along y (R33). -/
def xToward (c : Coord) (x0 x1 : Nat) : Option Nat := if c.x < x0 then some 1 else if c.x ≥ x1 then some 3 else none
def yToward (c : Coord) (y0 y1 : Nat) : Option Nat := if c.y < y0 then some 2 else if c.y ≥ y1 then some 0 else none

/-- A routing entry (R199). -/
structure Route where
  mask : Nat
  drove : Nat
  unreachable : Bool
  deriving DecidableEq, Repr

/-- Read the 8-bit entry (R199). -/
def Route.ofBits (b : BitVec 8) : Route :=
  { mask := bits b.toNat 0 4, drove := bits b.toNat 4 2, unreachable := bitAt b.toNat 6 }

/-- The 8-bit entry (R199). -/
def Route.toBits (r : Route) : BitVec 8 := BitVec.ofNat 8 (r.mask % 16 + 16 * (r.drove % 4) + (if r.unreachable then 64 else 0))

/-- The staircase entry of a router for a destination paddock (R199). -/
def staircase (c : Coord) (p : Nat) : Route :=
  let ((x0, x1), (y0, y1)) := paddockRect p
  let live := fun (d : Option Nat) => match d with
    | some d => if (c.neighbour d).isSome then some d else none
    | none => none
  let dx := live (xToward c x0 x1)
  let dy := live (yToward c y0 y1)
  let mask := (match dx with | some d => 2 ^ d | none => 0) + (match dy with | some d => 2 ^ d | none => 0)
  { mask, drove := dx.getD (dy.getD 0), unreachable := false }

/-- The entry of a version for a destination paddock (R199). -/
def Router.route (r : Router) (c : Coord) (version : Bool) (p : Nat) : Route :=
  match r.table.find (512 * (if version then 1 else 0) + p) with
  | some b => Route.ofBits b
  | none => staircase c p

/-- Allowed adaptive directions and the drove direction toward a destination cell (R198). None where the version marks its paddock unreachable. -/
def Router.directions (r : Router) (c : Coord) (version : Bool) (dst : Coord) : Option (List Nat × Option Nat) :=
  if dst.paddock = c.paddock then
    let dx := xToward c dst.x (dst.x + 1)
    let dy := yToward c dst.y (dst.y + 1)
    some (dx.toList ++ dy.toList, dx.orElse fun _ => dy)
  else
    let e := r.route c version dst.paddock
    if e.unreachable then none
    else some ((List.range 4).filter fun d => bitAt e.mask d, some e.drove)

/-- Is the link in a direction alive? -/
def Router.linkUp (r : Router) (c : Coord) (d : Nat) : Bool := (c.neighbour d).isSome && !(d ∈ r.down)

/-- Where a packet goes next. -/
inductive HopChoice
  | deliver
  | move (dir lane : Nat)
  | wait
  | dropDown
  deriving DecidableEq, Repr

/-- Adaptive lanes of a class, and its drove-road lane (R184). -/
def Packet.adaptiveLanes (p : Packet) : List Nat := if p.isRequest then [2, 3] else [4]
def Packet.droveLane (p : Packet) : Nat := if p.isRequest then 0 else 1

/-- X directions before Y on a tie (R198). -/
def dirRank (d : Nat) : Nat := if d = 1 ∨ d = 3 then 0 else 1

/-- The best adaptive hop: most free flits on the lane, X before Y on a tie; `free d l` is the room beyond the link (R198). DESIGN CHOICE (log entry 153): of
two adaptive lanes of one direction with the same room, the request takes the first, which R198 does not settle. -/
def bestAdaptive (dirs lanes : List Nat) (need : Nat) (free : Nat → Nat → Nat) : Option (Nat × Nat) :=
  let cands := (dirs.flatMap fun d => lanes.map fun l => (d, l)).filter fun c => decide (need ≤ free c.1 c.2)
  cands.foldl (fun best c =>
    match best with
    | none => some c
    | some b =>
      if free b.1 b.2 < free c.1 c.2 ∨ (free b.1 b.2 = free c.1 c.2 ∧ dirRank c.1 < dirRank b.1) then some c else some b) none

/-- The routing decision of R198 for a packet toward a cell; `onDrove` keeps it on the drove road. DESIGN CHOICE (log entry 152): a packet of the drove road
whose drove link is down is dropped and counted in DROP_DOWN, though an adaptive link may live; R200 speaks of routers with no live direction at all. -/
def Router.choose (r : Router) (c : Coord) (p : Packet) (dst : Coord) (onDrove : Bool) (free : Nat → Nat → Nat) : HopChoice :=
  if dst = c then .deliver
  else match r.directions c p.epoch dst with
  | none => .dropDown
  | some (dirs, drove) =>
    let live := dirs.filter (r.linkUp c)
    let droveUp := match drove with | some d => r.linkUp c d | none => false
    let toDrove := match drove with
      | some d => if droveUp ∧ p.flits ≤ free d p.droveLane then HopChoice.move d p.droveLane else .wait
      | none => .wait
    if onDrove then (if droveUp then toDrove else .dropDown)
    else if live.isEmpty && !droveUp then .dropDown
    else match bestAdaptive live p.adaptiveLanes p.flits free with
      | some (d, l) => .move d l
      | none => toDrove

/-- Is the buffer a drove-road lane of a network port? -/
def onDroveRoad (port lane : Nat) : Bool := decide (port < 4 ∧ lane < 2)

/-- Do two RED packets at heads combine (R217)? -/
def redFits (a b : Packet) : Bool :=
  a.type == tRed && b.type == tRed && a.dst == b.dst && a.offset == b.offset && a.aux % 16 == b.aux % 16 &&
  a.tally == b.tally && a.tallyEn == b.tallyEn && a.epoch == b.epoch && decide (a.entries.length + b.entries.length ≤ 15) &&
  a.entries.all (fun e => e.attempt == 0) && b.entries.all (fun e => e.attempt == 0) &&
  (a.aux % 16 != 0 || ((Acc.ofNat a.payload.toNat).exact && (Acc.ofNat b.payload.toNat).exact))

/-- The combined packet: SRC is the router, entries concatenated, AGE of the older (R216, R217). -/
def redMerge (c : Coord) (now : Nat) (a b : Packet) : Packet :=
  let n := a.entries.length + b.entries.length
  let older := if (now + 4 - a.age) % 4 ≥ (now + 4 - b.age) % 4 then a.age else b.age
  ({ a with
     src := c, req := 0, tag := 0, seq := false, attempt := 0, age := older, aux := a.aux % 16 + 16 * n,
     payload := reducePayload (a.aux % 16) a.payload b.payload, entries := a.entries ++ b.entries } : Packet).seal

/-- Ports a flock's copy leaves by (R207, R210). -/
def Router.downMask (r : Router) (flock : Nat) : Nat := bits (r.flocks.get 0 flock).toNat 0 5

/-- The FLOCK_DOWN a root turns a FLOCK_UP into (R210). DESIGN CHOICE (log entry 154): EPOCH, which R210 does not name among the fields kept, stays too. -/
def Packet.flockDown (p : Packet) : Packet := ({ p with type := tFlockDown, aux := p.len, left := none } : Packet).seal

end Sys2Proof.Machine
end

