-- ==== Sys2Proof/Machine/State.lean ====
section
/-!
DEFINITION. The state of the engine, the reasons a step can stop, and the state after reset.
-/
namespace Sys2Proof.Machine

/-- Why a command stops. -/
inductive Fault
  /-- Raised by a command that names a unit the engine does not have: a coordinate, field, port, paddock, muster or gateway outside the
  ranges of R13–R18, R251, R263 and R280. Safe: the spec gives no such unit, so no event can be at it. -/
  | noSuchUnit
  deriving DecidableEq, Repr

/-- Why a command has no meaning in the model. -/
inductive Refusal
  /-- Raised by an arm of the dispatch whose command is not modelled yet. Safe: nothing is claimed of it. -/
  | notModelled (mnemonic : String)
  deriving DecidableEq, Repr

/-- The three part numbers (R1). -/
inductive Part | w32 | w26 | w20
  deriving DecidableEq, Repr

/-- The highest operating point of a part (R395). -/
def Part.highest : Part → Nat
  | .w32 => 0
  | .w26 => 2
  | .w20 => 4

/-- The maximum root frequency in MHz (R2). -/
def Part.rootMax : Part → Nat
  | .w32 => 4500
  | .w26 => 4000
  | .w20 => 3400

/-- FUSED_CAP_W (R2, R5). -/
def Part.cap : Part → Nat
  | .w32 => 32000
  | .w26 => 26000
  | .w20 => 20000

/-- Everything the spec gives the engine, and the commands that wait. -/
structure State where
  /-- Commands that wait, first in, first out: the model's own queue. -/
  pending : List Instr
  /-- The microsecond tick [08 R195, 15 R370; count; reset DESIGN CHOICE 0 (log entry 1)]. -/
  clock : Nat
  /-- Serial number of the next free value: the model's own field (log entry 3), reset DESIGN CHOICE 0. -/
  freeIdx : Nat
  /-- The part, a fuse [00 R1; 2 bits; reset DESIGN CHOICE SV7-W32 (log entry 5)]. -/
  part : Part
  /-- Cells by key [01 R19]. -/
  cells : SMap Cell
  /-- Routers by cell key [08 R182]. -/
  routers : SMap Router
  /-- Firmware receivers by cell key [14 R359]. -/
  receivers : SMap Receiver
  /-- DMA channels, keyed 4 × cell key + channel [04 R102]. -/
  dma : SMap DmaChannel
  /-- CUR_EPOCH, FLIP_PENDING, OLD_VALID [08 R202, R206; 3 bits; reset 0]: held once for the engine. -/
  epoch : Bool
  flipPending : Bool
  oldValid : Bool
  /-- Microsecond of the last CUR_EPOCH change [08 R202; reset DESIGN CHOICE 0 (log entry 1)]. -/
  flipAt : Nat
  /-- Microsecond at which FLIP_PENDING set, for the held re-send timers [08 R194; reset DESIGN CHOICE 0 (log entry 1)]. -/
  pendingAt : Nat
  /-- Triggers that the flip in hand includes [08 R202; reset none]. -/
  flipTriggers : Nat
  /-- Paddocks that a version marks UNREACHABLE in every router, keyed 512 version + paddock [08 R199; reset none]. -/
  lostRoutes : List Nat
  /-- Triggers that wait for the next flip [08 R202; reset none]. -/
  flipWaiting : Nat
  /-- Regions by handle [07 R158]. -/
  regions : SMap Region
  hcp : HcpState
  /-- HCP completions sent, oldest first: source and message [07 R172]. -/
  completions : List (Source × List Byte)
  /-- Musters by number [10 R251; 256; reset zeros]. -/
  musters : SMap Muster
  /-- Ring slots [12 R300; 16; reset idle]. -/
  rings : SMap RingSlot
  loft : LoftState
  relend : RelendState
  /-- Field hubs by field [01 R22]. -/
  hubs : SMap Hub
  defects : DefectState
  boot : BootState
  clk : ClockState
  pwr : PowerState
  meter : MeterState
  board : MeterBoard
  odp : OdpState
  recd : RecorderState
  eth : EthState
  flash : FlashState
  deriving DecidableEq, Repr

/-- HCP at reset. -/
def HcpState.reset : HcpState := { records := [], loads := [], waiting := [] }

/-- The loft at reset. -/
def LoftState.reset : LoftState := { vaults := [], map := [], assigned := [], draining := [] }

/-- The engine of a part as every cold bring-up finds it, with the flash, defects and tick it had (R342, R440, R442). -/
def State.fresh (part : Part) (flash : FlashState) (board : MeterBoard) (history : List (Nat × HistoryUnit)) (clock freeIdx : Nat) (pending : List Instr) : State :=
  { pending, clock, freeIdx, part, cells := [], routers := [], receivers := [], dma := [], epoch := false, flipPending := false,
    oldValid := false, flipAt := 0, pendingAt := 0, flipTriggers := 0, lostRoutes := [], flipWaiting := 0, regions := [], hcp := .reset, completions := [], musters := [],
    rings := [], loft := .reset, relend := .reset, hubs := [], defects := { DefectState.reset with history }, boot := .reset,
    clk := .zero part.rootMax, pwr := .zero part.highest part.cap, meter := .reset, board, odp := .reset, recd := .reset, eth := .reset, flash }

/-- The engine right after reset: no power yet, every register at its reset value. -/
def State.reset : State := State.fresh .w32 .reset .reset [] 0 0 []

end Sys2Proof.Machine
end

