-- ==== Sys2Proof/Machine/LoftMap.lean ====
section
/-!
DEFINITION. Loft addresses and vault numbers (R229–R234): the interleave, homes and spares, and the vault map.
-/
namespace Sys2Proof.Machine

/-- Lines of a vault (R221). -/
def vaultLines : Nat := 393216

/-- Logical vaults (R232). -/
def logicalVaults : Nat := 61440

/-- Physical vaults (R232). -/
def physicalVaults : Nat := 65280

/-- Bytes of the interleaved space (R229). -/
def loftBytes : Nat := 0x16800000000

/-- Bytes of a vault (R229). -/
def vaultBytes : Nat := 0x1800000

/-- Is a 48-bit loft address valid (R229)? -/
def loftOk (a : Nat) : Bool :=
  match bits a 46 2 with
  | 0 => decide (a < loftBytes)
  | 1 => bits a 41 5 == 0 && decide (bits a 25 16 < logicalVaults) && decide (bits a 0 25 < vaultBytes)
  | _ => false

/-- The logical vault and line of a loft address (R230). -/
def loftPlace (a : Nat) : Nat × Nat :=
  if bits a 46 2 = 0 then
    let c := bits a 0 46 / 1024
    (c % logicalVaults, (c / logicalVaults) * 16 + (bits a 0 46 % 1024) / 64)
  else (bits a 25 16, bits a 0 25 / 64)

/-- Do `len` bytes from a valid address stay in its space: the interleaved space, or the vault (R229, R242)? -/
def loftSpanOk (a len : Nat) : Bool :=
  loftOk a && (if bits a 46 2 = 0 then decide (a + len ≤ loftBytes) else decide (bits a 0 25 + len ≤ vaultBytes))

/-- Home of a logical vault (R232). -/
def vaultHome (v : Nat) : Nat := 17 * (v / 16) + v % 16

/-- Is the physical number a spare position (R232)? -/
def isSpare (pv : Nat) : Bool := pv % 17 == 16

/-- The logical vault at home at a physical number (R232). -/
def logicalAt (pv : Nat) : Nat := 16 * (pv / 17) + pv % 17

/-- The M-cell above a physical vault (R232). -/
def vaultCell (pv : Nat) : Coord :=
  let o := fieldOrigin (pv / 960)
  let b := pv % 960 / 8
  { x := o.x + 8 * (b % 12) + 3, y := o.y + 8 * (b / 12) + pv % 8 }

/-- The physical vault beneath an M-cell (R232). -/
def cellVault (c : Coord) : Nat := 960 * c.field + 8 * (12 * c.ky + c.kx) + c.y % 8

/-- Where the vault map sends a logical vault: its physical number, or none where it is PENDING or FENCED (R234). -/
def LoftState.resolve (l : LoftState) (v : Nat) : Option Nat :=
  match l.map.find v with
  | none => some (vaultHome v)
  | some (.remapped pv) => some pv
  | some _ => none

/-- The logical vault a physical one serves now, if any. -/
def LoftState.servedBy (l : LoftState) (pv : Nat) : Option Nat :=
  if isSpare pv then l.assigned.find pv
  else if (l.map.find (logicalAt pv)).isNone then some (logicalAt pv) else none

/-- The physical vault that serves a logical one now, or is to serve it (R233, R237). -/
def LoftState.server (l : LoftState) (lv : Nat) : Option Nat :=
  match l.assigned.find? fun e => e.2 == lv with
  | some (sp, _) => some sp
  | none => if (l.map.find lv).isNone then some (vaultHome lv) else none

/-- Is a spare healthy and unassigned (R233)? -/
def LoftState.spareFree (l : LoftState) (pv : Nat) : Bool :=
  isSpare pv && (l.assigned.find pv).isNone && !(l.vaults.get .zero pv).lost && !(l.vaults.get .zero pv).failedTest

/-- Mesh distance between two cells (R233). -/
def distance (a b : Coord) : Nat := (a.x - b.x) + (b.x - a.x) + (a.y - b.y) + (b.y - a.y)

/-- Spare positions by number. -/
def spares : List Nat := (List.range 3840).map fun k => 17 * k + 16

/-- The nearest of some spares to a home, ties to the lower number (R233). -/
def nearestSpare (home : Nat) (cands : List Nat) : Option Nat :=
  cands.foldl (fun best pv =>
    match best with
    | none => some pv
    | some b => if distance (vaultCell home) (vaultCell pv) < distance (vaultCell home) (vaultCell b) then some pv else some b) none

/-- The spare R233 chooses for a home: in its paddock first, then in any live paddock. `live` says whether a paddock is powered. -/
def LoftState.chooseSpare (l : LoftState) (live : Nat → Bool) (home : Nat) : Option Nat :=
  let free := spares.filter fun pv => l.spareFree pv && live (vaultCell pv).paddock
  match nearestSpare home (free.filter fun pv => (vaultCell pv).paddock == (vaultCell home).paddock) with
  | some pv => some pv
  | none => nearestSpare home free

end Sys2Proof.Machine
end

