-- ==== Sys2Proof/Machine/MeshCell.lean ====
section
/-!
DEFINITION. A cell as destination and as requester of mesh packets (R19, R95, R100, R108, R189–R197, R210–R218): accesses at the
mesh port, the duplicate filter, read merging, responses, re-sends.
-/
namespace Sys2Proof.Machine

/-- Send a response, unless the request is posted (R187). -/
def Work.answer (w : Work) (p : Packet) (type : Nat) (status : Code) (aux : Nat) (payload : Payload) : Work :=
  if p.posted then w
  else { w with sends := w.sends ++ [p.respond type w.here w.epoch w.now status.toNat aux payload] }

/-- ACK with status OK; AUX[0] marks the ACK to a FLOCK_DOWN (R188, R210). -/
def Work.ack (w : Work) (p : Packet) : Work := w.answer p tAck Codes.ok (if p.type = tFlockDown then 1 else 0) []

/-- NACK with a status. -/
def Work.nack (w : Work) (p : Packet) (status : Code) : Work := w.answer p tNack status 0 []

/-- Is (SRC, REQ, TAG, SEQ) in the filter (R196)? -/
def MeshState.seen (m : MeshState) (src : Coord) (req tag : Nat) (seq : Bool) : Bool :=
  m.filter.any fun e => e.src == src && e.req == req && e.tag == tag && e.seq == seq

/-- Record an arrival, evicting the oldest of 32 (R196). -/
def MeshState.record (m : MeshState) (src : Coord) (req tag : Nat) (seq : Bool) (now : Nat) : MeshState :=
  let new : FilterEntry := { src, req, tag, seq, at_ := now }
  if m.filter.length < 32 then { m with filter := m.filter ++ [new] }
  else match m.filter with
    | old :: rest => { m with unsureUntil := max m.unsureUntil (old.at_ + 16), filter := rest ++ [new] }
    | [] => { m with filter := [new] }

/-- What the filter says of a write-class arrival (R196). -/
inductive FilterView | duplicate | unsure | fresh
  deriving DecidableEq, Repr

/-- The filter's answer for one arrival, whatever its attempt (R196). -/
def MeshState.view (m : MeshState) (src : Coord) (req tag : Nat) (seq : Bool) (attempt now : Nat) : FilterView :=
  if m.seen src req tag seq then .duplicate
  else if 0 < attempt ∧ now < m.unsureUntil then .unsure
  else .fresh

/-- Is the offset in the scratchpad window of the map (R19)? -/
def inPadWindow (off : Nat) : Bool := decide (off < 0x100000)

/-- Does an access stay in one line and inside the extent (R19, R108)? -/
def padAccessOk (k : CellKind) (off len : Nat) : Bool :=
  decide (off % 64 + len ≤ 64) && decide (off + len ≤ k.spadBytes) && decide (off < k.spadBytes)

/-- Is the mesh port in use in this cycle (R95, R218)? -/
def Work.portBusy (w : Work) : Bool := w.cell.mode == .running && decide (w.cell.seq.cycle < w.cell.seq.portFree)

/-- Must an access at the mesh port wait (R95, R113)? It takes the port's turn of its cycle and its bank slots, a read once the writes of its cycle are
made. Accesses of length 0 (DESIGN CHOICE, log entry 146) and accesses outside the scratchpad take none. -/
def Work.mustWait (w : Work) (p : Packet) (addr len : Nat) : Bool :=
  let (rd, wr) := p.slots
  let line := addr / 64
  decide (0 < len) && inPadWindow addr &&
  (w.portBusy || (!wr && !w.cell.mayRead) || (rd && !w.grants w.asked 0 line false) || (wr && !w.grants w.asked 0 line true))

/-- The port's turn of a cycle is taken, or that of two (R95, R218). -/
def Work.takePort (w : Work) (cycles : Nat) : Work :=
  if w.cell.mode = .running then w.mapSeq fun q => { q with portFree := q.cycle + cycles } else w

/-- Take the slots of an access, and the port's turn: one cycle, or two for a reduction (R95, R218). -/
def Work.takeSlots (w : Work) (p : Packet) (addr len : Nat) : Work :=
  if len = 0 then w
  else
    let (rd, wr) := p.slots
    let line := addr / 64
    let w := if rd then w.takeSlot line false else w
    let w := if wr then w.takeSlot line true else w
    w.takePort (if rd && wr then 2 else 1)

/-- A failed CRC at a destination (R193): a request of one unit is answered with PARITY_LINK; a response, a posted request and a combined reduction are
dropped and counted. -/
def Work.crcFail (w : Work) (p : Packet) : Work :=
  if p.isRequest && !p.posted && !(p.type == tRed && decide (1 < p.entries.length)) then w.nack p Codes.parityLink
  else { w with crcDrops := w.crcDrops + 1 }

/-- Write-class bookkeeping around an application (R196): duplicates are acknowledged, an unprovable re-send refused. -/
def Work.filtered (w : Work) (p : Packet) (apply : Work → Work) : Work :=
  match w.cell.mesh.view p.src p.req p.tag p.seq p.attempt w.now with
  | .duplicate => w.ack p
  | .unsure => w.nack p Codes.e2eGiveup
  | .fresh => apply w

/-- Record the arrival and acknowledge it (R196). -/
def Work.recordAck (w : Work) (p : Packet) : Work :=
  (w.mapMesh fun m => m.record p.src p.req p.tag p.seq w.now).ack p

/-- Apply a PUT or a FLOCK_DOWN copy at the cell (R19, R108, R129–R131, R245). DESIGN CHOICE (log entry 125): a write dropped because its channel has
drifted (R121) still raises its arrival tally, as a write dropped from a full slot does (R123), and is not counted among the dropped. -/
def Work.applyPut (w : Work) (p : Packet) : Work :=
  let off := p.offset
  if inPadWindow off then
    if padAccessOk w.here.kind off p.len then
      let w := w.takeSlots p off p.len
      let w := w.writeHere off p.cleanPayload
      let w := if p.tallyEn then w.addTally p.tally 1 (some p.src) else w
      w.recordAck p
    else (w.raiseHere Codes.configInvalid off).nack p Codes.configInvalid
  else
    match w.cell.writeRegs w.here off p.cleanPayload with
    | some c => ({ w with cell := c }).recordAck p
    | none => w.nack p Codes.configInvalid

/-- A PUT or FLOCK_DOWN copy reaches the cell. Answers the work, or none where the access must wait at the mesh port. -/
def Work.putArrive (w : Work) (p : Packet) : Option Work :=
  if !p.crcOk then some (w.crcFail p)
  else if w.cell.mesh.view p.src p.req p.tag p.seq p.attempt w.now = .fresh ∧ w.mustWait p p.offset p.len then none
  else some (w.filtered p fun w => w.applyPut p)

/-- TALLY_ADD (R188, R189, R196). -/
def Work.tallyArrive (w : Work) (p : Packet) : Work :=
  if !p.crcOk then w.crcFail p
  else w.filtered p fun w => (w.addTally p.tally (p.offset % 2 ^ 16) (some p.src)).recordAck p

/-- The requester entry of a GET. -/
def Packet.asRead (p : Packet) : Contributor :=
  { at_ := p.src, req := p.req, tag := p.tag, seq := p.seq, attempt := p.attempt, byte := p.offset % 64, len := p.len }

/-- The ordinary REPLY of one read (R188). -/
def Work.replyTo (w : Work) (p : Packet) (data : Payload) : Work := w.answer p tReply Codes.ok p.len data

/-- Close the oldest open window when nine lines would be open (R100). -/
def MeshState.makeRoom (m : MeshState) : MeshState :=
  if (m.windows.filter fun v => !v.closed).length < 8 then m
  else match takeFirst (fun (v : MergeWindow) => !v.closed) m.windows with
    | some (v, _) => { m with windows := m.windows.map fun u => if u = v then { u with closed := true } else u }
    | none => m

/-- May a read that arrives now join a window: the line's, not closed, and no later than the seventh cycle after it opened (R100)? -/
def Work.joins (w : Work) (line : Nat) (v : MergeWindow) : Bool := v.line == line && !v.closed && decide (w.cell.seq.cycle ≤ v.since + 7)

/-- The window a read joins: one of its line that may be joined (R100). -/
def Work.merges (w : Work) (p : Packet) : Option MergeWindow := w.cell.mesh.windows.find? (w.joins (p.offset / 64))

/-- The line that a window keeps for its requesters: as it is stored, or poison where its channel's slot is empty or drifted (R100, R121, R122). -/
def Cell.snapshot (c : Cell) (line : Nat) : Payload :=
  match c.channelView (64 * line) with
  | .empty | .drifted => Payload.poison 64
  | _ => c.stored (64 * line) 64

/-- A requester's bytes of a window's line (R101, R127). -/
def readerBytes (line : Payload) (e : Contributor) : Payload := Payload.asRead ((line.drop e.byte).take e.len)

/-- Serve a GET from the scratchpad (R100, R101, R122, R127): a read that joins a window takes no bank slot and gets the bytes of the window; any other
reads its bank, and in an M-cell opens a window with what it saw. Other cells reply at once. DESIGN CHOICE (log entry 147): the channel and parity checks of
a read that joins are those of the cycle it arrives in. -/
def Work.serveGet (w : Work) (p : Packet) : Work :=
  let line := p.offset / 64
  let r := w.readHere p.offset p.len
  match w.merges p with
  | some v =>
    (r.2.takePort 1).mapMesh fun m => { m with windows := m.windows.map fun u =>
      if u = v then { u with reads := u.reads ++ [p.asRead], closed := decide (16 ≤ u.reads.length + 1) } else u }
  | none =>
    let w := r.2.takeSlots p p.offset p.len
    if w.here.kind = .m then
      w.mapMesh fun m =>
        let m := m.makeRoom
        { m with windows := (m.windows.map fun u => if u.line = line then { u with closed := true } else u) ++
            [{ line, data := w.cell.snapshot line, since := w.cell.seq.cycle, reads := [p.asRead], closed := false }] }
    else w.replyTo p r.1

/-- Must a GET wait (R95, R100, R113)? One that joins a window waits for no bank, but for the writes of its cycle and the port's turn. -/
def Work.getWaits (w : Work) (p : Packet) : Bool :=
  if (w.merges p).isSome then w.portBusy || !w.cell.mayRead else w.mustWait p p.offset p.len

/-- A GET reaches the cell (R19, R108, R188, R189, R245). None where it must wait. -/
def Work.getArrive (w : Work) (dmaWait : List (Nat × Nat)) (p : Packet) : Option Work :=
  if !p.crcOk then some (w.crcFail p)
  else if inPadWindow p.offset then
    if !padAccessOk w.here.kind p.offset p.len then
      some ((w.raiseHere Codes.configInvalid p.offset).nack p Codes.configInvalid)
    else if p.len = 0 then some (w.replyTo p [])
    else if w.getWaits p then none
    else some (w.serveGet p)
  else match w.cell.readRegs w.here dmaWait p.offset p.len with
    | some d => some (w.replyTo p d)
    | none => some (w.nack p Codes.configInvalid)

/-- A window's reply leaves: one requester gets an ordinary REPLY, two or more a MULTI_REPLY (R101, R213). -/
def Work.closeWindow (w : Work) (line : Nat) : Option Work :=
  match takeFirst (fun (v : MergeWindow) => v.line == line) w.cell.mesh.windows with
  | none => none
  | some (v, rest) =>
    let w := w.mapMesh fun m => { m with windows := rest }
    let base : Packet := {
      type := tReply, epoch := w.epoch, seq := false, attempt := 0, age := w.now % 4, dst := w.here, src := w.here, req := 0,
      tag := 0, offset := 0, aux := 0, tally := 0, tallyEn := false, flock := 0, payload := [], entries := [], crc := 0, left := none }
    match v.reads with
    | [r] =>
      let p := { base with
        seq := r.seq, attempt := r.attempt, dst := r.at_, req := r.req, tag := r.tag, aux := r.len,
        payload := readerBytes v.data r }
      some { w with sends := w.sends ++ [p.seal] }
    | rs => some { w with sends := w.sends ++ [({ base with type := tMultiReply, payload := v.data, entries := rs } : Packet).seal] }

/-- Apply a RED packet that no contributor forbids; a word that escapes raises RANGE_ESCAPE (R218, R219). -/
def Work.applyRed (w : Work) (p : Packet) : Work :=
  let op := p.aux % 16
  let w := w.takeSlots p p.offset 32
  let old := w.cell.stored p.offset 32
  let (cur, w) := w.readHere p.offset 32
  let new := reducePayload op cur p.cleanPayload
  let w := w.write p.offset new
  let w := if p.tallyEn then w.addTally p.tally p.entries.length (some p.src) else w
  let escaped := op == 0 && !new.poisoned && !(Acc.ofNat old.toNat).escape && (Acc.ofNat new.toNat).escape
  let w := if escaped then w.raiseHere Codes.rangeEscape p.offset else w
  p.entries.foldl (fun w e =>
    (w.mapMesh fun m => m.record e.at_ e.req e.tag e.seq w.now).ack
      { p with src := e.at_, req := e.req, tag := e.tag, seq := e.seq, attempt := e.attempt }) w

/-- A RED packet reaches the cell (R108, R193, R196, R218): one that would cross a line or the extent raises CONFIG_INVALID at the cell beside the NACKs. -/
def Work.redArrive (w : Work) (p : Packet) : Option Work :=
  let one := fun (e : Contributor) => { p with src := e.at_, req := e.req, tag := e.tag, seq := e.seq, attempt := e.attempt }
  if !p.crcOk then some (w.crcFail p)
  else if p.offset % 32 ≠ 0 ∨ !inPadWindow p.offset ∨ !decide (p.offset + 32 ≤ w.here.kind.spadBytes) ∨
      (w.cell.channelAt p.offset).isSome ∨ 8 < p.aux % 16 then
    let w := if inPadWindow p.offset && !padAccessOk w.here.kind p.offset 32 then w.raiseHere Codes.configInvalid p.offset else w
    some (p.entries.foldl (fun w e => w.nack (one e) Codes.configInvalid) w)
  else
    let views := p.entries.map fun e => w.cell.mesh.view e.at_ e.req e.tag e.seq e.attempt w.now
    if views.all (· == .fresh) then
      if w.mustWait p p.offset 32 then none else some (w.applyRed p)
    else
      match p.entries with
      | e :: _ =>
        let q := one e
        some (match w.cell.mesh.view e.at_ e.req e.tag e.seq e.attempt w.now with
          | .duplicate => w.ack q
          | .unsure => w.nack q Codes.e2eGiveup
          | .fresh => w)
      | [] => some w

/-! ### The requester (R194, R197, R212) -/

/-- The outstanding request a response answers: REQ, TAG, SEQ, and the attempt last sent (R197). -/
def Cell.matching (c : Cell) (p : Packet) : Option Outstanding :=
  c.mesh.out.find? fun o =>
    o.pkt.req == p.req && o.pkt.tag == p.tag && o.pkt.seq == p.seq && o.pkt.attempt == p.attempt

/-- Is it the same request (unit and tag)? -/
def Outstanding.same (a b : Outstanding) : Bool := a.pkt.req == b.pkt.req && a.pkt.tag == b.pkt.tag

/-- Does a cell absorb what its outstanding requests bring: the boundary of its step was forced, or it is out of service (R176, R497)? -/
def Cell.absorbs (c : Cell) : Bool := c.mode == .halted || c.mode == .dead || c.mode == .fenced

/-- A request ends with a status: its tag rests 8 µs if it was re-sent; a failure of the sequencer's request latches (R60, R194, R197). A failure that a forced boundary absorbs raises nothing (R176, R497). -/
def Work.complete (w : Work) (o : Outstanding) (status : Code) (detail : Nat) (data : Payload) : Work :=
  let w := w.mapMesh fun m => { m with
    out := m.out.filter fun u => !u.same o
    resting := if o.resent then m.resting.set 0 (16 * o.pkt.req + o.pkt.tag) (w.now + 8) else m.resting }
  let w := if o.pkt.req = 0 ∧ status ≠ Codes.ok ∧ !w.cell.absorbs then w.raiseBy o.by_ status detail else w
  { w with ended := w.ended ++ [(o, status, data)] }

/-- Send a request again: ATTEMPT up, AGE and EPOCH stamped anew, counts of the attempt at 0 (R194, R212). -/
def Work.resend (w : Work) (o : Outstanding) : Work :=
  let entries := o.pkt.entries.map fun e => { e with attempt := o.pkt.attempt + 1 }
  let pkt := ({ o.pkt with attempt := o.pkt.attempt + 1, age := w.now % 4, epoch := w.epoch, entries } : Packet).seal
  let new := { o with pkt, sentAt := w.now, resent := true, acks := 0, drops0 := 0, drops1 := 0 }
  { (w.mapMesh fun m => { m with out := m.out.map fun u => if u.same o then new else u }) with sends := w.sends ++ [pkt] }

/-- The end of a request whose last attempt failed (R194, R212). -/
def Work.lastFailed (w : Work) (o : Outstanding) : Work :=
  if o.pkt.type = tFlockUp ∧ 0 < o.drops0 + o.drops1 then w.complete o Codes.mcastShort o.acks []
  else w.complete o Codes.e2eGiveup 0 []

/-- A re-send falls due, by its timer or by a PARITY_LINK NACK (R194, R212). -/
def Work.retry (w : Work) (o : Outstanding) : Work :=
  if o.pkt.attempt < 3 then w.resend o else w.lastFailed o

/-- End a FLOCK_PUT whose members are all accounted for (R212). -/
def Work.flockCheck (w : Work) (o : Outstanding) : Work :=
  match o.members with
  | none => w
  | some n =>
    if o.acks = n then w.complete o Codes.ok o.acks []
    else if o.acks + o.drops0 = n ∧ 0 < o.drops0 then w.complete o Codes.mcastShort o.acks []
    else w

/-- Update an outstanding request and look whether that ends it. -/
def Work.updateFlock (w : Work) (o : Outstanding) (f : Outstanding → Outstanding) : Work :=
  let new := f o
  (w.mapMesh fun m => { m with out := m.out.map fun u => if u.same o then new else u }).flockCheck new

/-- A response that fits no request is discarded and counted (R197). -/
def Work.stray (w : Work) : Work := { w with strays := w.strays + 1 }

/-- ACK (R196, R212). -/
def Work.ackArrive (w : Work) (p : Packet) : Work :=
  if !p.crcOk then w.crcFail p
  else match w.cell.matching p with
    | none => w.stray
    | some o =>
      if p.aux % 2 = 1 then w.updateFlock o fun o => { o with acks := o.acks + 1 }
      else w.complete o (BitVec.ofNat 16 p.offset) 0 []

/-- NACK: PARITY_LINK draws a re-send, any other status ends the request (R194). -/
def Work.nackArrive (w : Work) (p : Packet) : Work :=
  if !p.crcOk then w.crcFail p
  else match w.cell.matching p with
    | none => w.stray
    | some o =>
      if BitVec.ofNat 16 p.offset = Codes.parityLink then w.retry o else w.complete o (BitVec.ofNat 16 p.offset) 0 []

/-- FANOUT: the root tells the number of members (R210, R212). -/
def Work.fanoutArrive (w : Work) (p : Packet) : Work :=
  if !p.crcOk then w.crcFail p
  else match w.cell.matching p with
    | none => w.stray
    | some o => w.updateFlock o fun o => { o with members := some (p.offset % 2 ^ 20) }

/-- DROP: one member (KIND 0) or an unknown number (KIND 1) will not be reached (R211, R212). -/
def Work.dropArrive (w : Work) (p : Packet) : Work :=
  if !p.crcOk then w.crcFail p
  else match w.cell.matching p with
    | none => w.stray
    | some o => w.updateFlock o fun o => if p.aux % 2 = 0 then { o with drops0 := o.drops0 + 1 } else { o with drops1 := o.drops1 + 1 }

/-- Data of a sequencer's GET lands in its scratchpad with its arrival increment, then the request ends (R37, R120, R130); a drifted channel as in
log entry 125. -/
def Work.landReply (w : Work) (o : Outstanding) (data : Payload) (src : Coord) : Work :=
  match o.local_ with
  | none => w.complete o Codes.ok 0 data
  | some addr =>
    if w.cell.absorbs then w.complete o Codes.ok 0 data
    else if accessOk w.here.kind addr (max 1 data.length) then
      let w := w.writeChecked addr data o.by_.fold o.by_.entry o.by_.iter
      let w := match o.arrival with | some t => w.addTallyBy t 1 (some src) o.by_.fold o.by_.entry o.by_.iter | none => w
      w.complete o Codes.ok 0 data
    else (w.raiseBy o.by_ Codes.configInvalid addr).complete o Codes.ok 0 data

/-- REPLY (R37, R188). None where its write must wait for a bank slot. -/
def Work.replyArrive (w : Work) (p : Packet) : Option Work :=
  if !p.crcOk then some (w.crcFail p)
  else match w.cell.matching p with
    | none => some w.stray
    | some o =>
      let status : Code := BitVec.ofNat 16 p.offset
      if status ≠ Codes.ok then some (w.complete o status 0 p.cleanPayload)
      else match o.local_ with
        | some addr =>
          if w.mustWait p addr p.len then none
          else some ((w.takeSlots p addr p.len).landReply o p.cleanPayload p.src)
        | none => some (w.complete o Codes.ok 0 p.cleanPayload)

/-- One entry of a MULTI_REPLY at its own cell: as its own REPLY would have been (R214). -/
def Packet.entryReply (p : Packet) (e : Contributor) : Packet :=
  ({ p with
     type := tReply, seq := e.seq, attempt := e.attempt, dst := e.at_, req := e.req, tag := e.tag, aux := e.len,
     payload := readerBytes p.payload e, entries := [] } : Packet).seal

/-- An access at the mesh port: what it does, or none where it must wait (R95, R113). -/
def Work.access (w : Work) (dmaWait : List (Nat × Nat)) (p : Packet) : Option Work :=
  if p.type = tGet then w.getArrive dmaWait p
  else if p.type = tRed then w.redArrive p
  else if p.type = tReply then w.replyArrive p
  else w.putArrive p

/-- The access that waits at the mesh port is applied, if its bank slots are granted (R95, R113). -/
def Work.portAccess (w : Work) (dmaWait : List (Nat × Nat)) : Option Work :=
  match w.cell.mesh.port with
  | none => none
  | some (p, since) =>
    (({ (w.mapMesh fun m => { m with port := none }) with asked := since } : Work).access dmaWait p).map fun v =>
      { v with asked := w.asked }

/-- The port's turn in a cycle, for its writes or for its reads (R95): the access that waits there is applied if it is of that sort and may be. -/
def Work.portTurn (w : Work) (dmaWait : List (Nat × Nat)) (reads : Bool) : Work :=
  match w.cell.mesh.port with
  | some (p, _) => if (p.type == tGet) == reads then (w.portAccess dmaWait).getD w else w
  | none => w

/-- What is left of a core cycle once its other accesses are made: its sequencer's part, and its end (R41, R49). -/
def Work.seqCycle (w : Work) : Work × CycleOutcome :=
  let r := w.sequence
  (r.1.endCycle, r.2)

end Sys2Proof.Machine
end

