-- ==== Sys2Proof/Machine/Recorder.lean ====
section
/-!
DEFINITION. The event recorder (R458–R468): records, the hub rings, the module log, freeze and thaw, and operating time.
-/
namespace Sys2Proof.Machine

/-- What a command answers. -/
abbrev Answer := Host.Outcome State Fault Refusal

/-- A command at a unit: the new state where the unit exists (log entry 9). -/
def answerIf (ok : Bool) (t : State) : Answer := if ok then .next t else .fault .noSuchUnit

/-- The new state where the event arises, else the state as it was (log entry 7). -/
def State.orSame (s : State) (t : Option State) : State := t.getD s

/-- TYPE of a record (R458). -/
def recFault : Nat := 1
def recEvent : Nat := 2
def recStage : Nat := 3
def recNote : Nat := 4
def recLost : Nat := 5

/-- LOCATION when no cell is concerned (R458). -/
def noPlace : Nat := 0xFFFFFFFF

/-- LOCATION of a cell (R458). -/
def placeOf (c : Coord) : Nat := coordBits c

/-- The 60 bytes of a record before its CRC (R458). -/
def Record.head (r : Record) : List Byte :=
  leBytes 4 r.cycle ++ leBytes 4 r.hours ++ leBytes 2 r.seconds ++ leBytes 2 r.code ++ leBytes 4 r.micros ++ leBytes 1 r.type ++
  leBytes 1 r.origin ++ leBytes 2 r.region ++ leBytes 4 r.location ++ leBytes 4 r.seq ++
  (r.detail ++ List.replicate 32 0).take 32

/-- The 64 bytes of a record; a torn one is returned as stored, with a CRC that fails (R458, R464, R468). -/
def Record.bytes (r : Record) : List Byte :=
  match r.torn with
  | none => r.head ++ leBytes 4 (crc32c r.head)
  | some v => leBytes 60 v ++ leBytes 4 (crc32c (leBytes 60 v) + 1 + v / 2 ^ 480 % (2 ^ 32 - 1))

/-- A record stamped with the session and the operating time (R458, R461). -/
def State.stamp (s : State) (origin seq type code region location : Nat) (detail : List Byte) : Record :=
  { cycle := s.flash.powerCycle, hours := s.recd.opSeconds / 3600, seconds := s.recd.opSeconds % 3600, micros := s.recd.opMicros,
    type, code, origin, region, location, seq, detail, torn := none }

/-- Records the module log holds (R465). -/
def logRoom : Nat := 4194304

/-- Append to the module log; a full log loses its oldest 2,048 records first (R465). -/
def FlashState.append (f : FlashState) (r : Record) : FlashState :=
  if f.log.length < logRoom then { f with log := f.log ++ [r] }
  else { f with log := f.log.drop 2048 ++ [r], logErased := satAdd 0xFFFFFFFF f.logErased 2048 }

/-- The management complex writes a record of its own: into its holding buffer while the module log is frozen, else into the log (R458, R466). -/
def State.note (s : State) (type : Nat) (code : Code) (region location : Nat) (detail : List Byte) : State :=
  let r := s.stamp 0 s.recd.seq type code.toNat region location detail
  let s := { s with recd := { s.recd with seq := s.recd.seq + 1 } }
  match s.recd.frozen with
  | some (0, _) =>
    if s.recd.holding.length < 256 then { s with recd := { s.recd with holding := s.recd.holding ++ [r] } }
    else { s with recd := { s.recd with missed := s.recd.missed + 1, overflow := satAdd 0xFFFFFFFF s.recd.overflow 1 } }
  | _ => { s with flash := s.flash.append r }

/-- Records of a ring not yet flushed (R465). -/
def Ring.unflushed (r : Ring) : Nat := (r.held.filter fun e => !e.2).length

/-- Put a record into a ring: into room, else over the oldest flushed record, else it is dropped and counted (R462). -/
def Ring.put (r : Ring) (x : Record) : Ring :=
  if r.held.length < 1024 then { r with held := r.held ++ [(x, false)] }
  else match takeFirst (fun (e : Record × Bool) => e.2) r.held with
    | some (_, rest) => { r with held := rest ++ [(x, false)] }
    | none => { r with dropped := satAdd 0xFFFF r.dropped 1 }

/-- A hub writes a record into its ring; a FAULT or 768 unflushed records make a flush due (R462, R463). -/
def Ring.write (r : Ring) (x : Record) : Ring :=
  let r := r.put x
  { r with due := r.due || x.type == recFault || decide (768 ≤ r.unflushed) }

/-- Is the ring of field f frozen (R466)? -/
def State.ringFrozen (s : State) (f : Nat) : Bool := match s.recd.frozen with | some (t, _) => t == f + 1 | none => false

/-- A hub writes a record into its ring, or into its holding buffer while the ring is frozen (R462, R463, R466). -/
def State.hubNote (s : State) (f type : Nat) (code : Code) (region location : Nat) (detail : List Byte) : State :=
  let h := s.hubs.get .zero f
  let r := s.stamp (f + 1) h.ring.seq type code.toNat region location detail
  let h := { h with ring := { h.ring with seq := h.ring.seq + 1 } }
  if s.ringFrozen f then
    if h.holding.length < 256 then { s with hubs := s.hubs.set .zero f { h with holding := h.holding ++ [r] } }
    else { s with
      hubs := s.hubs.set .zero f { h with held := h.held + 1 }
      recd := { s.recd with overflow := satAdd 0xFFFFFFFF s.recd.overflow 1 } }
  else
    { s with hubs := s.hubs.set .zero f { h with ring := h.ring.write r } }

/-- The ring with every record marked flushed and no flush due (R462, R463). -/
def Ring.flushed (r : Ring) : Ring := { r with held := r.held.map fun e => (e.1, true), due := false }

/-- A flush moves every unflushed record, in ring order, to the module log; where records were dropped, one LOST record with their count follows them, which takes a
place of the ring that the move has freed, or of the holding buffer where the ring is frozen, and DROPPED is cleared (R462, R463, R466; log entry 70). -/
def State.flushRing (s : State) (f : Nat) : State :=
  let h := s.hubs.get .zero f
  let out := (h.ring.held.filter fun e => !e.2).map (·.1)
  let ring := h.ring.flushed
  if h.ring.dropped = 0 then { s with
    flash := out.foldl FlashState.append s.flash
    hubs := s.hubs.set .zero f { h with ring } }
  else if s.ringFrozen f then
    ({ s with
      flash := out.foldl FlashState.append s.flash
      hubs := s.hubs.set .zero f { h with ring := { ring with dropped := 0 } } } : State).hubNote f recLost 1 0 noPlace (leBytes 4 h.ring.dropped)
  else
    let lost := s.stamp (f + 1) h.ring.seq recLost 1 0 noPlace (leBytes 4 h.ring.dropped)
    { s with
      flash := (out ++ [lost]).foldl FlashState.append s.flash
      hubs := s.hubs.set .zero f { h with ring := (({ ring with dropped := 0, seq := ring.seq + 1 } : Ring).put lost).flushed } }

/-- Is the module log frozen (R466)? -/
def State.logFrozen (s : State) : Bool := match s.recd.frozen with | some (0, _) => true | _ => false

/-- A due flush of field f, unless the module log is frozen (R463, R466). -/
def State.ringFlush (s : State) (f : Nat) : State :=
  let h := s.hubs.get .zero f
  if (h.ring.due || decide (768 ≤ h.ring.unflushed)) && !s.logFrozen then s.flushRing f else s

/-- The frozen target thaws (R467): its held records, a LOST record, a THAW note, then the flushes that waited. -/
def State.thaw (s : State) : State :=
  match s.recd.frozen with
  | none => s
  | some (0, _) =>
    let held := s.recd.holding
    let missed := s.recd.missed
    let s := { s with
      flash := held.foldl FlashState.append s.flash
      recd := { s.recd with frozen := none, holding := [], missed := 0 } }
    let s := if missed = 0 then s else s.note recLost 2 0 noPlace (leBytes 4 missed)
    let s := s.note recNote 8 0 noPlace []
    (List.range fieldCount).foldl State.ringFlush s
  | some (t + 1, _) =>
    let h := s.hubs.get .zero t
    let s := { s with
      recd := { s.recd with frozen := none }
      hubs := s.hubs.set .zero t { h with ring := h.holding.foldl Ring.write h.ring, holding := [], held := 0 } }
    let s := if h.held = 0 then s else s.hubNote t recLost 2 0 noPlace (leBytes 4 h.held)
    s.hubNote t recNote 8 0 noPlace []

/-- Is a hub in service: its field has not lost its controller (R327)? -/
def State.hubAlive (s : State) (f : Nat) : Bool := s.defects.hubPlace.find f != some .fenced

/-- A write of FREEZE 0x8010:01 that the caller found acceptable (R466): freeze a target, restart its 10 s, or thaw at 0xFF. -/
def State.freezeTo (s : State) (v : Nat) : State :=
  if v = 0xFF then s.thaw
  else match s.recd.frozen with
    | some (t, _) => if t = v then { s with recd := { s.recd with frozen := some (v, s.clock) } } else s
    | none =>
      let s := if v = 0 then s.note recNote 7 0 noPlace [] else s.hubNote (v - 1) recNote 7 0 noPlace []
      { s with recd := { s.recd with frozen := some (v, s.clock) } }

/-- Is a write of FREEZE refused with STATE (R466)? -/
def State.freezeRefused (s : State) (v : Nat) : Bool :=
  v ≠ 0xFF && ((match s.recd.frozen with | some (t, _) => t != v | none => false) || (s.boot.minimal && v ≠ 0))

/-- One second and microseconds of operating time pass (R461). -/
def RecorderState.passTime (r : RecorderState) (us : Nat) : RecorderState :=
  { r with opSeconds := r.opSeconds + (r.opMicros + us) / 1000000, opMicros := (r.opMicros + us) % 1000000 }

/-- Do the records' clocks run (R343, R461)? -/
def State.timed (s : State) : Bool := s.boot.powered && s.boot.refclk

/-- Does a packet's age run out in the `d` microseconds from now (R195)? -/
def Packet.runsOut (now d : Nat) (p : Packet) : Bool := decide (0 < d ∧ 3 ≤ (now + 4 - p.age % 4) % 4 + d)

/-- Packets of a router whose age runs out are discarded and counted, in its buffers and where they wait at their destination (R195, R205). -/
def Router.agePass (r : Router) (marks now d : Nat) : Router :=
  let live := fun (l : List Packet) => l.filter fun p => !p.runsOut now d
  let size := fun (r : Router) => (r.lanes.map fun e => e.2.length).sum + r.inbox.length + r.gateInbox.length
  let new : Router := { r with lanes := r.lanes.mapVals [] fun _ l => live l, inbox := live r.inbox, gateInbox := live r.gateInbox }
  if size new = size r then r else (new.count cDropAge (size r - size new)).throttle marks

/-- Does the access that waits at a cell's mesh port run out in the `d` microseconds from now (R195)? -/
def Cell.portRunsOut (now d : Nat) (c : Cell) : Bool := c.mesh.port.any fun p => p.1.runsOut now d

/-- Does a line request of the mesh that its vault has not accepted, and that so waits in the mesh (R222), run out in the `d` microseconds from now? -/
def LoftRequest.runsOut (now d : Nat) (q : LoftRequest) : Bool :=
  match q.src with
  | .mesh p => !q.accepted && p.runsOut now d
  | .channel _ _ => false

/-- Time passes for the packets that the mesh holds: those whose age runs out are discarded and counted, among them an access that waits at a cell's mesh port
and the line requests that wait at a vault's (R195, R222). -/
def State.agePass (s : State) (d : Nat) : State :=
  let aged := s.routers.mapVals .reset fun _ r => r.agePass s.odp.marks s.clock d
  let ported := (s.cells.filter fun e => e.2.portRunsOut s.clock d).foldl (fun m e => m.upd .reset e.1 fun r => r.count cDropAge 1) aged
  let old := fun (q : LoftRequest) => q.runsOut s.clock d
  { s with
    cells := s.cells.mapVals .reset fun _ c => if c.portRunsOut s.clock d then { c with mesh := { c.mesh with port := none } } else c
    routers := s.loft.vaults.foldl (fun m e => if e.2.queue.any old then m.upd .reset (vaultCell e.1).key fun r => r.count cDropAge (e.2.queue.filter old).length else m) ported
    loft := { s.loft with vaults := s.loft.vaults.mapVals .zero fun _ v => { v with queue := v.queue.filter fun q => !old q } } }

/-- The clock stands at the later of now and the time an event falls due; packets age and operating time passes with it (R195, R461). -/
def State.advanceTo (s : State) (t : Nat) : State :=
  { s.agePass (t - s.clock) with
    clock := max s.clock t, recd := if s.timed then s.recd.passTime (t - s.clock) else s.recd }

/-- FREEZE_TIMEOUT: 10 s after its last FREEZE write the target thaws (R467). -/
def execFreezeTimeout (s : State) : Answer :=
  .next (match s.recd.frozen with
    | some (_, at_) => (s.advanceTo (at_ + 10000000)).thaw
    | none => s)

/-- RING_FLUSH f (R463). -/
def execRingFlush (f : Nat) (s : State) : Answer := answerIf (decide (f < fieldCount)) (s.ringFlush f)

/-- OP_TIME_SAVE: the operating time is saved to module flash (R461). -/
def execOpTimeSave (s : State) : Answer :=
  .next (if s.timed then { s with flash := { s.flash with opSeconds := s.recd.opSeconds } } else s)

end Sys2Proof.Machine
end

