-- ==== Sys2Proof/Machine/Report.lean ====
section
/-!
DEFINITION. Report words of bring-up (R346–R348): what a stage that ends leaves, and how long it took.
-/
namespace Sys2Proof.Machine

/-- RESULT of a report word (R346). -/
def resultRunning : Nat := 1
def resultPassed : Nat := 2
def resultDegraded : Nat := 3
def resultFailed : Nat := 4

/-- A report word: RESULT, CODE, ELAPSED_MS and DETAIL (R346). -/
def reportWord (result : Nat) (code : Code) (elapsed detail : Nat) : Reg64 :=
  BitVec.ofNat 64 (result + 2 ^ 4 * code.toNat + 2 ^ 20 * min 0xFFF elapsed + 2 ^ 32 * (detail % 2 ^ 32))

/-- RESULT of stage n. -/
def State.resultOf (s : State) (n : Nat) : Nat := bits (s.boot.reports.get 0 n).toNat 0 4

/-- Is stage n running? -/
def State.stageRuns (s : State) (n : Nat) : Bool := s.boot.refclk && !s.pwr.overtemp && s.boot.stage == some n && s.resultOf n == resultRunning

/-- Milliseconds of the stage in hand, by the engine's own clock. -/
def State.stageMs (s : State) : Nat := (s.clock - s.boot.stageAt) / 1000

/-- Stage n ends with a result: its report word, and the STAGE record that holds it (R346, R460). -/
def State.stageReports (s : State) (n result : Nat) (code : Code) (elapsed detail : Nat) : State :=
  let w := reportWord result code elapsed detail
  ({ s with boot := { s.boot with reports := s.boot.reports.put n w } } : State).note recStage (BitVec.ofNat 16 n) 0 noPlace (leBytes 8 w.toNat)

/-- Stage n reports FAILED with a code; FAILED_START does the rest (R363). -/
def State.stageFails (s : State) (n : Nat) (code : Code) (elapsed detail : Nat) : State := s.stageReports n resultFailed code elapsed detail

/-- How many hold. -/
def countOf {α : Type} (p : α → Bool) (l : List α) : Nat := (l.filter p).length

/-- Units lost so far, fenced, remapped or without power: cells, paddocks, hubs and tree nodes with their spares, gateways, vaults, links, ports (R346, R348). -/
def State.lossCount (s : State) : Nat :=
  let d := s.defects
  let (w, e, a) := d.nodeSpares
  let ports := (List.range 64).map fun p => s.relend.ports.get .zero p
  d.causes.length + countOf (fun (x : Nat × PaddockMode) => x.2 != .powered) d.paddocks + d.hubPlace.length + (4 - d.hubSpares.1 - d.hubSpares.2) +
  d.nodePlace.length + d.nodeWaits.length + ([w, e, a].filter fun b => !b).length + d.gatePlace.length + s.relend.movedGates.length + d.blockFailed.length +
  countOf (fun (x : Nat × Vault) => x.2.lost || x.2.failedTest) s.loft.vaults + s.loft.map.length + d.meshDown.length + d.fabricDown.length +
  d.spareUsed.length + countOf (fun (p : Port) => p.mode == .fenced) ports + countOf (fun (p : Port) => p.spareFor.isSome) ports

/-- METER_OK of S0: the meter has reported a passed self-check (R347, R348). -/
def State.meterPassed (s : State) : Bool := s.meter.gotStatus && s.meter.state == 0

/-- DETAIL of S0: the bank voltages in tenths of a volt, and METER_OK (R347). -/
def State.bankDetail (s : State) (westDv eastDv : Nat) : Nat := min 0x3FF westDv + 2 ^ 10 * min 0x3FF eastDv + 2 ^ 20 * (if s.meterPassed then 1 else 0)

/-- DETAIL of stages 1–8 as the engine's own state gives it (R347). -/
def State.stageDetail (s : State) (n : Nat) : Nat :=
  let d := s.defects
  let fenced := fun (m : SMap Place) => countOf (fun (e : Nat × Place) => e.2 == Place.fenced) m
  match n with
  | 1 => numAt s.flash.image 12 4
  | 2 => s.clk.ready.length % 128 + 2 ^ 7 * fenced d.hubPlace + 2 ^ 14 * (4 - d.hubSpares.1 - d.hubSpares.2)
  | 3 =>
    let on := countOf (fun p => d.paddocks.find p == some PaddockMode.powered) (List.range 272)
    on + 2 ^ 9 * (272 - on) + 2 ^ 18 * d.retried.length
  | 4 =>
    let (w, e, a) := d.nodeSpares
    min 0xFFFFF (countOf (fun (x : Nat × Nat) => x.2 == 1 || x.2 == 2 || x.2 == 5) d.causes) + 2 ^ 20 * ([w, e, a].filter fun b => !b).length +
    2 ^ 22 * (if 0 < fenced d.nodePlace then 1 else 0)
  | 5 => min 0xFFF d.meshDown.length + 2 ^ 12 * min 0xFFF d.fabricDown.length
  | 6 =>
    let n := fun (b : Bool) => countOf (fun (e : Nat × VaultEntry) => (e.2 == VaultEntry.fenced) == b) s.loft.map
    min 0x1FFF (n false) + 2 ^ 13 * min 0x1FFF (n true)
  | 7 =>
    min 0xFFFFF (countOf (fun (x : Nat × Nat) => x.2 == 3) d.causes) + 2 ^ 20 * (s.hubs.foldl (fun m h => max m h.2.rounds) 0)
  | _ =>
    let mode := fun (m : PortMode) => countOf (fun p => (s.relend.ports.get .zero p).mode == m) (List.range 64)
    mode .up % 128 + 2 ^ 7 * mode .fenced + 2 ^ 14 * (s.boot.bypassOpen.foldl (fun m k => m + 2 ^ k) 0)

/-- Limit of a stage in milliseconds (R348); S8 has none. -/
def stageLimit (n : Nat) : Option Nat := [some 3000, some 2000, some 50, some 200, some 50, some 100, some 200, some 100].getD n none

end Sys2Proof.Machine
end

