-- ==== Sys2Proof/Machine/Ops.lean ====
section
/-!
DEFINITION. The shared operations on the engine's state: one event of one cell, and what it sends out — credits to its neighbours,
packets into its router (R189, R190, R210), arrivals to the muster wires, descriptors to the DMA channels.
-/
namespace Sys2Proof.Machine

/-- The cell at a coordinate. -/
def State.cell (s : State) (c : Coord) : Cell := s.cells.get .reset c.key

/-- Replace the cell at a coordinate. -/
def State.setCell (s : State) (c : Coord) (x : Cell) : State := { s with cells := s.cells.set .reset c.key x }

/-- Change the cell at a coordinate. -/
def State.mapCell (s : State) (c : Coord) (f : Cell → Cell) : State := s.setCell c (f (s.cell c))

/-- The router at a coordinate. -/
def State.router (s : State) (c : Coord) : Router := s.routers.get .reset c.key

/-- Change the router at a coordinate; its injection state follows its occupancy (R205). -/
def State.mapRouter (s : State) (c : Coord) (f : Router → Router) : State :=
  { s with routers := s.routers.set .reset c.key ((f (s.router c)).throttle s.odp.marks) }

/-- A DMA channel of the M-cell at a coordinate. -/
def State.channel (s : State) (c : Coord) (ch : Nat) : DmaChannel := s.dma.get .zero (4 * c.key + ch)

/-- Change a DMA channel. -/
def State.mapChannel (s : State) (c : Coord) (ch : Nat) (f : DmaChannel → DmaChannel) : State :=
  { s with dma := s.dma.set .zero (4 * c.key + ch) (f (s.channel c ch)) }

/-- Does an M-cell's DMA hold nothing (R105, R175)? -/
def State.dmaIdle (s : State) (c : Coord) : Bool := (List.range 4).all fun ch => (s.channel c ch).queue.isEmpty

/-- Waits of the DMA channels: channel and tally of each descriptor that is next to start and whose threshold is not met (R239, R241, R243). -/
def State.dmaWait (s : State) (c : Coord) : List (Nat × Nat) :=
  (List.range 4).filterMap fun ch =>
    let q := (s.channel c ch).queue
    match q.dropWhile (·.started) with
    | d :: _ =>
      let w := d.word.toNat
      if (q.takeWhile (·.started)).any fun e => !e.invalid && decide (e.next < bits e.word.toNat 128 24 / 64) && e.placed.isNone then none
      else if bitAt w 169 && decide (bits w 163 6 ≤ 47) && decide ((s.cell c).tallyAtStart (bits w 163 6) < bits w 192 32) then some (ch, bits w 163 6)
      else none
    | [] => none

/-- The block node above a cell (R253). -/
def blockNode (c : Coord) : Nat := 120 * c.field + 12 * c.ky + c.kx

/-- A cell starts an event with what it may read beside itself. -/
def State.work (s : State) (c : Coord) : Work :=
  Work.start c s.clock s.epoch s.freeIdx ((List.range 4).map fun ch => (s.channel c ch).queue.length)
    ((List.range 4).filterMap fun ch => (s.channel c ch).asking.map fun a => (ch, a.since, a.line, a.access != .lineRead)) (s.cell c)

/-- A descriptor as it enters its channel (R102, R239); a poisoned one is invalid (R128), and no bit of it is used (R126). -/
def DmaDesc.fresh (addr : Nat) (data : Payload) : DmaDesc :=
  { addr, word := if data.poisoned then 0 else BitVec.ofNat 256 data.toNat, invalid := data.poisoned, started := false, base := 0, next := 0, lines := [], failed := none,
    placed := none, recorded := false }

/-- A line request of a DMA channel ended: its line has its data or its status, and what a flock delivered (R212, R241). -/
def DmaDesc.lineEnded (d : DmaDesc) (index : Nat) (read : Bool) (status : Code) (detail : Nat) (data : Payload) : DmaDesc :=
  { d with lines := d.lines.map fun l =>
      if l.index = index then
        if read then { l with phase := .arrived, data, status }
        else { l with phase := .done, status := if l.status = Codes.ok then status else l.status, detail }
      else l }

/-- Types of request that read (R188). -/
def Packet.reads (p : Packet) : Bool := p.type == tGet || p.type == tLoftRd

/-- Change the first element that passes. -/
def mapFirst {α : Type} (p : α → Bool) (f : α → α) : List α → List α
  | [] => []
  | a :: rest => if p a then f a :: rest else a :: mapFirst p f rest

/-- Lines a descriptor moves: LENGTH in lines, none where it is invalid (R239, R242). -/
def DmaDesc.total (d : DmaDesc) : Nat := if d.invalid then 0 else bits d.word.toNat 128 24 / 64

/-- Does a request address a stream record: the gateway offset with line index 0x3_FFFF (R281)? -/
def Packet.toRecord (p : Packet) : Bool := decide (0x800000 ≤ p.offset) && p.offset % 0x40000 == 0x3FFFF

/-- A descriptor of Relend ends with a status: nothing of it is left to poll for (R283, R284). -/
def DmaDesc.over (failed : Option (Nat × Code × Nat)) (d : DmaDesc) : DmaDesc := { d with next := d.total, failed }

/-- Is it the descriptor whose record a request addresses, its end not yet polled (R283)? -/
def DmaDesc.atRecord (p : Packet) (d : DmaDesc) : Bool := d.placed == some (p.offset / 0x40000 % 2) && decide (d.next < d.total)

/-- A channel's record PUT or poll ended (R283, R284): acknowledged, the record is polled; a reply with DONE ends the descriptor with what it reports;
one that reports STALLED holds the channel at the in-flight bound (R59); a request that failed ends the descriptor with its status. -/
def DmaChannel.recordEnded (x : DmaChannel) (p : Packet) (status : Code) (data : Payload) : DmaChannel :=
  let change := fun (f : DmaDesc → DmaDesc) (stalled : Bool) =>
    ({ x with queue := mapFirst (DmaDesc.atRecord p) f x.queue, stalled } : DmaChannel)
  let b := data.map (·.data)
  let flags := numAt b 10 1
  if status ≠ Codes.ok then change (DmaDesc.over (some (0, status, 0))) false
  else if p.type = tPut then change (fun d => { d with recorded := true }) false
  else if bitAt flags 0 then
    change (DmaDesc.over (if bitAt flags 2 then some (numAt b 4 4, BitVec.ofNat 16 (numAt b 8 2), 0) else none)) false
  else { x with stalled := bitAt flags 1 }

/-- Does a poll's reply make the cell raise INFLIGHT_STALL: STALLED, with STALL_US at or above the sheepdog's limit (R284)? -/
def pollStalls (p : Packet) (status : Code) (data : Payload) (limit : Nat) : Bool :=
  let b := data.map (·.data)
  p.type == tGet && status == Codes.ok && bitAt (numAt b 10 1) 1 && !bitAt (numAt b 10 1) 0 && decide (limit ≤ numAt b 12 4)

/-- A request of a DMA channel ended (R194, R241): the descriptor whose line or record it carried takes note. -/
def State.channelEnded (s : State) (c : Coord) (e : Outstanding × Code × Payload) : State :=
  let (o, status, data) := e
  if ¬(1 ≤ o.pkt.req ∧ o.pkt.req ≤ 4) then s
  else if o.pkt.toRecord then
    let x := s.cell c
    let s := if pollStalls o.pkt status data x.regs.sheepdogUs ∧ x.mode = .running then s.setCell c ((s.work c).raiseHere Codes.inflightStall 0).cell else s
    s.mapChannel c (o.pkt.req - 1) fun ch => ch.recordEnded o.pkt status data
  else
    s.mapChannel c (o.pkt.req - 1) fun ch =>
      { ch with queue := ch.queue.map fun d =>
        if d.started && decide (d.base ≤ o.line ∧ o.line < d.base + d.next) then
          d.lineEnded (o.line - d.base) o.pkt.reads status (if status = Codes.mcastShort then o.acks else 0) data
        else d }

/-- What a cell's event leaves outside the cell, packets apart. -/
def State.absorbLocal (s : State) (w : Work) : State :=
  let c := w.here
  let s := { (s.setCell c w.cell) with freeIdx := w.free }
  let s := w.popped.foldl (fun (s : State) e =>
    match c.neighbour (trackDir e.1) with
    | some n => s.mapCell n fun x => { x with fab := { x.fab with creditWire := x.fab.creditWire.upd 0 (8 * facing e.1 + e.2) (· + 1) } }
    | none => s) s
  let s := w.posts.foldl (fun (s : State) p =>
    { s with musters := s.musters.upd .zero p.1 fun m => { m with transit := m.transit ++ [(blockNode c, p.2.1, p.2.2)] } }) s
  let s := w.dma.foldl (fun (s : State) d =>
    -- a descriptor that enters an aborted channel is one it has not started (R105)
    s.mapChannel c d.1 fun ch => if ch.aborted then ch else { ch with queue := ch.queue ++ [DmaDesc.fresh d.2.1 d.2.2] }) s
  let s := w.ended.foldl (fun (s : State) e => s.channelEnded c e) s
  if w.strays = 0 ∧ w.crcDrops = 0 then s
  else s.mapRouter c fun r => (r.count cStray w.strays).count cDropCrc w.crcDrops

/-- Does a routing version mark a paddock UNREACHABLE in every router (R199)? -/
def State.lostRoute (s : State) (version : Bool) (p : Nat) : Bool := (512 * (if version then 1 else 0) + p) ∈ s.lostRoutes

/-- The source router's answer to a request at injection: a refusal, or the packet to send (R189, R190, R210). A hub's broadcast down a flock tree names
no destination. -/
def State.injectCheck (s : State) (c : Coord) (p : Packet) : Code ⊕ Packet :=
  if !p.isRequest || p.type == tFlockDown then .inr p
  else
    let r := s.router c
    let p? : Option Packet :=
      if p.type = tFlockUp ∧ p.req ≠ 5 then (r.senders.find p.flock).map fun root => ({ p with dst := root } : Packet).seal
      else some p
    match p? with
    | none => .inl Codes.configInvalid
    | some p =>
      if p.type = tTallyAdd ∧ !p.tallyEn then .inl Codes.configInvalid
      else if !p.dst.present then .inl Codes.configInvalid
      else if (p.type = tLoftRd ∨ p.type = tLoftWr) ∧ (s.loft.vaults.get .zero (cellVault p.dst)).lost then .inl Codes.loftLost
      else if p.dst.paddock ≠ c.paddock ∧ (s.lostRoute s.epoch p.dst.paddock ∨ (r.route c s.epoch p.dst.paddock).unreachable) then
        .inl (if p.type = tLoftRd ∨ p.type = tLoftWr then Codes.loftLost else Codes.e2eGiveup)
      else .inr p

/-- A packet enters the router of its cell, or is refused there and its request ends (R190). -/
def State.inject (s : State) (c : Coord) (p : Packet) : State :=
  match s.injectCheck c p with
  | .inr p => s.mapRouter c fun r => r.inject 4 p
  | .inl status =>
    match s.cell c |>.matching p with
    | some o => s.absorbLocal ((s.work c).complete o status 0 [])
    | none => s

/-- Does a region's rectangle hold the cell (R158)? -/
def Region.holds (r : Region) (c : Coord) : Bool := r.mode != .empty && c.inRect r.bx r.oy r.w r.h

/-- The region whose rectangle holds a cell: its handle (R159). -/
def State.regionOf (s : State) (c : Coord) : Option Nat := (s.regions.find? fun e => e.2.holds c).map (·.1)

/-- A cell enters its region's step-end muster by itself once every active fold has finished, no mesh request is outstanding and its DMA
channels are idle; the arrival carries FAULT_LATCHED (R175, R255). -/
def State.stepEndPost (s : State) (c : Coord) : State :=
  let x := s.cell c
  if x.mode = .running ∧ !x.must.stepEnd ∧ !x.seq.stopped ∧ x.workDone ∧ x.outstanding = 0 ∧ s.dmaIdle c then
    match (s.regions.find? fun e => e.2.holds c).bind fun e => e.2.musters[1]? with
    | some m =>
      let s := s.setCell c { x with must := { x.must with stepEnd := true } }
      { s with musters := s.musters.upd .zero m fun mu => { mu with transit := mu.transit ++ [(blockNode c, false, x.fault.first.isSome)] } }
    | none => s
  else s

/-- The drift test after an event of a cell that is not running; a running cell makes it at its next cycle (R121). -/
def Work.settled (w : Work) : Work := if w.cell.mode = .running then w else w.driftTest

/-- The sheepdog's count is of one unbroken stall: before an event at a running cell whose conditions do not hold, it counts from here anew (R59). -/
def State.stallKept (s : State) (w : Work) : Work :=
  if (s.cell w.here).mode = .running ∧ !(s.work w.here).watched then w.stallAnew s.clock else w

/-- Take in what an event of a cell did. -/
def State.absorb (s : State) (w : Work) : State :=
  (w.sends.foldl (fun (s : State) p => s.inject w.here p) (s.absorbLocal (s.stallKept w.settled))).stepEndPost w.here

/-- A command at a cell. -/
def atCell (c : Coord) (t : State) : Answer := answerIf c.present t

/-- An event of a cell that always arises. -/
def State.event (s : State) (c : Coord) (f : Work → Work) : State := s.absorb (f (s.work c))

/-- An event of a cell that may not arise. -/
def State.event? (s : State) (c : Coord) (f : Work → Option Work) : State := s.orSame ((f (s.work c)).map s.absorb)

end Sys2Proof.Machine
end

