-- ==== Sys2Proof/Machine/FabricCommands.lean ====
section
/-!
DEFINITION. The static fabric's commands (R132–R156): a token's arrival, credits, the grant pass, steering units and junctions, with the
errors that an edge network counts (R325).
-/
namespace Sys2Proof.Machine

/-- The network of a port or track: 1 vector, 2 scalar, 3 control (R132). -/
def networkOf (p : Nat) : Nat := if p < 8 then 1 else if p < 24 then 2 else 3

/-- The edge a port lies on, keyed 2 × cell key + south; an edge belongs to the cell west or north of it (R334). -/
def edgeOf (c : Coord) (dir : Nat) : Nat :=
  match dir with
  | 0 => 2 * ({ c with y := c.y - 1 } : Coord).key + 1
  | 1 => 2 * c.key
  | 2 => 2 * c.key + 1
  | _ => 2 * ({ c with x := c.x - 1 } : Coord).key

/-- The key of an edge's network 1–3: 4 × edge + its place in the cell record, 0 vector, 1 scalar, 2 control (R334). -/
def edgeNetwork (c : Coord) (dir net : Nat) : Nat := 4 * edgeOf c dir + (net - 1)

/-- A PARITY_LINK counts on its edge network; at a limit the network is marked down and the defect map's generation rises (R325, R333). -/
def DefectState.countFabric (d : DefectState) (e : Nat) : DefectState :=
  let n := d.fabricCount.get { step := 0, session := 0 } e
  let n : EdgeCount := { step := n.step + 1, session := n.session + 1 }
  let d := { d with fabricCount := d.fabricCount.set { step := 0, session := 0 } e n }
  if (n.step ≥ d.stepLimit ∨ n.session ≥ d.sessionLimit) ∧ e ∉ d.fabricDown then
    { d with fabricDown := d.fabricDown ++ [e], generation := d.generation + 1 }
  else d

/-- The token in front on the wires toward an input port arrives, after what the link did to it (R52, R140, R153, R155). -/
def State.tokenArrives (s : State) (c : Coord) (p : Nat) (err : TokenErr) : State :=
  let x := s.cell c
  if x.mode = .dead ∨ x.mode = .fenced then s
  else match x.fab.wires.get [] p with
    | [] => s
    | t :: rest =>
      let s := s.setCell c { x with fab := { x.fab with wires := x.fab.wires.set [] p rest } }
      let t := t.corrupt err
      let s := if t.sideBad || t.payload.parityError || t.ctlBad then
          { s with defects := s.defects.countFabric (edgeNetwork c (trackDir p) (networkOf p)) }
        else s
      s.event c fun w => w.tokenArrive p t

/-- TOKEN_ARRIVAL c port (R52, R153, R155). -/
def execTokenArrival (c : Coord) (port : Nat) (err : TokenErr) (s : State) : Answer :=
  answerIf (c.present && decide (port < 56)) (s.tokenArrives c port err)

/-- CREDIT_RETURN c: credits on their way back reach their counters (R141). -/
def execCreditReturn (c : Coord) (s : State) : Answer :=
  atCell c (s.mapCell c fun x => { x with fab := x.fab.creditsBack })

/-- One switch cycle of a cell, its tokens put on the wires toward the neighbours (R138–R140, R148). -/
def State.switchGrant (s : State) (c : Coord) : State :=
  let x := s.cell c
  if x.mode = .running ∨ x.mode = .halted then
    let (w, sent) := (s.work c).switchCycle
    sent.foldl (fun (s : State) e =>
      match c.neighbour (trackDir e.1) with
      | some n => s.mapCell n fun x => { x with fab := { x.fab with wires := x.fab.wires.upd [] (facing e.1) (· ++ [e.2]) } }
      | none => s) (s.absorb w)
  else s

/-- SWITCH_GRANT_CYCLE c (R139). -/
def execSwitchGrantCycle (c : Coord) (s : State) : Answer := atCell c (s.switchGrant c)

/-- STEER_FIRE c u (R149). -/
def execSteerFire (c : Coord) (u : Nat) (s : State) : Answer :=
  answerIf (c.present && decide (u < 4)) (s.orSame (((s.cell c).steerFire u).map (s.setCell c)))

/-- JUNCTION_FIRE c j (R152). -/
def execJunctionFire (c : Coord) (j : Nat) (s : State) : Answer :=
  answerIf (c.present && decide (j < 2)) (s.orSame (((s.cell c).junctionFire j).map (s.setCell c)))

/-- STEER_TIMEOUT c u: steering units 0–3, and junctions 0–1 as 4 and 5 (R150, R152). -/
def execSteerTimeout (c : Coord) (u : Nat) (s : State) : Answer :=
  answerIf (c.present && decide (u < 6)) (s.event? c fun w => w.steerTimeout u)

end Sys2Proof.Machine
end

