-- ==== Sys2Proof/Machine/Image.lean ====
section
/-!
DEFINITION. Region images (R160–R167, R299): reading the body, what it gives each cell, and where its coordinates fall.
-/
namespace Sys2Proof.Machine

/-- Are the bytes [o, o + n) all zero (short counts as not)? -/
def zeroAt (b : List Byte) (o n : Nat) : Bool := (sliceOf b o n).length == n && (sliceOf b o n).all (· == 0)

/-- A section (R161). -/
structure SectionRec where
  type : Nat
  length : Nat
  offset : Nat
  check : Nat
  deriving DecidableEq, Repr

/-- A cell record (R164). -/
structure CellRec where
  rx : Nat
  ry : Nat
  kind : Nat
  /-- CONTROL, STEPS, SWITCH, INIT, SPAD. -/
  refs : List Nat
  deriving DecidableEq, Repr

/-- A fix-up (R165). -/
structure Fixup where
  rx : Nat
  ry : Nat
  offset : Nat
  bit : Nat
  kind : Nat
  peer : Nat
  dx : Nat
  dy : Nat
  deriving DecidableEq, Repr

/-- A flock member (R166). -/
structure FlockMember where
  kind : Nat
  peer : Nat
  dx : Nat
  dy : Nat
  deriving DecidableEq, Repr

/-- A flock record (R166). -/
structure FlockRec where
  flock : Nat
  members : List FlockMember
  deriving DecidableEq, Repr

/-- A bank patch (R167). -/
structure Patch where
  rx : Nat
  ry : Nat
  offset : Nat
  even : Nat
  odd : Nat
  deriving DecidableEq, Repr

/-- A collective declaration (R299). -/
structure Collective where
  mode : Nat
  leaves : Nat
  gather : Nat
  anchor : Nat
  deadline : Nat
  lines : Nat
  leafBase : Nat
  recvBase : Nat
  result0 : Nat
  result1 : Nat
  checkBase : Nat
  members : List Nat
  deriving DecidableEq, Repr

/-- A region image (R160). -/
structure Image where
  w : Nat
  h : Nat
  sections : List SectionRec
  cells : List CellRec
  fixups : List Fixup
  musters : List Nat
  flocks : List FlockRec
  patches : List Patch
  collectives : List Collective
  deriving DecidableEq, Repr

/-- Records of `size` bytes in a table of a body: count and table offset. A count that no body of this length holds, which the checker refuses, reads
as one record more than fit (R160, R168). -/
def tableOf {α : Type} (b : List Byte) (count table size : Nat) (read : Nat → α) : List α :=
  (List.range (min count (b.length / size + 1))).map fun i => read (table + size * i)

/-- A cell record at an offset (R164). -/
def readCell (b : List Byte) (o : Nat) : CellRec :=
  { rx := numAt b o 2, ry := numAt b (o + 2) 2, kind := numAt b (o + 4) 1, refs := (List.range 5).map fun i => numAt b (o + 8 + 4 * i) 4 }

/-- A section entry at an offset (R161). -/
def readSection (b : List Byte) (o : Nat) : SectionRec :=
  { type := numAt b o 1, length := numAt b (o + 4) 4, offset := numAt b (o + 8) 4, check := numAt b (o + 12) 4 }

/-- A fix-up at an offset (R165). -/
def readFixup (b : List Byte) (o : Nat) : Fixup :=
  { rx := numAt b o 2, ry := numAt b (o + 2) 2, offset := numAt b (o + 4) 4, bit := numAt b (o + 8) 1, kind := numAt b (o + 9) 1,
    peer := numAt b (o + 10) 2, dx := numAt b (o + 12) 2, dy := numAt b (o + 14) 2 }

/-- A flock record at an offset, with its members (R166). -/
def readFlock (b : List Byte) (o : Nat) : FlockRec :=
  { flock := numAt b o 2
    members := tableOf b (numAt b (o + 4) 4) (numAt b (o + 8) 4) 8 fun m =>
      { kind := numAt b m 1, peer := numAt b (m + 2) 2, dx := numAt b (m + 4) 2, dy := numAt b (m + 6) 2 } }

/-- A bank patch at an offset (R167). -/
def readPatch (b : List Byte) (o : Nat) : Patch :=
  { rx := numAt b o 2, ry := numAt b (o + 2) 2, offset := numAt b (o + 4) 4, even := numAt b (o + 8) 8, odd := numAt b (o + 16) 8 }

/-- A collective declaration at an offset (R299). -/
def readCollective (b : List Byte) (o : Nat) : Collective :=
  { mode := numAt b o 1, leaves := numAt b (o + 1) 1, gather := numAt b (o + 2) 2, anchor := numAt b (o + 4) 2,
    deadline := numAt b (o + 6) 2, lines := numAt b (o + 8) 4, leafBase := numAt b (o + 16) 8, recvBase := numAt b (o + 24) 8,
    result0 := numAt b (o + 32) 8, result1 := numAt b (o + 40) 8, checkBase := numAt b (o + 48) 8,
    members := tableOf b (numAt b (o + 12) 2) (numAt b (o + 56) 4) 2 fun m => numAt b m 2 }

/-- The image that a body spells (R160). -/
def Image.ofBody (b : List Byte) : Image :=
  { w := numAt b 8 1, h := numAt b 9 1
    sections := tableOf b (numAt b 16 4) (numAt b 20 4) 16 (readSection b)
    cells := tableOf b (numAt b 24 4) (numAt b 28 4) 32 (readCell b)
    fixups := tableOf b (numAt b 32 4) (numAt b 36 4) 16 (readFixup b)
    musters := tableOf b (numAt b 40 2) (numAt b 44 4) 2 fun o => numAt b o 2
    flocks := tableOf b (numAt b 48 2) (numAt b 52 4) 16 (readFlock b)
    patches := tableOf b (numAt b 56 4) (numAt b 60 4) 24 (readPatch b)
    collectives := tableOf b (numAt b 64 4) (numAt b 68 4) 64 (readCollective b) }

/-! ### What an image gives a cell (R162–R164) -/

/-- Kind code of a record (R164). -/
def kindOfCode (n : Nat) : CellKind := if n = 1 then .m else if n = 2 then .f else .t

/-- The bytes of section `n`, none for 0 (R161). -/
def Image.bytes (im : Image) (b : List Byte) (n : Nat) : List Byte :=
  match n with
  | 0 => []
  | k + 1 => match im.sections[k]? with
    | some s => sliceOf b s.offset s.length
    | none => []

/-- A table of `n` 64-bit words at an offset, keyed from `base`. -/
def wordsAt (b : List Byte) (o n base : Nat) (m : SMap Reg64) : SMap Reg64 :=
  (List.range n).foldl (fun m i => m.set 0 (base + i) (BitVec.ofNat 64 (numAt b (o + 8 * i) 8))) m

/-- FOLD_ACTIVE that a CONTROL section gives. -/
def activeOf (control : List Byte) : List Nat := (List.range 8).filter fun f => bitAt (numAt control 0 8) f

/-- The registers that CONTROL, STEPS and SWITCH sections give (R162); GEN keeps the cell's bit (R169). -/
def regsOf (control steps switch : List Byte) (gen : Bool) : CellRegs :=
  let folds := activeOf control
  let places := folds.zip (List.range folds.length)
  let cc := numAt control 0 8
  { stepTable := places.foldl (fun m p => (List.range 32).foldl (fun m e =>
      m.set 0 (32 * p.1 + e) (BitVec.ofNat 128 (numAt steps (512 * p.2 + 16 * e) 16))) m) []
    cellControl := BitVec.ofNat 64 (if bitAt cc 16 = gen then cc else Nat.xor cc 0x10000)
    foldStart := BitVec.ofNat 64 (numAt control 8 8)
    sheepdog := BitVec.ofNat 64 (numAt control 16 8)
    tallyStepClear := BitVec.ofNat 64 (numAt control 24 8)
    sheepdogExempt := BitVec.ofNat 64 (numAt control 32 8)
    agConfig := wordsAt control 40 16 0 []
    meshTarget := wordsAt control 168 16 0 []
    portPart := wordsAt control 296 56 0 []
    foldSwitch := places.foldl (fun m p => m.set 0 p.1 (BitVec.ofNat 64 (numAt switch (816 * p.2) 8))) []
    route := places.foldl (fun m p => wordsAt switch (816 * p.2 + 0x40) 56 (56 * p.1) m) []
    portCount := places.foldl (fun m p => (List.range 56).foldl (fun m o =>
      m.set 0 (56 * p.1 + o) (BitVec.ofNat 32 (numAt switch (816 * p.2 + 0x200 + 4 * o) 4))) m) []
    steer := places.foldl (fun m p => wordsAt switch (816 * p.2 + 0x300) 4 (4 * p.1) m) []
    junction := places.foldl (fun m p => wordsAt switch (816 * p.2 + 0x320) 2 (2 * p.1) m) []
    switchControl := BitVec.ofNat 64 (numAt switch (816 * folds.length) 8) }

/-- The registers of an idle cell: reset values, FOLD_ACTIVE 0x01 and fold 0 with PASSES 0 (R164). -/
def idleRegs (gen : Bool) : CellRegs :=
  { CellRegs.reset with cellControl := if gen then 0x14001 else 0x4001 }

/-- A run of a SPAD section (R163): where its bytes stand in the section, whether one byte fills the run, its offset, bytes, and whether it is valid. -/
structure SpadRun where
  start : Nat
  fill : Bool
  offset : Nat
  data : List Byte
  ok : Bool
  deriving DecidableEq, Repr

/-- The runs of a SPAD section from its byte `o` on (R163); `fuel` bounds their number. -/
def spadRuns : Nat → Nat → List Byte → List SpadRun
  | 0, _, _ => []
  | _ + 1, _, [] => []
  | fuel + 1, o, b =>
    let op := numAt b 0 1
    let len := numAt b 4 2
    let off := 8 * numAt b 6 2
    let pad := (len + 7) / 8 * 8
    if op = 1 then
      { start := o + 8, fill := false, offset := off, data := sliceOf b 8 len
        ok := zeroAt b 1 3 && decide (1 ≤ len ∧ 8 + pad ≤ b.length) && zeroAt b (8 + len) (pad - len) } ::
      spadRuns fuel (o + 8 + pad) (b.drop (8 + pad))
    else
      { start := o + 8, fill := true, offset := off, data := List.replicate len ((b.drop 8).headD 0)
        ok := op == 2 && zeroAt b 1 3 && decide (1 ≤ len ∧ 16 ≤ b.length) && zeroAt b 9 7 } ::
      spadRuns fuel (o + 16) (b.drop 16)

/-- The scratchpad a SPAD section leaves, every other byte 0x00 with correct parity (R110, R163). -/
def spadOf (sec : List Byte) : Memory :=
  (spadRuns (sec.length / 8) 0 sec).foldl (fun m r => padWrite m r.offset (r.data.map PByte.ofData)) []

/-- What an INIT section gives: the accumulators' starting words and the tallies (R73, R162). -/
def accsOf (init : List Byte) : SMap Word256 :=
  (List.range 8).foldl (fun m n => m.set 0 n (anchorWord (numAt init (4 * n) 2) (numAt init (4 * n + 2) 1 == 1))) []

/-- INIT values of the tallies (R162). -/
def talliesOf (init : List Byte) : SMap Tally :=
  (List.range 48).foldl (fun m t => m.set .zero t { value := numAt init (32 + 4 * t) 4, last := none }) []

/-- The record of a relative coordinate. -/
def Image.record (im : Image) (rx ry : Nat) : Option CellRec := im.cells.find? fun c => c.rx == rx && c.ry == ry

/-- The cell an image puts at a relative coordinate, LOADED, keeping the GEN bit (R110, R164, R169). -/
def Image.cell (im : Image) (b : List Byte) (rx ry : Nat) (gen : Bool) : Cell :=
  match im.record rx ry with
  | none => { Cell.reset with mode := .loaded, regs := idleRegs gen }
  | some r =>
    let sec := fun i => im.bytes b (r.refs.getD i 0)
    { Cell.reset with
      mode := .loaded, regs := regsOf (sec 0) (sec 1) (sec 2) gen, tallies := talliesOf (sec 3),
      pad := { PadState.reset with bytes := spadOf (sec 4) } }

/-- The accumulators' step-start words of a relative coordinate (R48, R73). -/
def Image.accs (im : Image) (b : List Byte) (rx ry : Nat) : SMap Word256 :=
  match im.record rx ry with
  | none => []
  | some r => if r.kind = 0 ∧ r.refs.getD 3 0 ≠ 0 then accsOf (im.bytes b (r.refs.getD 3 0)) else []

/-! ### Patches and fix-ups (R165, R167) -/

/-- Write a 64-bit word at a cell-local offset: a register of the map, or scratchpad. -/
def Cell.putWord (c : Cell) (off v : Nat) : Cell :=
  if off < 0x100000 then c.putBytes off (Payload.ofNat 8 v)
  else c.storeWord off v

/-- The 64-bit word at a cell-local offset that a fix-up may change. -/
def Cell.fixWord (c : Cell) (off : Nat) : Nat :=
  if off < 0x100000 then (c.stored off 8).toNat else (c.regs.meshTarget.get 0 ((off - 0x3F0140) / 8)).toNat

/-- Put a coordinate into a word: x at [BIT + 9 : BIT], y at [BIT + 19 : BIT + 10] (R165). -/
def putCoord (word bit : Nat) (c : Coord) : Nat :=
  word - bits word bit 20 * 2 ^ bit + (c.x % 1024 + 1024 * (c.y % 1024)) * 2 ^ bit

/-- Apply the bank patches for step `n`, then the fix-ups, to the cell at a relative coordinate; `target` resolves a fix-up (R165, R167). -/
def Image.settle (im : Image) (n : Nat) (target : Fixup → Option Coord) (rx ry : Nat) (c : Cell) : Cell :=
  let c := (im.patches.filter fun p => p.rx == rx && p.ry == ry).foldl (fun (c : Cell) p =>
    c.putWord p.offset (if n % 2 = 0 then p.even else p.odd)) c
  (im.fixups.filter fun f => f.rx == rx && f.ry == ry).foldl (fun (c : Cell) f =>
    match target f with
    | some t => c.putWord f.offset (putCoord (c.fixWord f.offset) f.bit t)
    | none => c) c

/-- A cell at a relative coordinate of a region placed at (bx, oy) (R158). -/
def placed (bx oy rx ry : Nat) : Coord := { x := 8 * bx + rx, y := 8 * oy + ry }

/-- The region a PEER names, the region being loaded standing for itself (R165). -/
def State.peerCell (s : State) (self bx oy kind peer dx dy : Nat) : Option Coord :=
  if kind = 1 ∨ peer = self then some (placed bx oy dx dy)
  else match s.regions.find peer with
    | some r => if r.mode = .empty ∨ r.releasing then none else some (placed r.bx r.oy dx dy)
    | none => none

/-- The part of a run that stands in bytes [lo, hi) of its section: scratchpad offset and bytes (R163). -/
def SpadRun.part (r : SpadRun) (lo hi : Nat) : Nat × List Byte :=
  if r.fill then (r.offset, if lo ≤ r.start ∧ r.start < hi then r.data else [])
  else
    let first := max lo r.start - r.start
    (r.offset + first, (r.data.take (hi - r.start)).drop first)

/-- The word of the cell's map that byte `o` of a section of registers fills, `folds` the active ones (R54, R162); an INIT section's accumulator fields
fill none. -/
def sectionWord (type : Nat) (folds : List Nat) (o : Nat) : Nat :=
  match type with
  | 1 => if o < 40 then 0x3F0010 + o else if o < 168 then 0x3F0040 + (o - 40) else if o < 296 then 0x3F0140 + (o - 168) else 0x3F0200 + (o - 296)
  | 2 => 0x200000 + 512 * folds.getD (o / 512) 0 + o % 512
  | _ => if o < 816 * folds.length then 0x300000 + 0x400 * folds.getD (o / 816) 0 + o % 816 else 0x302000

/-- Bytes [lo, lo + n) of a section go to their places in a cell: words of registers, tallies, or scratchpad; GEN stays as it is (R54, R162, R163, R169,
R359). -/
def Cell.putSection (c : Cell) (type : Nat) (folds : List Nat) (section_ : List Byte) (lo : Nat) (bytes : List Byte) : Cell :=
  match type with
  | 4 => (List.range (bytes.length / 4)).foldl (fun (c : Cell) i =>
      let o := lo + 4 * i
      if o < 32 then c else { c with tallies := c.tallies.set .zero ((o - 32) / 4) { value := numAt bytes (4 * i) 4, last := none } }) c
  | 5 =>
    (spadRuns (section_.length / 8) 0 section_).foldl (fun (c : Cell) r =>
      let (off, d) := r.part lo (lo + bytes.length)
      c.putBytes off (d.map PByte.ofData)) c
  | _ => (List.range (bytes.length / 8)).foldl (fun (c : Cell) i =>
      let o := lo + 8 * i
      let v := numAt bytes (8 * i) 8
      let keep := bits c.regs.cellControl.toNat 16 1
      let v := if type = 1 ∧ o = 0 then v - bits v 16 1 * 2 ^ 16 + keep * 2 ^ 16 else v
      c.storeWord (sectionWord type folds o) v) c

/-- The global cell a fix-up names (R165). -/
def State.fixTarget (s : State) (self bx oy : Nat) (f : Fixup) : Option Coord := s.peerCell self bx oy f.kind f.peer f.dx f.dy

/-- The members of a flock, resolved (R166). -/
def State.flockCells (s : State) (self bx oy : Nat) (f : FlockRec) : List Coord :=
  f.members.filterMap fun m => s.peerCell self bx oy m.kind m.peer m.dx m.dy

/-! ### Entries as an image declares them -/

/-- Every entry of the active folds: fold, number, entry. -/
def CellRegs.entries (r : CellRegs) : List (Nat × Nat × Entry) :=
  r.folds.flatMap fun f => (List.range 32).map fun n => (f, n, r.entry f n)

/-- Musters a cell's MUSTER_ENTER entries name, with fold and REPEAT_COUNT (R251). -/
def CellRegs.musterEntries (r : CellRegs) : List (Nat × Nat × Nat) :=
  r.entries.filterMap fun e => if e.2.2.cls = 0 ∧ e.2.2.op = 5 then some (e.1, bits e.2.2.imm 0 8, e.2.2.rep) else none

/-- Musters the cell takes part in: REPEAT_COUNT 1 entries (R43, R251). -/
def CellRegs.partIn (r : CellRegs) : List Nat := ((r.musterEntries.filter fun e => e.2.2 == 1).map fun e => e.2.1).dedup

/-- Flocks a cell's FLOCK_PUT entries name (R208). -/
def CellRegs.flocksNamed (r : CellRegs) : List Nat :=
  (r.entries.filterMap fun e => if e.2.2.cls = 6 ∧ e.2.2.op = 3 then some (bits e.2.2.imm 0 12) else none).dedup

/-- Registers a record gives (GEN 0). -/
def Image.regs (im : Image) (b : List Byte) (r : CellRec) : CellRegs :=
  regsOf (im.bytes b (r.refs.getD 0 0)) (im.bytes b (r.refs.getD 1 0)) (im.bytes b (r.refs.getD 2 0)) false

end Sys2Proof.Machine
end

