-- ==== Sys2Proof/Machine/Checker.lean ====
section
/-!
DEFINITION. The load-time checker (R168): its rules 2–10 in order, with the token graph of R146, the muster tree an image needs
(R251, R253), collective declarations (R300) and placement (R158, R323, R341).
-/
namespace Sys2Proof.Machine

/-! ### The muster tree's nodes (R253) -/

/-- The block node, field root, row node and apex above a cell: level 0–3. -/
def treeNode (level : Nat) (c : Coord) : Nat :=
  match level with
  | 0 => blockNode c
  | 1 => 10000 + c.field
  | 2 => 11000 + rowOfField c.field
  | _ => 12000

/-- The parent of a node. -/
def treeParent (n : Nat) : Nat := if n < 10000 then 10000 + n / 120 else if n < 11000 then 11000 + rowOfField (n - 10000) else 12000

/-- Level of the lowest node whose subtree holds every cell (R253). -/
def topLevel (cells : List Coord) : Nat :=
  let same := fun (l : Nat) => match cells with
    | [] => true
    | c :: rest => rest.all fun d => treeNode l d == treeNode l c
  if same 0 then 0 else if same 1 then 1 else if same 2 then 2 else 3

/-- Row nodes and the apex a muster over these cells passes through (R254): logical numbers 0–7, and 8. -/
def nodesNeeded (top : Nat) (cells : List Coord) : List Nat :=
  (if 2 ≤ top then (cells.map fun c => rowOfField c.field).dedup else []) ++ (if 3 ≤ top then [8] else [])

/-! ### Rules 2–6 -/

/-- A table of `count` records of `size` bytes lies in the body at a multiple of 8; an empty one has offset 0 (R160). -/
def tableOk (len count off size : Nat) : Bool :=
  if count = 0 then off == 0 else off % 8 == 0 && decide (off + count * size ≤ len)

/-- Rule 2: header, tables and reserved bytes (R160–R166, R299). -/
def Image.headerOk (im : Image) (b : List Byte) : Bool :=
  let len := b.length
  let n := numAt b
  decide (128 ≤ len) && n 0 4 == 0x49525653 && n 4 2 == 1 && n 6 2 == 0 && zeroAt b 10 2 && n 12 4 == len &&
  decide (1 ≤ im.w ∧ im.w ≤ 120 ∧ 1 ≤ im.h ∧ im.h ≤ 80) &&
  decide (1 ≤ n 16 4) && decide (1 ≤ n 24 4 ∧ n 24 4 ≤ im.w * im.h * 64) && decide (2 ≤ n 40 2 ∧ n 40 2 ≤ 256) &&
  decide (n 48 2 ≤ 4096) && zeroAt b 42 2 && zeroAt b 50 2 && zeroAt b 72 56 &&
  tableOk len (n 16 4) (n 20 4) 16 && tableOk len (n 24 4) (n 28 4) 32 && tableOk len (n 32 4) (n 36 4) 16 &&
  tableOk len (n 40 2) (n 44 4) 2 && tableOk len (n 48 2) (n 52 4) 16 && tableOk len (n 56 4) (n 60 4) 24 &&
  tableOk len (n 64 4) (n 68 4) 64 &&
  (List.range (n 16 4)).all (fun i =>
    let o := n 20 4 + 16 * i
    let s := readSection b o
    zeroAt b (o + 1) 3 && decide (1 ≤ s.length) && s.offset % 8 == 0 && decide (s.offset + s.length ≤ len)) &&
  (List.range (n 24 4)).all (fun i =>
    let o := n 28 4 + 32 * i
    zeroAt b (o + 5) 3 && zeroAt b (o + 28) 4) &&
  (List.range (n 48 2)).all (fun i =>
    let o := n 52 4 + 16 * i
    let m := n (o + 8) 4
    zeroAt b (o + 2) 2 && zeroAt b (o + 12) 4 && tableOk len (n (o + 4) 4) m 8 &&
    (List.range (n (o + 4) 4)).all fun k => zeroAt b (m + 8 * k + 1) 1) &&
  (List.range (n 64 4)).all (fun i =>
    let o := n 68 4 + 64 * i
    let c := n (o + 12) 2
    let m := n (o + 56) 4
    zeroAt b (o + 14) 2 && zeroAt b (o + 60) 4 && m % 8 == 0 && decide (m + (2 * c + 7) / 8 * 8 ≤ len) &&
    zeroAt b (m + 2 * c) ((2 * c + 7) / 8 * 8 - 2 * c))

/-- The TYPE of a record's columns: CONTROL, STEPS, SWITCH, INIT, SPAD (R161, R164). -/
def columnType (col : Nat) : Nat := col + 1

/-- The section a record names in a column. -/
def Image.sectionOf (im : Image) (r : CellRec) (col : Nat) : Option SectionRec :=
  match r.refs.getD col 0 with
  | 0 => none
  | k + 1 => im.sections[k]?

/-- The length R162 gives a column's section, with `folds` active folds. -/
def lengthOk (col folds len : Nat) : Bool :=
  match col with
  | 0 => len == 744
  | 1 => len == 512 * folds
  | 2 => len == 816 * folds + 8
  | 3 => len == 224
  | _ => decide (8 ≤ len)

/-- The bytes of a SWITCH section that name no register are zero (R162). -/
def switchZeros (b : List Byte) (folds : Nat) : Bool :=
  (List.range folds).all fun f => zeroAt b (816 * f + 8) 0x38 && zeroAt b (816 * f + 0x2E0) 0x20

/-- INIT's reserved bytes are zero, EXACT is 0x00 or 0x01, and an F-cell's or M-cell's accumulator fields are zero (R162). -/
def initOk (b : List Byte) (k : CellKind) : Bool :=
  ((List.range 8).all fun n => numAt b (4 * n + 3) 1 == 0 && decide (numAt b (4 * n + 2) 1 ≤ 1)) && (k == .t || zeroAt b 0 32)

/-- What R162 asks of a section by its TYPE alone: a length that some number of active folds gives, its zero bytes, and INIT's bytes. -/
def sectionOk (s : SectionRec) (d : List Byte) : Bool :=
  match s.type with
  | 1 => lengthOk 0 0 s.length
  | 2 => (List.range 9).any fun folds => lengthOk 1 folds s.length
  | 3 => (List.range 9).any fun folds => lengthOk 2 folds s.length && switchZeros d folds
  | 4 => lengthOk 3 0 s.length && initOk d .t
  | _ => lengthOk 4 0 s.length

/-- Rule 3: checks, types and lengths of sections, each by itself and as the cells that refer to it need it (R161, R162). -/
def Image.sectionsOk (im : Image) (b : List Byte) : Bool :=
  im.sections.all (fun s =>
    let d := sliceOf b s.offset s.length
    s.check == crc32c d && decide (1 ≤ s.type ∧ s.type ≤ 5) && sectionOk s d) &&
  im.cells.all fun r =>
    let folds := (activeOf (im.bytes b (r.refs.getD 0 0))).length
    (List.range 5).all fun col => match im.sectionOf r col with
      | none => true
      | some s => s.type != columnType col || (lengthOk col folds s.length && (col != 3 || initOk (sliceOf b s.offset s.length) (kindOfCode r.kind)))

/-- SPAD runs ascend, do not overlap and stay in the extent (R163). -/
def runsOk (k : CellKind) : Nat → List SpadRun → Bool
  | _, [] => true
  | lo, r :: rest => r.ok && decide (1 ≤ r.data.length ∧ lo ≤ r.offset ∧ r.offset + r.data.length ≤ k.spadBytes) && runsOk k (r.offset + r.data.length) rest

/-- The runs of a SPAD section meet R163 in a cell of a kind. -/
def spadOk (d : List Byte) (k : CellKind) : Bool := runsOk k 0 (spadRuns (d.length / 8 + 1) 0 d)

/-- The runs of every SPAD section meet R163, whether a record names it or not: in a cell of some kind. -/
def Image.spadsOk (im : Image) (b : List Byte) : Bool :=
  im.sections.all fun s => s.type != 5 || [CellKind.t, .f, .m].any fun k => spadOk (sliceOf b s.offset s.length) k

/-- Rule 4: cell records and the sections they name (R163, R164). -/
def Image.recordsOk (im : Image) (b : List Byte) : Bool :=
  im.spadsOk b && decide ((im.cells.map fun r => (r.rx, r.ry)).Nodup) &&
  im.cells.all fun r =>
    decide (r.rx < 8 * im.w ∧ r.ry < 8 * im.h) && r.kind == kindCode ({ x := r.rx, y := r.ry } : Coord).kind &&
    (List.range 5).all (fun col => match r.refs.getD col 0 with
      | 0 => decide (3 ≤ col)
      | k + 1 => match im.sections[k]? with | some s => s.type == columnType col | none => false) &&
    (r.refs.getD 4 0 == 0 || spadOk (im.bytes b (r.refs.getD 4 0)) (kindOfCode r.kind))

/-- A register word has no bit at or above `n`. -/
def clearFrom (w : Reg64) (n : Nat) : Bool := w.toNat >>> n == 0

/-- The words of a table of `n` at an offset have no bit at or above `top`. -/
def wordsClear (d : List Byte) (o n top : Nat) : Bool := (List.range n).all fun i => numAt d (o + 8 * i) 8 >>> top == 0

/-- Every register word that a CONTROL or SWITCH section carries has its reserved bits zero (R56, R58, R135–R137, R147, R151, R162); log entry 27 has
TALLY_STEP_CLEAR and SHEEPDOG_EXEMPT. -/
def sectionWordsOk (s : SectionRec) (d : List Byte) : Bool :=
  match s.type with
  | 1 =>
    wordsClear d 0 1 17 && wordsClear d 8 1 40 && wordsClear d 16 1 16 && wordsClear d 40 16 53 && wordsClear d 168 16 51 && wordsClear d 296 56 40
  | 3 =>
    let folds := s.length / 816
    (List.range folds).all (fun f =>
      wordsClear d (816 * f) 1 16 && wordsClear d (816 * f + 0x40) 56 12 && wordsClear d (816 * f + 0x300) 4 23 && wordsClear d (816 * f + 0x320) 2 7) &&
    wordsClear d (816 * folds) 1 16
  | _ => true

/-- ROUTE, STEER, JUNCTION, FOLD_SWITCH, SWITCH_CONTROL and the CONTROL words hold valid fields and no reserved bit (R56, R58, R135–R137, R146, R147, R151). -/
def CellRegs.wordsOk (r : CellRegs) : Bool :=
  clearFrom r.cellControl 17 && clearFrom r.foldStart 40 && clearFrom r.sheepdog 16 && clearFrom r.switchControl 16 &&
  (List.range 16).all (fun n => clearFrom (r.agConfig.get 0 n) 53 && clearFrom (r.meshTarget.get 0 n) 51) &&
  (List.range 56).all (fun p => clearFrom (r.portPart.get 0 p) 40) &&
  r.folds.all fun f =>
    clearFrom (r.foldSwitch.get 0 f) 16 &&
    (List.range 56).all (fun o =>
      let sel := r.routeSel f o
      clearFrom (r.route.get 0 (56 * f + o)) 12 &&
      (match r.routeKind f o with
       | 0 | 2 => sel == 0
       | 1 => decide (sel < 56) && networkOf sel == networkOf o && trackDir sel != trackDir o
       | 3 => decide (sel < 4) && networkOf o == networkOf (r.steerOf f sel).aPort && (r.steerOf f sel).en
       | 4 => decide (sel < 2) && networkOf o == 1 && (r.junctionOf f sel).1
       | _ => false)) &&
    (List.range 4).all (fun u =>
      let c := r.steerOf f u
      let w := r.steer.get 0 (4 * f + u)
      if c.en then
        clearFrom w 23 && decide (c.aPort < 24 ∧ 24 ≤ c.ctrlPort ∧ c.ctrlPort < 56) &&
        (if c.mask then c.bPort == 0 else decide (c.bPort < 24) && networkOf c.bPort == networkOf c.aPort)
      else w == 0) &&
    (List.range 2).all (fun j =>
      let w := r.junction.get 0 (2 * f + j)
      let (en, x, y) := r.junctionOf f j
      if en then clearFrom w 7 && x != y else w == 0)

/-- Does fold f's sequencer take tokens from port p? -/
def CellRegs.seqPops (r : CellRegs) (k : CellKind) (f p : Nat) : Bool :=
  (List.range 32).any fun n => ((r.entry f n).popPorts k).any fun q => q.1 == p

/-- Every slice of fold f has one kind of consumer (R138). -/
def CellRegs.oneConsumer (r : CellRegs) (k : CellKind) (f : Nat) : Bool :=
  (List.range 56).all fun p =>
    let units := (r.unitInputs f).count p
    let routes := (r.multicast f p).length
    decide (routes ≤ 4) && decide (units ≤ 1) &&
    decide ((if r.seqPops k f p || r.popsOf f p != 0 then 1 else 0) + (if routes = 0 then 0 else 1) + (if units = 0 then 0 else 1) ≤ 1)

/-- Two folds' routes on one track have different tags (R146). -/
def CellRegs.tagsApart (r : CellRegs) : Bool :=
  (List.range 56).all fun o => decide (((r.folds.filter fun f => r.routeKind f o != 0).map fun f => r.routeTag f o).Nodup)

/-- A generator's BASE lies in the scratchpad and a wrap is not 0 (R58). -/
def CellRegs.generatorsOk (r : CellRegs) (k : CellKind) : Bool :=
  (List.range 16).all fun n =>
    let g := r.agOf n
    decide (g.base < k.spadBytes) && !(g.wrapEn && g.wrap == 0)

/-- Lookup descriptors that LOOKUP entries of active folds name pass R94 in the preload. -/
def lookupsOk (r : CellRegs) (mem : Memory) : Bool :=
  r.entries.all fun e =>
    let e := e.2.2
    if e.cls = 4 ∧ e.op = 13 then
      lookupOk (Payload.toNat ((List.range 8).map fun i => mem.get PByte.zero (0xFF80 + 8 * (e.imm % 16) + i))) e.fmt
    else true

/-! ### The token graph (R146) -/

/-- The image's cells as the graph sees them: relative coordinate and registers. -/
abbrev Graph := List ((Nat × Nat) × CellRegs)

/-- The registers at a relative coordinate. -/
def Graph.regs (g : Graph) (x y : Nat) : Option CellRegs := (g.find? fun e => e.1 == (x, y)).map (·.2)

/-- The relative cell across an edge, if in the rectangle. -/
def across (w h x y dir : Nat) : Option (Nat × Nat) :=
  match dir with
  | 0 => if y = 0 then none else some (x, y - 1)
  | 1 => if x + 1 < 8 * w then some (x + 1, y) else none
  | 2 => if y + 1 < 8 * h then some (x, y + 1) else none
  | _ => if x = 0 then none else some (x - 1, y)

/-- The route that feeds the slice of fold f at input port p: the cell upstream, its registers, its fold and its track. -/
def Graph.feeder (g : Graph) (w h x y p f : Nat) : Option ((Nat × Nat) × CellRegs × Nat × Nat) :=
  match across w h x y (trackDir p) with
  | none => none
  | some n => match g.regs n.1 n.2 with
    | none => none
    | some r => (r.folds.find? fun q => r.routeKind q (facing p) != 0 && r.routeTag q (facing p) == f).map fun q => (n, r, q, facing p)

/-- Following PORT routes upstream from a slice never ends within `fuel` (R146). -/
def Graph.portLoop (g : Graph) (w h : Nat) : Nat → Nat → Nat → Nat → Nat → Bool
  | 0, _, _, _, _ => true
  | fuel + 1, x, y, p, f => match g.feeder w h x y p f with
    | some (n, r, q, o) => if r.routeKind q o = 1 then g.portLoop w h fuel n.1 n.2 (r.routeSel q o) q else false
    | none => false

/-- The tokens per step that reach the slice of fold f at port p: none where they do not derive from sequencer pushes (R146, R149, R152). -/
def Graph.total (g : Graph) (w h : Nat) : Nat → Nat → Nat → Nat → Nat → Option Nat
  | 0, _, _, _, _ => none
  | fuel + 1, x, y, p, f => match g.feeder w h x y p f with
    | none => none
    | some (n, r, q, o) =>
      let sel := r.routeSel q o
      let of := fun (port : Nat) => g.total w h fuel n.1 n.2 port q
      match r.routeKind q o with
      | 1 => of sel
      | 2 => some (r.pushesOf q o * r.passes q)
      | 3 =>
        let c := r.steerOf q sel
        match of c.ctrlPort, of c.aPort, (if c.mask then some 0 else of c.bPort) with
        | some t, some _, some _ => some t
        | _, _, _ => none
      | _ =>
        let (_, a, b) := r.junctionOf q sel
        match of a, of b with
        | some t, some _ => some t
        | _, _ => none

/-- Slices of one cell: fold and port. -/
def allSlices : List (Nat × Nat) := (List.range 8).flatMap fun f => (List.range 56).map fun p => (f, p)

/-- The image's cells with their registers. -/
def Image.graph (im : Image) (b : List Byte) : Graph := im.cells.map fun r => ((r.rx, r.ry), im.regs b r)

/-- The kind of a relative cell. -/
def kindAt (x y : Nat) : CellKind := ({ x, y } : Coord).kind

/-- The CONFIG_INVALID rows of R146 that look across cells: routes stay inside, tags are apart, no PORT loop. -/
def Graph.routesOk (g : Graph) (w h : Nat) : Bool :=
  let fuel := 448 * g.length + 1
  g.all (fun e => e.2.folds.all fun f => (List.range 56).all fun o =>
    e.2.routeKind f o == 0 || (across w h e.1.1 e.1.2 (trackDir o)).isSome) &&
  g.all (fun e => e.2.folds.all (e.2.oneConsumer (kindAt e.1.1 e.1.2))) &&
  g.all (fun e => e.2.tagsApart) &&
  g.all (fun e => allSlices.all fun s => !(g.portLoop w h fuel e.1.1 e.1.2 s.2 s.1)) &&
  g.all fun e =>
    (List.range 4).all (fun u => decide ((e.2.folds.filter fun f => (e.2.steerOf f u).en).length ≤ 1)) &&
    (List.range 2).all (fun j => decide ((e.2.folds.filter fun f => (e.2.junctionOf f j).1).length ≤ 1))

/-- Does a fold consume a slice at all? -/
def CellRegs.consumes (r : CellRegs) (k : CellKind) (f p : Nat) : Bool :=
  r.foldActive f && (r.seqPops k f p || r.popsOf f p != 0 || !(r.multicast f p).isEmpty || decide (p ∈ r.unitInputs f))

/-- Rule 9: partitions and tag paths (R52, R146). -/
def Graph.partitionsOk (g : Graph) (w h : Nat) : Bool :=
  g.all (fun e => e.2.folds.all fun f => (List.range 56).all fun o =>
    e.2.routeKind f o == 0 || match across w h e.1.1 e.1.2 (trackDir o) with
      | none => false
      | some n => match g.regs n.1 n.2 with
        | none => false
        | some r => r.consumes (kindAt n.1 n.2) (e.2.routeTag f o) (facing o)) &&
  g.all fun e => (List.range 56).all fun p =>
    let sizes := (List.range 8).map fun f => e.2.slice p f
    sizes.all (fun n => n == 0 || decide (2 ≤ n ∧ n ≤ 16)) && decide (sizes.sum ≤ 16) &&
    (List.range 8).all fun f =>
      !(e.2.consumes (kindAt e.1.1 e.1.2) f p || (g.feeder w h e.1.1 e.1.2 p f).isSome) || decide (2 ≤ e.2.slice p f)

/-- Rule 10: units derive from sequencer pushes and counts balance (R146, R149, R152). -/
def Graph.ratesOk (g : Graph) (w h : Nat) : Bool :=
  let fuel := 448 * g.length + 1
  let total := fun (e : (Nat × Nat) × CellRegs) (f p : Nat) => g.total w h fuel e.1.1 e.1.2 p f
  g.all (fun e => e.2.folds.all fun f => (e.2.unitInputs f).all fun p => (total e f p).isSome) &&
  g.all fun e => e.2.folds.all fun f =>
    (List.range 56).all (fun p =>
      !(e.2.seqPops (kindAt e.1.1 e.1.2) f p || e.2.popsOf f p != 0) || (total e f p).getD 0 == e.2.popsOf f p * e.2.passes f) &&
    (List.range 4).all (fun u =>
      let c := e.2.steerOf f u
      !c.en || (total e f c.aPort == total e f c.ctrlPort && (c.mask || total e f c.bPort == total e f c.ctrlPort))) &&
    (List.range 2).all (fun j =>
      let (en, a, b) := e.2.junctionOf f j
      !en || total e f a == total e f b)

/-- Rule 5: entries, generators, lookups, channels, register words and the routes of R146. -/
def Image.contentOk (im : Image) (b : List Byte) : Bool :=
  im.sections.all (fun s => sectionWordsOk s (sliceOf b s.offset s.length)) &&
  im.cells.all (fun r =>
    let k := kindOfCode r.kind
    let regs := im.regs b r
    let mem := spadOf (im.bytes b (r.refs.getD 4 0))
    regs.entries.all (fun e => entryOk k regs e.1 e.2.2) && regs.generatorsOk k && (k != .f || lookupsOk regs mem) &&
    !(latchChannels k mem regs.tallyStepClear.toNat (regs.cmpTargets k)).2 && regs.wordsOk) &&
  (im.graph b).routesOk im.w im.h

/-- FOLD_ACTIVE, FOLD_QUANTUM, SHEEPDOG and STEER_TIMEOUT are not zero (R56, R137). -/
def CellRegs.startable (r : CellRegs) : Bool :=
  !r.folds.isEmpty && r.quantum != 0 && r.sheepdogUs != 0 && r.steerTimeout != 0

/-! ### Rule 7: identifiers, fix-ups, patches, collectives (R165–R167, R208, R251, R300) -/

/-- A target of a fix-up or flock member: inside the region for LOCAL; for PEER a cell that exists, named from a region that does (R15, R165, R168). -/
def State.targetOk (s : State) (self : Nat) (im : Image) (kind peer dx dy : Nat) : Bool :=
  let inside := decide (dx < 8 * im.w ∧ dy < 8 * im.h)
  if kind = 1 then peer == 0 && inside
  else kind == 2 && (if peer = self then inside else match s.regions.find peer with
    | some r => r.mode != .empty && !r.releasing && (placed r.bx r.oy dx dy).present
    | none => false)

/-- Is the offset in MESH_TARGET or the scratchpad of the kind (R165)? -/
def fixOffsetOk (k : CellKind) (off : Nat) : Bool :=
  off % 8 == 0 && (decide (0x3F0140 ≤ off ∧ off < 0x3F01C0) || decide (off + 8 ≤ k.spadBytes))

/-- Is the offset in AG_CONFIG, MESH_TARGET, or the scratchpad outside the channel area and the enabled rings of the preload (R167)? -/
def patchOffsetOk (k : CellKind) (mem : Memory) (off : Nat) : Bool :=
  off % 8 == 0 &&
  (decide (0x3F0040 ≤ off ∧ off < 0x3F00C0) || decide (0x3F0140 ≤ off ∧ off < 0x3F01C0) ||
   (decide (off + 8 ≤ k.spadBytes) && !overlaps off 8 k.channelArea 128 &&
    (channelWords k mem).all fun d =>
      let c := Channel.ofNat d.2
      !c.enable || !overlaps off 8 c.base c.size))

/-- The preload of a relative cell. -/
def Image.padOf (im : Image) (b : List Byte) (rx ry : Nat) : Memory :=
  match im.record rx ry with
  | some r => spadOf (im.bytes b (r.refs.getD 4 0))
  | none => []

/-- Musters of the image: free, unique, entered as R251 allows. -/
def State.mustersOk (s : State) (self : Nat) (im : Image) (b : List Byte) : Bool :=
  im.musters.all (fun m => decide (m < 256) && ((s.musters.get .zero m).region == 0 || (s.musters.get .zero m).region == self)) &&
  decide im.musters.Nodup &&
  im.cells.all (fun r =>
    let regs := im.regs b r
    regs.musterEntries.all (fun e => decide (e.2.1 ∈ im.musters.drop 2)) && decide (regs.partIn.length ≤ 16) &&
    regs.musterEntries.all fun e => regs.musterEntries.all fun q => q.2.1 != e.2.1 || q.1 == e.1) &&
  (im.musters.drop 2).all fun m => im.cells.any fun r => decide (m ∈ (im.regs b r).partIn)

/-- Flocks a region's image declares. -/
def Region.flocks (r : Region) : List Nat := (Image.ofBody r.body).flocks.map (·.flock)

/-- Flocks of the image: free, unique, with members, named within the tables of R208. -/
def State.flocksOk (s : State) (self : Nat) (im : Image) (b : List Byte) : Bool :=
  let ids := im.flocks.map (·.flock)
  decide ids.Nodup &&
  im.flocks.all (fun f =>
    decide (f.flock < 4032) && !f.members.isEmpty && f.members.all fun m => s.targetOk self im m.kind m.peer m.dx m.dy) &&
  s.regions.all (fun e => e.1 == self || (e.2.mode == .empty && !e.2.releasing) || e.2.flocks.all fun f => !decide (f ∈ ids)) &&
  im.cells.all fun r =>
    let named := (im.regs b r).flocksNamed
    decide (named.length ≤ 16) && named.all fun f => decide (f ∈ ids)

/-- A declaration's fields (R299, R300). -/
def Collective.ok (d : Collective) (engine : Nat) : Bool :=
  decide (d.mode = 1 ∨ d.mode = 2) && decide (1 ≤ d.leaves ∧ d.leaves ≤ 64) && decide (2 ≤ d.gather) &&
  (d.mode == 1 || d.anchor == 0) && decide (100 ≤ d.deadline ∧ d.deadline ≤ 5000) && decide (1 ≤ d.lines ∧ d.lines ≤ 67108864) &&
  decide (1 ≤ d.members.length ∧ d.members.length ≤ 1024) && d.members.all (fun m => decide (m < 4096)) &&
  decide (d.members.IsChain (· < ·)) && decide (engine ∈ d.members)

/-- The areas of a declaration as ranges of loft addresses (R302): base and bytes. -/
def Collective.areas (d : Collective) : List (Nat × Nat) :=
  [(d.leafBase, d.leaves * d.lines * 64), (d.recvBase, d.lines * 64), (d.result0, d.lines * 64), (d.result1, d.lines * 64),
   (d.checkBase, 2 * d.members.length * 64)]

/-- The interleaved address of a line of a logical vault (R230). -/
def interleavedAt (v line : Nat) : Nat := (line / 16 * logicalVaults + v) * 1024 + line % 16 * 64

/-- The first line of a logical vault whose interleaved address is not below `a`, a multiple of 64 (R230). -/
def lineFrom (v a : Nat) : Nat :=
  let row := a / 1024 / logicalVaults
  let c := a / 1024 % logicalVaults
  if c = v then 16 * row + a % 1024 / 64 else if c < v then 16 * row else 16 * (row + 1)

/-- Do lines of a DIRECT area lie in an INTERLEAVED one (R230)? -/
def directMeets (d i : Nat × Nat) : Bool :=
  let (v, l) := loftPlace d.1
  let first := max l (lineFrom v i.1)
  decide (first < l + d.2 / 64) && decide (interleavedAt v first < i.1 + i.2)

/-- Do two areas of the loft, each in its own address form, share a line (R230, R302)? -/
def loftMeet (a b : Nat × Nat) : Bool :=
  match bits a.1 46 2, bits b.1 46 2 with
  | 1, 0 => directMeets a b
  | 0, 1 => directMeets b a
  | _, _ => overlaps a.1 a.2 b.1 b.2

/-- Areas lie in the loft (R229, R302). -/
def Collective.areasOk (d : Collective) : Bool :=
  d.areas.all (fun a => decide (a.1 < 2 ^ 48) && a.1 % 64 == 0 && loftSpanOk a.1 a.2)

/-- No two areas of a region's declarations overlap (R300, R302). -/
def areasApart : List (Nat × Nat) → Bool
  | [] => true
  | a :: rest => rest.all (fun b => !loftMeet a b) && areasApart rest

/-- Declarations that the other regions hold, from their LOAD on (R300). -/
def State.otherCollectives (s : State) (self : Nat) : Nat :=
  ((s.regions.filter fun e => e.1 != self && (e.2.mode != .empty || e.2.releasing)).map fun e => (Image.ofBody e.2.body).collectives.length).sum

/-- Collectives of the image (R300). -/
def State.collectivesOk (s : State) (self : Nat) (im : Image) (b : List Byte) : Bool :=
  im.collectives.all (fun d =>
    d.ok s.relend.engineId && d.areasOk &&
    (match im.musters[d.gather]? with
     | some m => im.cells.any fun r => decide (m ∈ (im.regs b r).partIn)
     | none => false)) &&
  decide (im.collectives.length ≤ 8) && decide ((im.collectives.map (·.members)).dedup.length ≤ 1) &&
  areasApart (im.collectives.flatMap Collective.areas) && decide (s.otherCollectives self + im.collectives.length ≤ 16)

/-- Mesh targets that mesh entries of active folds address (R15, R37). -/
def CellRegs.targetsUsed (r : CellRegs) (k : CellKind) : List Nat :=
  (r.entries.filterMap fun e =>
    if e.2.2.cls = 6 ∧ e.2.2.op ≠ 3 ∧ e.2.2.rep ≠ 0 then
      (match e.2.2.a k, e.2.2.d k with
       | _, .mesh n => some n
       | .mesh n, _ => some n
       | _, _ => none)
    else none).dedup

/-- No mesh entry addresses a coordinate that does not exist, in an even or an odd step (R15, R165, R167). -/
def State.targetsPresent (s : State) (self bx oy : Nat) (im : Image) (b : List Byte) : Bool :=
  im.cells.all fun r => [0, 1].all fun n =>
    let c := im.settle n (s.fixTarget self bx oy) r.rx r.ry (im.cell b r.rx r.ry false)
    (c.regs.targetsUsed (kindOfCode r.kind)).all fun t => (c.regs.targetOf t).dst.present

/-- Rule 7 at a placement: the roots of flocks at most 64 per cell (R208) beside the rest. -/
def State.linksOk (s : State) (self bx oy : Nat) (im : Image) (b : List Byte) : Bool :=
  im.fixups.all (fun f =>
    decide (f.rx < 8 * im.w ∧ f.ry < 8 * im.h) && fixOffsetOk (kindAt f.rx f.ry) f.offset && decide (f.bit ≤ 44) &&
    s.targetOk self im f.kind f.peer f.dx f.dy) &&
  im.patches.all (fun p =>
    decide (p.rx < 8 * im.w ∧ p.ry < 8 * im.h) && patchOffsetOk (kindAt p.rx p.ry) (im.padOf b p.rx p.ry) p.offset) &&
  s.mustersOk self im b && s.flocksOk self im b && s.collectivesOk self im b && s.targetsPresent self bx oy im b &&
  (let roots := im.flocks.filterMap fun f => (s.flockCells self bx oy f).head?
   let own := (im.flocks.map (·.flock)) ++ (match s.regions.find self with | some r => r.flocks | none => [])
   roots.all fun c => decide (roots.count c + ((s.router c).roots.filter fun e => !decide (e.1 ∈ own)).length ≤ 64))

/-! ### Rule 8: placement (R158, R254, R323, R341) -/

/-- Fallow reservation n: rectangle and EN (R340). -/
def fallowOf (w : Reg64) : (Nat × Nat × Nat × Nat) × Bool :=
  ((bits w.toNat 0 7, bits w.toNat 7 7, bits w.toNat 14 7, bits w.toNat 21 7), bitAt w.toNat 28)

/-- Do two rectangles of blocks share a block? -/
def rectsMeet (ax ay aw ah bx oy bw bh : Nat) : Bool :=
  decide (ax < bx + bw ∧ bx < ax + aw ∧ ay < oy + bh ∧ oy < ay + ah)

/-- Every block of a rectangle exists (R15, R158). -/
def rectExists (bx oy w h : Nat) : Bool :=
  (upFrom oy h).all fun y => (upFrom bx w).all fun x => ({ x := 8 * x, y := 8 * y } : Coord).present

/-- Does a rectangle touch an enabled reservation (R341)? -/
def DefectState.fallowMeets (d : DefectState) (bx oy w h : Nat) : Bool :=
  (List.range 64).any fun n =>
    let (r, en) := fallowOf (d.fallow.get 0 (n + 1))
    en && rectsMeet r.1 r.2.1 r.2.2.1 r.2.2.2 bx oy w h

/-- Does a region take up any of a rectangle: by its placement, until it is freed (R500), by the target that a load or relocation reserves, or by the rectangle a relocation has yet to free (R158, R181)? -/
def Region.takes (r : Region) (bx oy w h : Nat) : Bool :=
  ((r.mode != .empty || r.releasing) && rectsMeet r.bx r.oy r.w r.h bx oy w h) ||
  (match r.load with
   | some j => rectsMeet j.bx j.oy (numAt j.body 8 1) (numAt j.body 9 1) bx oy w h ||
     (match j.kind with | .relocate ox oo => rectsMeet ox oo r.w r.h bx oy w h | _ => false)
   | none => false)

/-- Is the rectangle free of other regions (R158)? -/
def State.rectFree (s : State) (self bx oy w h : Nat) : Bool := s.regions.all fun e => e.1 == self || !e.2.takes bx oy w h

/-- Is a cell out of service? -/
def State.cellOut (s : State) (c : Coord) : Bool := (s.cell c).mode == .dead || (s.cell c).mode == .fenced

/-- A recorded cell that is DEAD or FENCED at a placement (R168, R323). -/
def State.recordOut (s : State) (im : Image) (bx oy : Nat) : Bool := im.cells.any fun r => s.cellOut (placed bx oy r.rx r.ry)

/-- A static-fabric link that a route drives is marked down (R168, R323). -/
def State.linkOut (s : State) (im : Image) (b : List Byte) (bx oy : Nat) : Bool :=
  im.cells.any fun r =>
    let regs := im.regs b r
    regs.folds.any fun f => (List.range 56).any fun o =>
      regs.routeKind f o != 0 && decide (edgeNetwork (placed bx oy r.rx r.ry) (trackDir o) (networkOf o) ∈ s.defects.fabricDown)

/-- Cells that take part in each muster of the list at a placement: live cells for entries 0 and 1 (R251). -/
def State.participants (s : State) (im : Image) (b : List Byte) (bx oy : Nat) (i : Nat) : List Coord :=
  if i < 2 then (rectCells bx oy im.w im.h).filter fun c => !s.cellOut c
  else match im.musters[i]? with
    | some m => (im.cells.filter fun r => decide (m ∈ (im.regs b r).partIn)).map fun r => placed bx oy r.rx r.ry
    | none => []

/-- TOP of muster entry i: the step-end muster of a region with a collective is linked and has the apex (R253, R301; log entry 30). -/
def Image.topOf (im : Image) (i : Nat) (cells : List Coord) : Nat := if i = 1 ∧ !im.collectives.isEmpty then 3 else topLevel cells

/-- A muster of the image needs a node that is FENCED (R254). -/
def State.nodeMissing (s : State) (im : Image) (b : List Byte) (bx oy : Nat) : Bool :=
  (List.range im.musters.length).any fun i =>
    let cells := s.participants im b bx oy i
    (nodesNeeded (im.topOf i cells) cells).any fun n => s.defects.nodePlace.find n == some .fenced

/-- Rule 8. `fresh` says that the placement is a LOAD's, which may not touch a reservation (R341). -/
def State.placeOk (s : State) (self bx oy : Nat) (fresh : Bool) (im : Image) (b : List Byte) : Bool :=
  rectExists bx oy im.w im.h && s.rectFree self bx oy im.w im.h && !(fresh && s.defects.fallowMeets bx oy im.w im.h) &&
  !s.recordOut im bx oy && !s.linkOut im b bx oy && !s.nodeMissing im b bx oy

/-- Rules 2–10 in order: the code of the first broken rule, none where the image is accepted (R168). -/
def State.checkImage (s : State) (self bx oy : Nat) (fresh : Bool) (b : List Byte) : Option Code :=
  let im := Image.ofBody b
  if !im.headerOk b then some Codes.configInvalid
  else if !im.sectionsOk b then some Codes.configInvalid
  else if !im.recordsOk b then some Codes.configInvalid
  else if !im.contentOk b then some Codes.configInvalid
  else if !(im.cells.all fun r => (im.regs b r).startable) then some Codes.configInvalid
  else if !s.linksOk self bx oy im b then some Codes.configInvalid
  else if !s.placeOk self bx oy fresh im b then some Codes.configInvalid
  else if !(im.graph b).partitionsOk im.w im.h then some Codes.foldPartition
  else if !(im.graph b).ratesOk im.w im.h then some Codes.rateMismatch
  else none

end Sys2Proof.Machine
end

