-- ==== Sys2Proof/Machine/Vault.lean ====
section
/-!
DEFINITION. Vaults (R221–R228): the Reed–Solomon code of a stored line, reading, writing, scrubbing, and the counters with their limits.
-/
namespace Sys2Proof.Machine

/-! ### The code (R226) -/

/-- Multiplication by α in GF(2⁸) with the polynomial 0x11D. -/
def gfDouble (a : Nat) : Nat := if a < 128 then 2 * a else Nat.xor (2 * a) 0x11D

/-- Product in GF(2⁸), over `n` bits of `b`. -/
def gfMulBits : Nat → Nat → Nat → Nat
  | 0, _, _ => 0
  | n + 1, a, b => Nat.xor (if b % 2 = 1 then a else 0) (gfMulBits n (gfDouble a) (b / 2))

/-- Product in GF(2⁸). -/
def gfMul (a b : Nat) : Nat := gfMulBits 8 a b

/-- α to a power. -/
def gfPow : Nat → Nat
  | 0 => 1
  | n + 1 => gfDouble (gfPow n)

/-- Coefficients of the generator polynomial with roots α⁰ to α⁷, highest power first, its leading 1 left out. -/
def rsGenerator : List Nat :=
  (List.range 8).foldl (fun (g : List Nat) i =>
    -- multiply by (x + αⁱ): g holds the coefficients below the leading 1
    let root := gfPow i
    let shifted := g ++ [0]
    let scaled := (1 :: g).map (gfMul root)
    List.zipWith Nat.xor shifted scaled) []

/-- One step of the division by the generator: the remainder takes in a byte. -/
def rsStep (rem : List Nat) (b : Nat) : List Nat :=
  match rem with
  | [] => []
  | top :: rest =>
    let q := Nat.xor top b
    List.zipWith (fun r g => Nat.xor r (gfMul q g)) (rest ++ [0]) rsGenerator

/-- The 8 check bytes of 65 bytes (R226). -/
def rsCheck (l : List Nat) : List Nat := l.foldl rsStep [0, 0, 0, 0, 0, 0, 0, 0]

/-- The codeword of 65 bytes: data and STATE, then the check bytes. -/
def rsEncode (l : List Nat) : List Nat := l ++ rsCheck l

/-- Syndrome i: the codeword as a polynomial at αⁱ. -/
def rsSyndrome (i : Nat) (code : List Nat) : Nat := code.foldl (fun acc b => Nat.xor (gfMul acc (gfPow i)) b) 0

/-- How a received codeword decodes (R226). -/
inductive RsResult
  | clean
  | corrected (code : List Nat)
  | uncorrectable
  deriving DecidableEq, Repr

/-- Decode 73 bytes: clean, one byte in error, or uncorrectable (R226). -/
def rsDecode (code : List Nat) : RsResult :=
  let s := (List.range 8).map fun i => rsSyndrome i code
  if s.all (· == 0) then .clean
  else
    let e := s.headD 0
    match (List.range 73).find? fun j => (List.range 8).all fun i => s.getD i 0 == gfMul e (gfPow (i * (72 - j) % 255)) with
    | some j => if e = 0 then .uncorrectable else .corrected (setAt code j (Nat.xor (code.getD j 0) e))
    | none => .uncorrectable

/-- STATE as its byte (R226). -/
def LineState.byte : LineState → Byte
  | .data => 0
  | .poison => 1
  | .lost => 2
  | .other b => b

/-- STATE of a byte (R226). -/
def LineState.ofNat (n : Nat) : LineState :=
  match n with
  | 0 => .data
  | 1 => .poison
  | 2 => .lost
  | _ => .other (BitVec.ofNat 8 n)

/-- A line as stored: 64 data bytes and their STATE, encoded (R226). -/
def LoftLine.of (data : List Byte) (st : LineState) : LoftLine :=
  { code := (rsEncode (((data ++ List.replicate 64 (0 : Byte)).take 64).map (fun (b : Byte) => b.toNat) ++ [st.byte.toNat])).map (BitVec.ofNat 8) }

/-- What an unlisted line of a vault holds. -/
def Vault.filling (v : Vault) : LoftLine := LoftLine.of [] v.fill

/-- A line as stored (R221). -/
def Vault.line (v : Vault) (l : Nat) : LoftLine := v.lines.get v.filling l

/-- Store a line. -/
def Vault.setLine (v : Vault) (l : Nat) (x : LoftLine) : Vault := { v with lines := v.lines.set v.filling l x }

/-- Bytes in error in a stored line, as the vault reads it. -/
def LoftLine.damage (x : LoftLine) (errs : List LineErr) : LoftLine :=
  { code := errs.foldl (fun (c : List Byte) e => setAt c e.pos (c.getD e.pos 0 ^^^ e.xor)) x.code }

/-- The line that a write stores: poison, or data with STATE DATA (R228). -/
def LoftLine.ofPayload (p : Payload) : LoftLine :=
  if p.poisoned then LoftLine.of [] .poison else LoftLine.of (p.map (·.data)) .data

/-- Data and status of a decoded codeword (R227). -/
def lineResult (code : List Nat) : Payload × Code :=
  match LineState.ofNat (code.getD 64 0) with
  | .data => ((code.take 64).map fun n => PByte.ofData (BitVec.ofNat 8 n), Codes.ok)
  | .poison => (Payload.poison 64, Codes.ok)
  | .lost => ([], Codes.loftLost)
  | .other _ => (Payload.poison 64, Codes.loftUncorrectable)

/-- A line's read with the errors found in it: data, status, and the vault with its counters and the line written back if corrected, unless a write to it is queued already (R225–R227). -/
def Vault.read (v : Vault) (l : Nat) (errs : List LineErr) : Payload × Code × Vault :=
  let x := (v.line l).damage errs
  let v := if errs.isEmpty then v else v.setLine l x
  let code := x.code.map (·.toNat)
  let bad := fun (v : Vault) => { v with uncorrectable := satAdd 0xFFFF v.uncorrectable 1 }
  match rsDecode code with
  | .clean =>
    let (d, st) := lineResult code
    (d, st, if st = Codes.loftUncorrectable then bad v else v)
  | .corrected fixed =>
    let v := { v with corrected := satAdd 0xFFFF v.corrected 1 }
    let v := if v.queue.any fun q => q.accepted && q.write.isSome && q.line == l then v else v.setLine l { code := fixed.map (BitVec.ofNat 8) }
    let (d, st) := lineResult fixed
    (d, st, if st = Codes.loftUncorrectable then bad v else v)
  | .uncorrectable => (Payload.poison 64, Codes.loftUncorrectable, bad v)

/-- Store a payload (R228). -/
def Vault.write (v : Vault) (l : Nat) (p : Payload) : Vault := v.setLine l (LoftLine.ofPayload p)

/-- Change a physical vault. -/
def State.mapVault (s : State) (pv : Nat) (f : Vault → Vault) : State :=
  { s with loft := { s.loft with vaults := s.loft.vaults.upd .zero pv f } }

/-- A physical vault. -/
def State.vault (s : State) (pv : Nat) : Vault := s.loft.vaults.get .zero pv

/-- Does a vault's counter stand at a limit (R326)? -/
def State.vaultFailed (s : State) (pv : Nat) : Bool :=
  let v := s.vault pv
  decide (s.defects.uncorrLimit ≤ v.uncorrectable) || decide (s.defects.corrLimit ≤ v.corrected) || decide (s.defects.portLimit ≤ v.portParity)

/-! ### Losing a vault (R236, R237) -/

/-- Code of a cause in a LOFT_LOST record (R460). -/
def vaultCauseCode : VaultCause → Nat
  | .paddockTrip => 1
  | .cellOut => 2
  | .declared => 3

/-- Is the paddock powered (R335)? -/
def State.paddockLive (s : State) (p : Nat) : Bool := s.defects.paddocks.find p == some .powered

/-- Record that a logical vault was remapped or fenced (R460). -/
def State.noteRemap (s : State) (lv pv st : Nat) : State :=
  s.note recNote 3 0 noPlace (leBytes 2 lv ++ leBytes 2 pv ++ leBytes 1 st)

/-- Was a request answered when it was accepted: a write is acknowledged then (R222)? -/
def LoftRequest.answered (q : LoftRequest) : Bool := q.accepted && q.write.isSome

/-- The answers to requests that a lost vault still held and had not answered: the mesh's end with LOFT_LOST, the channels' too (R106, R237). -/
def State.dropQueue (s : State) (pv : Nat) : State :=
  let c := vaultCell pv
  let q := (s.vault pv).queue
  let s := s.mapVault pv fun v => { v with queue := [] }
  (q.filter fun r => !r.answered).foldl (fun (s : State) r => match r.src with
    | .mesh p => s.event c fun w => w.nack p Codes.loftLost
    | .channel ch line => s.mapChannel c ch fun x =>
        { x with
          queue := x.queue.map fun d =>
            if d.started && decide (d.base ≤ line ∧ line < d.base + d.next) then d.lineEnded (line - d.base) r.write.isNone Codes.loftLost 0 []
            else d }) s

/-- The regions that run now, by handle (R237 step 3). -/
def State.runners (s : State) : List Nat := (s.regions.filter fun e => e.2.mode == .running).map (·.1)

/-- Steps 1 and 2 of R237 for a lost physical vault: the entry of the logical vault it served is PENDING, and the loss is recorded. A spare lost
before its entry is REMAPPED only leaves its logical vault without one: step 4 is taken again (R332). -/
def State.loseVault (s : State) (pv : Nat) (cause : VaultCause) : State :=
  if (s.vault pv).lost then s
  else
    let served := s.loft.servedBy pv
    let s := (s.mapVault pv fun v => { v with lost := true, lines := [] }).dropQueue pv
    match served with
    | none => s
    | some lv =>
      let s : State := { s with loft := { s.loft with assigned := s.loft.assigned.filter fun e => e.2 != lv } }
      if s.loft.map.find lv = some .pending then s
      else
        let away := match s.loft.map.find lv with | some (.remapped _) => addOnce s.defects.wasAway lv | _ => s.defects.wasAway
        let s : State := { s with
          loft := { s.loft with map := s.loft.map.put lv .pending, draining := s.loft.draining.set [] lv s.runners }
          defects := { s.defects with wasAway := away } }
        s.note recEvent Codes.loftLost 0 noPlace (leBytes 2 lv ++ leBytes 2 pv ++ leBytes 1 (vaultCauseCode cause))

/-- The PENDING logical vaults whose step 4 is due, in ascending order: no region that ran at the loss still runs, and no spare is chosen (R237). -/
def LoftState.spareDue (l : LoftState) : List Nat :=
  (l.map.filter fun e => e.2 == .pending && (l.draining.get [] e.1).isEmpty && l.assigned.all fun a => a.2 != e.1).map (·.1)

/-- Step 4 of R237 for one logical vault: the spare that R233 chooses, whose every line becomes LOST, or FENCED where there is none. -/
def State.chooseFor (s : State) (lv : Nat) : State :=
  match s.loft.chooseSpare s.paddockLive (vaultHome lv) with
  | some sp =>
    let s := s.mapVault sp fun v => { v with fill := .lost, lines := [] }
    { s with loft := { s.loft with assigned := s.loft.assigned.put sp lv } }
  | none => ({ s with loft := { s.loft with map := s.loft.map.put lv .fenced } }).noteRemap lv 0 3

/-- Step 4 of R237 wherever it is due. -/
def State.chooseSpares (s : State) : State := s.loft.spareDue.foldl State.chooseFor s

/-- The defect map changed once (R333). -/
def State.mapChanged (s : State) : State := { s with defects := { s.defects with generation := s.defects.generation + 1 } }

/-- Has S6 built the vault map (R233, R353)? -/
def State.vaultsMapped (s : State) : Bool := match s.boot.stage with | some n => decide (7 ≤ n) | none => false

/-- A physical vault is lost; before S6 it is lost to the map that S6 builds (R236, R353, R367). -/
def State.dropVault (s : State) (pv : Nat) (cause : VaultCause) : State :=
  if s.vaultsMapped then s.loseVault pv cause else s.mapVault pv fun v => { v with lost := true, lines := [] }

/-- Those of some logical vaults that are PENDING and in no update yet. -/
def State.vaultsDue (s : State) (vs : List Nat) : List Nat :=
  vs.filter fun v => s.loft.map.find v == some VaultEntry.pending && !s.defects.vaultsChanging.any fun g => decide (v ∈ g)

/-- One map update is due when the last of some vaults is set (R331). -/
def State.awaitVaults (s : State) (vs : List Nat) : State :=
  if vs.isEmpty then s else { s with defects := { s.defects with vaultsChanging := s.defects.vaultsChanging ++ [vs] } }

/-- The updates whose vaults are all set are made, each raising GENERATION by 1 (R331, R333). -/
def State.vaultsSettled (s : State) : State :=
  let set := fun (g : List Nat) => g.all fun v => s.loft.map.find v != some VaultEntry.pending
  let done := s.defects.vaultsChanging.filter set
  { s with defects := { s.defects with
      vaultsChanging := s.defects.vaultsChanging.filter fun g => !set g
      wasAway := s.defects.wasAway.filter fun v => !(done.any fun g => decide (v ∈ g))
      generation := s.defects.generation + done.length } }

/-- Step 4 of R237 wherever it is due, and the map updates that a FENCED entry completes (R331). -/
def State.sparesChosen (s : State) : State := s.chooseSpares.vaultsSettled

/-- A region has left RUNNING: step 3 of R237 is done for the vaults that waited for it alone, and their step 4 follows. -/
def State.leftRunning (s : State) (h : Nat) : State :=
  ({ s with loft := { s.loft with draining := s.loft.draining.mapVals [] fun _ l => l.filter fun k => k != h } } : State).sparesChosen

/-- A vault is lost alone, and its logical vault's change is an update of its own (R236, R333). -/
def State.retireVault (s : State) (pv : Nat) (cause : VaultCause) : State :=
  let lv := s.loft.servedBy pv
  let s := s.dropVault pv cause
  (s.awaitVaults (s.vaultsDue lv.toList)).sparesChosen

/-- A vault declared failed: with no logical vault to set, the map changes at once (R326, R333). -/
def State.failVault (s : State) (pv : Nat) : State :=
  let lv := s.loft.servedBy pv
  let s := s.dropVault pv .declared
  let due := s.vaultsDue lv.toList
  (if due.isEmpty then s.mapChanged else s.awaitVaults due).sparesChosen

/-- Step 5 of R237: a PENDING logical vault is REMAPPED to the spare chosen for it once every line of that spare is written.
Where no other vault of the same trip is still PENDING, the defect map's second update is due (R331). -/
def State.spareDone (s : State) (lv : Nat) : State :=
  match s.loft.map.find lv with
  | some .pending =>
    match s.loft.assigned.find? fun e => e.2 == lv with
    | some (sp, _) =>
      let s := { s with loft := { s.loft with map := s.loft.map.put lv (.remapped sp) } }
      (s.noteRemap lv sp 1).vaultsSettled
    | none => s
  | _ => s

/-- A vault declared failed is lost, and the defect history keeps it (R326, R338). -/
def State.declareFailed (s : State) (pv : Nat) : State :=
  if s.vaultFailed pv && !(s.vault pv).lost then
    let s := { s with defects := { s.defects with history := s.defects.history ++ [(s.flash.powerCycle, HistoryUnit.vault pv)] } }
    s.failVault pv
  else s

/-- Count the port transfers of one line that showed bad parity (R228). -/
def Vault.countBad (v : Vault) (bad : Nat) : Vault := { v with portParity := satAdd 0xFFFF v.portParity (min 3 bad) }

end Sys2Proof.Machine
end

