-- ==== Sys2Proof/Machine/RunOps.lean ====
section
/-!
DEFINITION. The shared operations of run control: completions (R172, R173), cell states and sweeps over a region (R141, R154, R170),
cells leaving service (R236, R321), routing triggers (R202), the forced boundary (R176) and the faults hubs report (R60, R175).
-/
namespace Sys2Proof.Machine

/-- Code of a region state (R170). -/
def RegionMode.code : RegionMode → Nat
  | .empty => 0 | .loading => 1 | .loaded => 2 | .ready => 3 | .running => 4 | .aborting => 5 | .halted => 6

/-- Change a region. -/
def State.mapRegion (s : State) (h : Nat) (f : Region → Region) : State := { s with regions := s.regions.modify h f }

/-- The state of a handle's region; EMPTY where it names none (R159). -/
def State.modeOf (s : State) (h : Nat) : RegionMode := match s.regions.find h with | some r => r.mode | none => .empty

/-- The cells of a region's rectangle. -/
def Region.cells (r : Region) : List Coord := rectCells r.bx r.oy r.w r.h

/-- Its cells in service (R164). -/
def State.liveCells (s : State) (r : Region) : List Coord := r.cells.filter fun c => !s.cellOut c

/-! ### Completions (R172, R173) -/

/-- OUTCOME (R172). -/
def outOk : Nat := 0
def outFault : Nat := 1
def outRefused : Nat := 2

/-- The 32 bytes of a completion (R172). -/
def completionBytes (opcode seq region outcome state : Nat) (status : Code) (committed count : Nat) : List Byte :=
  leBytes 2 1 ++ leBytes 2 opcode ++ leBytes 4 seq ++ leBytes 2 region ++ leBytes 1 outcome ++ leBytes 1 state ++ leBytes 2 status.toNat ++
  leBytes 2 0 ++ leBytes 4 committed ++ leBytes 4 count ++ leBytes 8 0

/-- The command's record of its source takes its completion (R173). -/
def HcpState.done (h : HcpState) (c : CmdRef) (b : List Byte) : HcpState :=
  { h with records := h.records.map fun e =>
      if e.1 = c.src then (e.1, e.2.map fun r => if r.seq = c.seq then { r with done := some b } else r) else e }

/-- COMMITTED_STEP of a completion: the region's; a free value where the handle names no region, since an EMPTY one has none (R172, R178). -/
def State.committedOf (s : State) (h : Nat) : Nat × State :=
  match s.regions.find h with
  | some r => if r.mode = .empty then ((Config.freeWord s.freeIdx).toNat % 2 ^ 32, { s with freeIdx := s.freeIdx + 1 }) else (r.committed, s)
  | none => ((Config.freeWord s.freeIdx).toNat % 2 ^ 32, { s with freeIdx := s.freeIdx + 1 })

/-- A command of a region completes: state and COMMITTED_STEP as they now stand (R172). A STEP that completes with FAULT is recorded (R459). -/
def State.finish (s : State) (c : CmdRef) (h outcome : Nat) (status : Code) (count : Nat) : State :=
  let (committed, s) := s.committedOf h
  let b := completionBytes c.opcode c.seq h outcome (s.modeOf h).code status committed count
  let s := { s with hcp := s.hcp.done c b, completions := s.completions ++ [(c.src, b)] }
  if c.opcode = 4 ∧ outcome = outFault then s.note recFault status h noPlace [] else s

/-- A command is refused: nothing changes but its completion. -/
def State.refuse (s : State) (c : CmdRef) (h : Nat) (status : Code) : State := s.finish c h outRefused status 0

/-! ### Cells of a region -/

/-- Set the STATE of every live cell of a region (R170). -/
def State.setModes (s : State) (r : Region) (m : CellMode) : State :=
  (s.liveCells r).foldl (fun (s : State) c => s.mapCell c fun x => { x with mode := m }) s

/-- Every input port of a region's cells advertises its slices: the counters of the tracks that drive them start afresh (R141). -/
def State.creditsStart (s : State) (r : Region) : State :=
  (s.liveCells r).foldl (fun (s : State) c =>
    let credits := (List.range 56).foldl (fun (m : SMap Nat) o =>
      match c.neighbour (trackDir o) with
      | some n =>
        if r.holds n && !s.cellOut n then
          (List.range 8).foldl (fun (m : SMap Nat) f => m.set 0 (8 * o + f) ((s.cell n).regs.slice (facing o) f)) m
        else m
      | none => m) ([] : SMap Nat)
    s.mapCell c fun x => { x with fab := { x.fab with credits, creditWire := [] } }) s

/-- Step 4 of R154 in every live cell of a region: GEN flips and the sweep starts. -/
def State.startSweep (s : State) (r : Region) : State :=
  (s.liveCells r).foldl (fun (s : State) c => s.mapCell c Cell.startSweep) s

/-- Step 6 of R154: the window closes and the credits restart. -/
def State.endSweep (s : State) (r : Region) : State :=
  ((s.liveCells r).foldl (fun (s : State) c => s.mapCell c Cell.endSweep) s).creditsStart r

/-- The total of STALE_COUNT over a region's cells (R156). -/
def State.staleTotal (s : State) (r : Region) : Nat := ((s.liveCells r).map fun c => (s.cell c).fab.stale).sum

/-- Are all DMA channels of a region's M-cells idle (R105)? -/
def State.regionIdle (s : State) (r : Region) : Bool := (r.cells.filter fun c => c.kind == .m).all s.dmaIdle

/-- Channels of a region's M-cells stand as for an aborted region, or no longer do (R105). -/
def State.abortDma (s : State) (r : Region) (on : Bool) : State :=
  (r.cells.filter fun c => c.kind == .m).foldl (fun (s : State) c =>
    (List.range 4).foldl (fun (s : State) ch => s.mapChannel c ch fun x =>
      { x with aborted := on, queue := if on then x.queue.filter (·.started) else x.queue, asking := if on then none else x.asking }) s) s

/-! ### Routing triggers (R202) -/

/-- Triggers of a flip: before step 3 they join the flip in hand, after it they start a new one once step 5 is over. -/
def State.flipTrigger (s : State) (n : Nat) : State :=
  if n = 0 || !s.boot.routed then s
  else if s.oldValid then { s with flipWaiting := s.flipWaiting + n }
  else { s with flipPending := true, pendingAt := if s.flipPending then s.pendingAt else s.clock, flipTriggers := s.flipTriggers + n }

/-! ### Cells leaving service (R236, R321) -/

/-- A cell leaves service with a cause: DEAD or FENCED, its vault lost with it (R236, R321); one that is out of service stays as it is. The generation is the caller's. -/
def State.cellLeaves (s : State) (c : Coord) (mode : CellMode) (cause : Nat) : State :=
  if s.cellOut c ∧ (s.defects.causes.find c.key).isSome then s
  else
    let s := s.mapCell c fun x => { x with mode, seq := { x.seq with stopped := true } }
    let s := { s with defects := { s.defects with
      causes := s.defects.causes.put c.key cause
      history := if cause = 7 ∨ cause = 8 then s.defects.history ++ [(s.flash.powerCycle, HistoryUnit.cell c cause)] else s.defects.history } }
    if c.kind = .m then s.retireVault (cellVault c) .cellOut else s

/-- Suspects that are out of service are suspects no more (R332). -/
def State.dropSuspects (s : State) : State :=
  { s with regions := s.regions.map fun e => (e.1, { e.2 with suspects := e.2.suspects.filter fun c => !s.cellOut c }) }

/-! ### The forced boundary (R176) -/

/-- Has a ring unit of the region posted its arrival with FLAG 0, and no release come (R307, R316)? -/
def State.ringPosted (s : State) (h : Nat) : Bool := s.rings.any fun e => e.2.region == h && e.2.phase == .posted && e.2.postedFlag == some false

/-- Is a region in doubt: its arrival is on its way to the leader with FLAG 0 — sent, or bound to be sent, its ring unit's and every cell's arrival posted
and going up the tree — and no release has come (R316)? -/
def State.inDoubt (s : State) (r : Region) : Bool :=
  match r.musters[1]? with
  | some m =>
    let u := s.musters.get .zero m
    match u.waiting with
    | some (_, flag, _) => !flag
    | none => s.ringPosted u.region && !u.transit.isEmpty && u.cells.all fun k => (s.cell (Coord.ofKey k)).must.stepEnd
  | none => false

/-- Has a member of a collective posted its arrival with FLAG 0, which an HCP ABORT then ends without commit (R316)? -/
def State.hasPosted (s : State) (h : Nat) (r : Region) : Bool := s.inDoubt r || s.ringPosted h

/-- The ring slots of a region stop, but those of a member in doubt, which apply whichever release comes, unless `all` stop (R314 step 1, R176, R315, R316). -/
def State.stopRings (s : State) (h cause : Nat) (all : Bool := false) : State :=
  let doubt := !all && match s.regions.find h with | some r => s.inDoubt r | none => false
  { s with rings := s.rings.map fun e =>
      if e.2.region = h ∧ (e.2.phase = .gathering ∨ e.2.phase = .reducing ∨ e.2.phase = .distributing ∨ (e.2.phase = .posted ∧ !doubt)) then
        (e.1, { e.2 with phase := .aborted, cause := if e.2.cause = 0 then cause else e.2.cause }) else e }

/-- A boundary is forced on a region for a cause, by the fault of a cell or not: a RUNNING region enters ABORTING and its cells stop issuing. A READY one
is at its boundary already and enters HALTED at once (R27, R175, R176). -/
def State.force (s : State) (h : Nat) (code : Code) (cell : Option Coord := none) : State :=
  match s.regions.find h with
  | none => s
  | some r =>
    match r.mode with
    | .running =>
      let s := s.mapRegion h fun r => { r with mode := .aborting, forced := some (r.forced.getD code), forcedBy := if r.forced.isSome then r.forcedBy else cell }
      let s := (s.liveCells r).foldl (fun (s : State) c => s.mapCell c fun x => { x with mode := .halted, seq := { x.seq with stopped := true } }) s
      ((s.abortDma r true).stopRings h 0).leftRunning h
    | .ready => (s.setModes r .halted).mapRegion h fun r => { r with mode := .halted }
    | _ => s

/-- Force every region that a test picks. -/
def State.forceAll (s : State) (p : Region → Bool) (code : Code) : State :=
  (s.regions.filter fun e => p e.2).foldl (fun (s : State) e => s.force e.1 code) s

/-- Does a region have a cell in the field, in the paddock? -/
def Region.inField (r : Region) (f : Nat) : Bool := r.mode != .empty && r.cells.any fun c => c.field == f
def Region.inPaddock (r : Region) (p : Nat) : Bool := r.mode != .empty && r.cells.any fun c => c.paddock == p

/-! ### Faults of cells at the hub (R60, R175, R322) -/

/-- A fault that makes its cell a suspect (R322). -/
def suspectCode (c : Code) : Bool := c == Codes.sheepdog || c == Codes.rateMismatch || c == Codes.steerTimeout

/-- DETAIL of a cell's FAULT record: FAULT_INFO, then what its rule adds (R123, R250, R212, R460). -/
def faultDetail (r : FaultReport) : List Byte :=
  leBytes 8 (r.code.toNat + 2 ^ 16 * r.fold + 2 ^ 19 * r.entry + 2 ^ 24 * (r.iter % 2 ^ 16)) ++
  (if r.code = Codes.spadOverflow then leBytes 2 r.detail
   else if r.code = Codes.tallyUnderflow ∨ r.code = Codes.tallyOverflow ∨ r.code = Codes.musterOverrun then leBytes 1 r.detail
   else if r.code = Codes.mcastShort then leBytes 4 r.detail
   else [])

/-- A READY region for which a fault is reported enters HALTED at once (R175). -/
def State.readyHalts (s : State) (h : Nat) : State :=
  match s.regions.find h with
  | some r => if r.mode = .ready then (s.setModes r .halted).mapRegion h fun r => { r with mode := .halted } else s
  | none => s

/-- A fault of a cell reaches the management complex: recorded by the hub, counted for the region, its cell perhaps a suspect; SHEEPDOG and
CELL_DEAD force the boundary; a READY region enters HALTED (R60, R175, R176). -/
def State.faultReported (s : State) (c : Coord) (r : FaultReport) : State :=
  let h := s.regionOf c
  let s := s.hubNote c.field recFault r.code (h.getD 0) (placeOf c) (faultDetail r)
  let s := if r.code = Codes.cellDead ∧ (s.cell c).mode = .dead then (s.cellLeaves c .dead 7).mapChanged else s
  match h with
  | none => s
  | some h =>
    let s := s.mapRegion h fun g =>
      let g := if suspectCode r.code ∧ (g.mode = .running ∨ g.mode = .aborting ∨ g.mode = .ready) then { g with suspects := addOnce g.suspects c } else g
      if g.mode = .running ∨ g.mode = .aborting then { g with faults := g.faults ++ [(r.code, some c)] } else g
    if r.code = Codes.sheepdog ∨ r.code = Codes.cellDead then s.force h r.code (some c) else s.readyHalts h

/-- HUB_FAULT_REPORT f: the oldest report of the field's first cell that has one. -/
def State.hubReport (s : State) (f : Nat) : State :=
  match (fieldCells f).find? fun c => !(s.cell c).fault.reports.isEmpty with
  | none => s
  | some c => match (s.cell c).fault.reports with
    | r :: rest => (s.mapCell c fun x => { x with fault := { x.fault with reports := rest } }).faultReported c r
    | [] => s

/-- A fault of a unit that serves a region's step, not raised by a cell: recorded and counted (R27, R105). -/
def State.regionFault (s : State) (h : Nat) (code : Code) : State :=
  (s.note recFault code h noPlace []).mapRegion h fun g =>
    if g.mode = .running ∨ g.mode = .aborting then { g with faults := g.faults ++ [(code, none)] } else g

end Sys2Proof.Machine
end

