-- ==== Sys2Proof/Machine/RelendOps.lean ====
section
/-!
DEFINITION. Relend's shared operations (R266–R274, R285–R290): frames as bytes, the route table, a port's outgoing units, tags and requests.
-/
namespace Sys2Proof.Machine

/-- Kinds of frame (R285). -/
def kRead : Nat := 0x01
def kWrite : Nat := 0x02
def kInc : Nat := 0x03
def kResponse : Nat := 0x08
def kAccept : Nat := 0x09
def kNack : Nat := 0x0A
def kMusterArrive : Nat := 0x10
def kMusterRelease : Nat := 0x11
def kPace : Nat := 0x12

/-- Is the KIND listed (R285)? -/
def kindOk (k : Nat) : Bool := decide (k ∈ [kRead, kWrite, kInc, kResponse, kAccept, kNack, kMusterArrive, kMusterRelease, kPace])

/-- The bytes of a frame with a given CRC field (R285). -/
def Frame.bytesWith (f : Frame) (crc : Nat) : List Byte :=
  leBytes 1 f.kind ++ leBytes 1 ((if f.poison then 1 else 0) + (if f.hold then 2 else 0)) ++ leBytes 2 f.dst ++ leBytes 2 f.src ++
  leBytes 1 f.srcPort ++ leBytes 1 f.hop ++ leBytes 2 (f.tag + (if f.seq then 32768 else 0)) ++ leBytes 1 f.attempt ++
  leBytes 1 f.len ++ leBytes 8 f.addr ++ leBytes 2 f.status.toNat ++ leBytes 2 f.amount ++ leBytes 4 0 ++ leBytes 4 crc ++
  padFlit f.payload

/-- CRC-32C of a frame, its CRC field taken as zero (R191, R285). -/
def Frame.crcOf (f : Frame) : BitVec 32 := BitVec.ofNat 32 (crc32c (f.bytesWith 0))

/-- The frame with its CRC. -/
def Frame.seal (f : Frame) : Frame := { f with crc := f.crcOf }

/-- The bytes of a frame as sent. -/
def Frame.bytes (f : Frame) : List Byte := f.bytesWith f.crc.toNat

/-- Read a frame from its bytes (R285). -/
def Frame.ofBytes (b : List Byte) : Frame :=
  let n := numAt b
  { kind := n 0 1, poison := bitAt (n 1 1) 0, hold := bitAt (n 1 1) 1, dst := n 2 2 % 4096, src := n 4 2 % 4096, srcPort := n 6 1,
    hop := n 7 1, tag := n 8 2 % 4096, seq := bitAt (n 8 2) 15, attempt := n 10 1, len := n 11 1, addr := n 12 8, status := BitVec.ofNat 16 (n 20 2),
    amount := n 22 2, payload := if n 0 1 = kRead then [] else sliceOf b 32 (n 11 1), crc := BitVec.ofNat 32 (n 28 4) }

/-- Length of the frame at the front of a stream of bytes: the header and the payload padded to 16; a READ carries none (R285). -/
def frameLength (b : List Byte) : Nat := if numAt b 0 1 = kRead then 32 else 32 + (numAt b 11 1 + 15) / 16 * 16

/-- A frame with no fields but its kind and ends. -/
def Frame.plain (kind dst src : Nat) : Frame :=
  { kind, poison := false, hold := false, dst, src, srcPort := 0, hop := 0, tag := 0, seq := false, attempt := 0, len := 0, addr := 0, status := 0,
    amount := 0, payload := [], crc := 0 }

/-- A port. -/
def State.port (s : State) (p : Nat) : Port := s.relend.ports.get .zero p

/-- Change a port. -/
def State.mapPort (s : State) (p : Nat) (f : Port → Port) : State :=
  { s with relend := { s.relend with ports := s.relend.ports.upd .zero p f } }

/-- Counter numbers of R298. -/
def pCorrected : Nat := 0
def pUncorrectable : Nat := 1
def pReplays : Nat := 2
def pLinkDowns : Nat := 3
def pDropCrc : Nat := 4
def pDropHops : Nat := 5
def pStray : Nat := 6
def pRejected : Nat := 7
def pStall : Nat := 8

/-- Count an event of a port, saturating (R298). -/
def Port.count (p : Port) (n k : Nat) : Port := { p with counters := p.counters.upd 0 n fun v => satAdd 0xFFFFFFFF v k }

/-- Units the replay buffer of 1 MiB holds (R267). -/
def replayRoom : Nat := 1638

/-- Up to n bytes from the front of waiting frames: the bytes, what is left, and whether a frame was cut. -/
def cutFrames : Nat → List (List Byte) → List Byte × List (List Byte) × Bool
  | _, [] => ([], [], false)
  | n, f :: rest =>
    if n = 0 then ([], f :: rest, false)
    else if n < f.length then (f.take n, f.drop n :: rest, true)
    else
      let (b, left, part) := cutFrames (n - f.length) rest
      (f ++ b, left, part)

/-- The pool of a kind of frame (R272): responses are RESPONSE, ACCEPT and NACK (log entry 12). -/
def respKind (kind : Nat) : Bool := decide (kind ∈ [kResponse, kAccept, kNack])

/-- One unit of the pool of a kind more, or one fewer. -/
def Pools.add (p : Pools) (kind : Nat) : Pools := if respKind kind then { p with resp := p.resp + 1 } else { p with req := p.req + 1 }
def Pools.sub (p : Pools) (kind : Nat) : Pools := if respKind kind then { p with resp := p.resp - 1 } else { p with req := p.req - 1 }

/-- Units of the pool of a kind. -/
def Pools.of (p : Pools) (kind : Nat) : Nat := if respKind kind then p.resp else p.req

/-- Has the pool of a frame room at the far side (R272)? A pool holds one frame and as many more as the part has room for (log entry 12). -/
def Port.hasRoom (p : Port) (kind : Nat) : Bool := decide (p.txUsed.of kind ≤ Config.linkPool (respKind kind))

/-- Frames that wait for a credit leave in order, each pool on its own (R272): those admitted, those that go on waiting, and the pools. -/
def Port.admitted (p : Port) : List (List Byte) → List (List Byte) × List (List Byte) × Pools
  | [] => ([], [], p.txUsed)
  | f :: rest =>
    let k := numAt f 0 1
    if p.hasRoom k then
      let (go, hold, used) := Port.admitted { p with txUsed := p.txUsed.add k } rest
      (f :: go, hold, used)
    else
      let (go, hold, used) := Port.admitted p rest
      (go, f :: hold, used)

/-- Frames that have their credit join the outgoing stream (R266, R272). -/
def Port.credited (p : Port) : Port :=
  let (go, hold, used) := p.admitted p.txHeld
  { p with txWait := p.txWait ++ go, txHeld := hold, txUsed := used }

/-- The room of a frame received is free again: its credit goes back with the next unit (R266, R272, R294). -/
def Port.freeRoom (p : Port) (kind : Nat) : Port :=
  if p.rxHeld.of kind = 0 then p else { p with rxHeld := p.rxHeld.sub kind, rxFreed := p.rxFreed.add kind }

/-- A unit as the port puts it on its lane, with the acknowledgement of this moment (R266). -/
def Port.unit (p : Port) (u : SentUnit) : TxUnit :=
  { lane := u.seq % 8, seq := u.seq, ack := (p.rxSeq + 65535) % 65536, credits := u.credits, nak := p.nak.isSome, idle := u.data.isEmpty, data := u.data }

/-- A new unit leaves with the credits that are due, one byte of each pool (R266); it is kept until it is acknowledged (R267). -/
def Port.newUnit (now : Nat) (p : Port) (data : List Byte) : Port :=
  let credits : Pools := { req := min 255 p.rxFreed.req, resp := min 255 p.rxFreed.resp }
  let u : SentUnit := { seq := p.txSeq, credits, data }
  { p with
    replay := p.replay ++ [u], light := p.light ++ [p.unit u]
    rxFreed := { req := p.rxFreed.req - credits.req, resp := p.rxFreed.resp - credits.resp }
    txSeq := (p.txSeq + 1) % 65536, ackAt := if p.replay.isEmpty then now else p.ackAt }

/-- May the port send a new unit: it is UP and its replay buffer has room (R267)? -/
def Port.mayCut (p : Port) : Bool := decide (p.mode = .up) && decide (p.replay.length < replayRoom)

/-- Cut waiting frames into units of at most 632 bytes while the port may send (R266, R267); `fuel` bounds their number. -/
def Port.cut (now : Nat) : Nat → Port → Port
  | 0, p => p
  | fuel + 1, p =>
    if p.txWait.isEmpty || !p.mayCut then p
    else
      let (bytes, left, part) := cutFrames 632 p.txWait
      Port.cut now fuel { (p.newUnit now bytes) with txWait := left, txPart := if left.isEmpty then false else part }

/-- Cut all that has its credit and waits. -/
def Port.cutAll (now : Nat) (p : Port) : Port :=
  let q := p.credited
  Port.cut now (q.txWait.flatten.length + 1) { q with light := [] }

/-- Send what waits; with nothing to send, the acknowledgement, the credits and a NAK that are due travel in an idle unit (R266, R267; log entry 19). -/
def Port.speak (now : Nat) (p : Port) : Port :=
  let q := p.cutAll now
  if q.light.isEmpty && q.mayCut then q.newUnit now [] else q

/-- Every unacknowledged unit is sent again, in order (R267). -/
def Port.again (p : Port) : Port := { p with light := p.replay.map p.unit }

/-- A frame joins a port's outgoing stream (R266). -/
def Port.send (now : Nat) (p : Port) (f : Frame) : Port := ({ p with txHeld := p.txHeld ++ [f.bytes] } : Port).cutAll now

/-- The egress port toward an engine: PORT_A, or PORT_B while PORT_A is not UP and MODE allows it (R271). -/
def State.egress (s : State) (dst : Nat) : Option Nat :=
  let e := (s.relend.routes.get 0 dst).toNat
  let up := fun (p : Nat) => decide ((s.port p).mode = .up)
  let a := bits e 0 6
  let b := bits e 6 6
  match bits e 12 2 with
  | 1 => if up a then some a else none
  | 2 => if up a then some a else if up b then some b else none
  | _ => none

/-- Send a frame by the route table; frames to the own id stay in the headland and wait at the port that owns their tag (R271). False: not sent. -/
def State.sendFrame (s : State) (f : Frame) : Bool × State :=
  let f := f.seal
  if f.dst = s.relend.engineId then (true, s.mapPort (f.srcPort % 64) fun p => { p with rx := p.rx ++ [f] })
  else match s.egress f.dst with
    | some p => (true, s.mapPort p fun x => x.send s.clock f)
    | none => (false, s)

/-- A response goes back to its requester: by the route table, to the own id through the headland (R271). -/
def State.sendReply (s : State) (req : Frame) (kind : Nat) (hold : Bool) (status : Code) (poison : Bool) (payload : List Byte) : State :=
  (s.sendFrame { Frame.plain kind req.src s.relend.engineId with
    srcPort := req.srcPort, tag := req.tag, seq := req.seq, attempt := req.attempt, hold, status, poison, len := payload.length, payload }).2

/-! ### Requests and tags (R273, R274, R288) -/

/-- Is a request's global address valid at its issuer (R273, R274): space 0x0, 0x1, 0x2, 0x3 or, read-only, 0xE with its form, for `len` bytes? -/
def spaceOk (kind addr len : Nat) : Bool :=
  let off := bits addr 0 48
  match bits addr 48 4 with
  | 0 => loftOk off && off % 64 == 0 && len == 64
  | 1 => bits off 44 4 == 0 && decide (bits off 20 24 < 0x100000) && decide (bits off 20 24 % 64 + len ≤ 64)
  | 2 => bits off 44 4 == 0 && decide (0x100000 ≤ bits off 20 24 ∧ bits off 20 24 < 0x100180) && bits off 20 24 % 8 == 0 && len == 8
  | 3 => decide (len ≤ 64)
  | 14 => kind == kRead && bits off 0 8 == 0 && bits off 32 8 == 0 && decide (len ≤ 64)
  | _ => false

/-- The port whose tag a request to an engine takes (R288); requests to the own id take port 0's. -/
def State.tagPort (s : State) (dst : Nat) : Option Nat := if dst = s.relend.engineId then some 0 else s.egress dst

/-- The lowest FREE tag of a port. -/
def Port.freeTag (p : Port) : Option Nat := (List.range 4096).find? fun t => (p.tags.find t).isNone

/-- How an attempt to send a request ended. -/
inductive Issue
  | sent
  | noTag (port : Nat)
  | failed (status : Code)
  deriving DecidableEq, Repr

/-- A request waits for a tag of the port (R289). -/
def Port.waits (now : Nat) (p : Port) : Port := { p with tagWait := some (p.tagWait.getD now) }

/-- A wait for a tag of the port is over, counted in STALL_CYCLES at `rate` half cycles a microsecond (R289, R298). -/
def Port.waited (now rate : Nat) (p : Port) : Port :=
  match p.tagWait with
  | none => p
  | some t => { (p.count pStall ((now - t) * rate / 2)) with tagWait := none }

/-- Issue a request: take a tag, toggle its SEQ, send the first attempt (R273, R288, R289, R290). Waits
for a tag are counted in core cycles of the West half (log entry 131). -/
def State.relendIssue (s : State) (owner : RequestOwner) (kind addr len amount : Nat) (poison : Bool) (payload : List Byte) : Issue × State :=
  let dst := bits addr 52 12
  if !spaceOk kind addr len then (.failed Codes.configInvalid, s)
  else match s.tagPort dst with
    | none => (.failed Codes.linkDown, s)
    | some p =>
      match (s.port p).freeTag with
      | none => (.noTag p, s.mapPort p (Port.waits s.clock))
      | some t =>
        let seq := !((s.port p).tagSeq.get false t)
        let frame := ({ Frame.plain kind dst s.relend.engineId with srcPort := p, tag := t, seq, len := if kind = kInc then 0 else len, addr, amount, poison, payload } : Frame).seal
        let s := s.mapPort p fun x => { x.waited s.clock s.clk.west.set with
          tagSeq := x.tagSeq.set false t seq
          tags := x.tags.put t { phase := .sent, frame, owner, since := s.clock, resent := false } }
        (.sent, (s.sendFrame frame).2)

/-- A request ends: its tag is FREE, or rests where it was re-sent (R288). -/
def State.tagEnded (s : State) (p t : Nat) : State :=
  match (s.port p).tags.find t with
  | none => s
  | some u =>
    s.mapPort p fun x => { x with tags := if u.resent then x.tags.put t { u with phase := .resting, since := s.clock } else x.tags.erase t }

/-- Send a request again (R288, R290). Answers LINK_DOWN where no route is usable. -/
def State.tagResend (s : State) (p t : Nat) (u : TagUse) : Option Code × State :=
  let frame := ({ u.frame with attempt := u.frame.attempt + 1 } : Frame).seal
  let (ok, s) := s.sendFrame frame
  if ok then (none, s.mapPort p fun x => { x with tags := x.tags.put t { u with frame, phase := .sent, since := s.clock, resent := true } })
  else (some Codes.linkDown, s)

/-- The tag in use that a RESPONSE, ACCEPT or NACK answers (R286). -/
def State.tagOf (s : State) (f : Frame) : Option TagUse :=
  match (s.port f.srcPort).tags.find f.tag with
  | some u => if u.phase ≠ .resting ∧ u.frame.seq = f.seq ∧ u.frame.attempt = f.attempt then some u else none
  | none => none

/-- Take the first frame at a port that passes. -/
def State.takeFrame (s : State) (p : Nat) (test : Frame → Bool) : Option (Frame × State) :=
  (takeFirst test (s.port p).rx).map fun e => (e.1, s.mapPort p fun x => { x with rx := e.2 })

/-- The room that a frame took on its link is free (R272, R294); a frame of the engine's own came over none. -/
def State.freeRoom (s : State) (p : Nat) (f : Frame) : State :=
  if f.src = s.relend.engineId then s else s.mapPort p fun x => x.freeRoom f.kind

/-- Take the first frame for this engine of a kind; its room stays held. -/
def State.heldKind (s : State) (p kind : Nat) : Option (Frame × State) :=
  s.takeFrame p fun f => f.kind == kind && f.dst == s.relend.engineId

/-- Take the first frame for this engine of a kind, and free its room. -/
def State.takeKind (s : State) (p kind : Nat) : Option (Frame × State) := (s.heldKind p kind).map fun e => (e.1, e.2.freeRoom p e.1)

end Sys2Proof.Machine
end

