-- ==== Sys2Proof/Machine/Dma.lean ====
section
/-!
DEFINITION. The DMA channels of an M-cell (R102–R105, R239–R242): descriptors, line reads and writes, completion.
-/
namespace Sys2Proof.Machine

/-- The fields of a descriptor (R239). -/
structure Desc where
  src : Nat
  dst : Nat
  length : Nat
  srcKind : Nat
  dstKind : Nat
  arrivalTally : Nat
  arrivalEn : Bool
  waitTally : Nat
  waitEn : Bool
  signalTally : Nat
  signalAmount : Nat
  flock : Nat
  threshold : Nat
  resv : Nat
  deriving DecidableEq, Repr

/-- Read a descriptor (R239). -/
def Desc.ofWord (w : Word256) : Desc :=
  let v := w.toNat
  { src := bits v 0 64, dst := bits v 64 64, length := bits v 128 24, srcKind := bits v 152 2, dstKind := bits v 154 2,
    arrivalTally := bits v 156 6, arrivalEn := bitAt v 162, waitTally := bits v 163 6, waitEn := bitAt v 169, signalTally := bits v 170 6,
    signalAmount := bits v 176 4, flock := bits v 180 12, threshold := bits v 192 32, resv := bits v 224 16 }

/-- Lines of a descriptor. -/
def Desc.lines (d : Desc) : Nat := d.length / 64

/-- The cell and offset of a MESH address (R58, R239). -/
def meshCell (a : Nat) : Coord := { x := bits a 0 10, y := bits a 10 10 }
def meshOffset (a : Nat) : Nat := bits a 20 24

/-- Is one side's address valid for a kind (R229, R242)? Kind 3 is FLOCK as a destination. -/
def sideOk (kind a len : Nat) : Bool :=
  match kind with
  | 0 => bits a 44 20 == 0 && meshOffset a % 64 == 0 && (meshCell a).present
  | 1 => decide (a < 2 ^ 48) && a % 64 == 0 && loftSpanOk a len
  | 2 => bits a 0 48 % 64 == 0
  | _ => meshOffset a % 64 == 0

/-- Is the descriptor valid (R242)? `flocks` are those of the M-cell's sender table. -/
def Desc.ok (d : Desc) (flocks : List Nat) : Bool :=
  d.length % 64 == 0 && decide (d.srcKind ≤ 2) && !(d.srcKind == 2 && d.dstKind == 2) && sideOk d.srcKind d.src d.length &&
  sideOk d.dstKind d.dst d.length && !(d.arrivalEn && (d.dstKind == 1 || d.dstKind == 2)) &&
  decide (d.arrivalTally ≤ 47 ∧ d.waitTally ≤ 47 ∧ d.signalTally ≤ 47) && (d.dstKind == 3 || d.flock == 0) &&
  (d.dstKind != 3 || decide (d.flock ∈ flocks)) && d.resv == 0

/-- Does a descriptor go through Relend (R283)? -/
def Desc.relend (d : Desc) : Bool := d.srcKind == 2 || d.dstKind == 2

/-- The address of line k on a side of a kind (R240). DESIGN CHOICE (log entry 120): an OFFSET of a MESH or FLOCK side beyond 24 bits wraps modulo 2^24. -/
def lineAddr (kind a k : Nat) : Nat :=
  match kind with
  | 0 | 3 => a % 2 ^ 20 + 2 ^ 20 * ((meshOffset a + 64 * k) % 2 ^ 24)
  | _ => a + 64 * k

/-- The descriptor fields of a queued one. -/
def DmaDesc.desc (d : DmaDesc) : Desc := Desc.ofWord d.word

/-- Lines that ended leave the descriptor; the lowest failed one gives its status, with what a flock line delivered (R212, R241). -/
def DmaDesc.settle (d : DmaDesc) : DmaDesc :=
  let ended := d.lines.filter fun l => l.phase == .done
  let failed := ended.foldl (fun (f : Option (Nat × Code × Nat)) l =>
    if l.status = Codes.ok then f
    else match f with
      | some (i, _) => if l.index < i then some (l.index, l.status, l.detail) else f
      | none => some (l.index, l.status, l.detail)) d.failed
  { d with lines := d.lines.filter (fun l => l.phase != .done), failed }

/-- Lines a channel has outstanding (R103). -/
def DmaChannel.outstanding (x : DmaChannel) : Nat := (x.queue.map fun d => d.lines.length).sum

/-- A gateway. -/
def State.gate (s : State) (g : Nat) : Gateway := s.relend.gateways.get .zero g

/-- Change a gateway. -/
def State.mapGate (s : State) (g : Nat) (f : Gateway → Gateway) : State :=
  { s with relend := { s.relend with gateways := s.relend.gateways.upd .zero g f } }

/-- Home stream slot of channel n beneath physical vault pv (R282): gateway and slot. -/
def homeSlot (pv n : Nat) : Nat × Nat := ((4 * pv + n) / 16, (4 * pv + n) % 16)

/-- The gateway that serves the slots of a home gateway: itself, the one it moved to, or none (R282, R330). -/
def State.gateServing (s : State) (home : Nat) : Option Nat :=
  if !(s.gate home).lost then some home
  else match s.relend.movedGates.find home with
    | some g => if (s.gate g).lost then none else some g
    | none => none

/-- Gateway and slot of a channel as they now stand (R282, R330). -/
def State.slotOf (s : State) (c : Coord) (ch : Nat) : Option (Nat × Nat) :=
  let (home, slot) := homeSlot (cellVault c) ch
  (s.gateServing home).map fun g => (g, slot)

/-- Lines that a channel's streams have outstanding: they count among its 16 (R103, R284). -/
def State.streamLines (s : State) (c : Coord) (ch : Nat) : Nat :=
  match s.slotOf c ch with
  | none => 0
  | some (g, slot) => ((List.range 2).map fun r => (((s.gate g).records.find (2 * slot + r)).map fun q => q.lines.length).getD 0).sum

/-- Settle every descriptor of a channel. -/
def State.settle (s : State) (c : Coord) (ch : Nat) : State := s.mapChannel c ch fun x => { x with queue := x.queue.map DmaDesc.settle }

/-- Change the line with a serial number. -/
def State.mapLine (s : State) (c : Coord) (ch serial : Nat) (f : DmaLine → DmaLine) : State :=
  s.mapChannel c ch fun x =>
    { x with
      queue := x.queue.map fun d =>
        if d.started && decide (d.base ≤ serial ∧ serial < d.base + d.next) then
          { d with lines := d.lines.map fun l => if l.index = serial - d.base then f l else l }
        else d }

/-- A line's read is over. -/
def State.lineRead (s : State) (c : Coord) (ch serial : Nat) (status : Code) (data : Payload) : State :=
  s.mapLine c ch serial fun l => { l with phase := .arrived, status, data }

/-- A line is over. -/
def State.lineDone (s : State) (c : Coord) (ch serial : Nat) (status : Code) : State :=
  s.mapLine c ch serial fun l => { l with phase := .done, status := if l.status = Codes.ok then status else l.status }

/-- A packet of a unit's request before its CRC (R186, R187). -/
def requestPacket (c : Coord) (s : State) (req tag type : Nat) (seq : Bool) (dst : Coord) (offset aux tally : Nat) (en : Bool) (flock : Nat)
    (payload : Payload) : Packet :=
  { type, epoch := s.epoch, seq, attempt := 0, age := s.clock % 4, dst, src := c, req, tag, offset, aux, tally, tallyEn := en, flock, payload,
    entries := [], crc := 0, left := none }

/-- Send a line's mesh request on a channel's tag; none where no tag is free (R103, R194, R197). -/
def State.lineRequest (s : State) (c : Coord) (ch serial type : Nat) (dst : Coord) (offset aux tally : Nat) (en : Bool) (flock : Nat)
    (payload : Payload) : Option State :=
  let x := s.cell c
  (x.freeTag (ch + 1) s.clock).map fun tag =>
    let key := 16 * (ch + 1) + tag
    let seq := x.mesh.seqBits.get false key
    let pkt := (requestPacket c s (ch + 1) tag type seq dst offset aux tally en flock payload).seal
    let o : Outstanding := { pkt, sentAt := s.clock, resent := false, local_ := none, arrival := none, by_ := .zero, line := serial, acks := 0,
                             drops0 := 0, drops1 := 0, members := none }
    (s.mapCell c fun x => { x with mesh := { x.mesh with out := x.mesh.out ++ [o], seqBits := x.mesh.seqBits.set false key (!seq) } }).inject c pkt

/-- Ask for an access to the channel's own scratchpad (R111, R113): the state with its bank slot taken, or none where it must wait, behind an older
request of the bank, an access that the channel already waits to make, or, for a read, the writes of the cycle (R95). -/
def State.padTurn (s : State) (c : Coord) (ch line : Nat) (a : PadAccess) : Option State :=
  let w := s.work c
  let wr := a != .lineRead
  let asked := (s.channel c ch).asking
  let since := (asked.map (·.since)).getD (w.cell.askCycle wr)
  if asked.all (fun q => q.access == a) && w.grants since (1 + ch) line wr && (wr || w.cell.mayRead) then
    some ((s.mapChannel c ch fun x => { x with asking := none }).setCell c (w.takeSlot line wr).cell)
  else none

/-- The channel waits for the slot of an access, and makes no other until it has it (R113). -/
def State.padAsk (s : State) (c : Coord) (ch line : Nat) (a : PadAccess) : State :=
  s.mapChannel c ch fun x =>
    if x.asking.all (fun q => q.access == a) then
      { x with asking := some { since := (x.asking.map (·.since)).getD ((s.cell c).askCycle (a != .lineRead)), line, access := a } }
    else x

/-- Read a line of a descriptor whose source is MESH or LOFT; none where it must wait for a tag (R240). -/
def State.startRead (s : State) (c : Coord) (ch serial : Nat) (d : Desc) (k : Nat) : Option State :=
  let a := lineAddr d.srcKind d.src k
  if d.srcKind = 0 then
    let off := meshOffset a
    if meshCell a = c then
      if inPadWindow off then
        if padAccessOk c.kind off 64 then
          let r := (s.work c).readHere off 64
          some ((s.absorb r.2).lineRead c ch serial Codes.ok r.1)
        else some (s.lineRead c ch serial Codes.configInvalid [])
      else match (s.cell c).readRegs c (s.dmaWait c) off 64 with
        | some data => some (s.lineRead c ch serial Codes.ok data)
        | none => some (s.lineRead c ch serial Codes.configInvalid [])
    else s.lineRequest c ch serial tGet (meshCell a) off 64 0 false 0 []
  else
    let (lv, line) := loftPlace a
    match s.loft.resolve lv with
    | none => some (s.lineRead c ch serial Codes.loftLost [])
    | some pv =>
      if vaultCell pv = c then
        if (s.vault pv).lost then some (s.lineRead c ch serial Codes.loftLost [])
        else some (s.mapVault pv fun v => { v with queue := v.queue ++ [{ src := .channel ch serial, line, write := none, accepted := false }] })
      else s.lineRequest c ch serial tLoftRd (vaultCell pv) line 0 0 false 0 []

/-- Write a line at a MESH, LOFT or FLOCK destination; none where it must wait for a tag (R240, R241). A write to the channel's own scratchpad waits
for its bank slot (R111); dropped by a drifted channel it still raises its arrival tally (log entry 125). -/
def State.startWrite (s : State) (c : Coord) (ch serial : Nat) (d : Desc) (k : Nat) (data : Payload) : Option State :=
  let a := lineAddr d.dstKind d.dst k
  let off := meshOffset a
  let mark := fun (t : State) => t.mapLine c ch serial fun l => { l with phase := .writing, data := [] }
  match d.dstKind with
  | 0 =>
    if meshCell a = c then
      if inPadWindow off then
        if padAccessOk c.kind off data.length then
          let write := fun (s : State) => (s.event c fun w =>
            let w := w.writeHere off data
            if d.arrivalEn then w.addTally d.arrivalTally 1 none else w).lineDone c ch serial Codes.ok
          if data.isEmpty then some (write s)
          else match s.padTurn c ch (off / 64) .lineWrite with
            | some s => some (write s)
            | none => some (s.padAsk c ch (off / 64) .lineWrite)
        else some (s.lineDone c ch serial Codes.configInvalid)
      else match (s.cell c).writeRegs c off data with
        | some x => some ((s.setCell c x).lineDone c ch serial Codes.ok)
        | none => some (s.lineDone c ch serial Codes.configInvalid)
    else (mark s).lineRequest c ch serial tPut (meshCell a) off data.length d.arrivalTally d.arrivalEn 0 data
  | 1 =>
    let (lv, line) := loftPlace a
    match s.loft.resolve lv with
    | none => some (s.lineDone c ch serial Codes.loftLost)
    | some pv =>
      if vaultCell pv = c then
        if (s.vault pv).lost then some (s.lineDone c ch serial Codes.loftLost)
        else some ((mark s).mapVault pv fun v => { v with queue := v.queue ++ [{ src := .channel ch serial, line, write := some data, accepted := false }] })
      else (mark s).lineRequest c ch serial tLoftWr (vaultCell pv) line 0 0 false 0 data
  | _ => (mark s).lineRequest c ch serial tFlockUp c off data.length d.arrivalTally d.arrivalEn d.flock data

/-- The scratchpad line of its own cell that a line of a descriptor is read from, if any. -/
def Desc.ownPad (d : Desc) (c : Coord) (k : Nat) : Option Nat :=
  let a := lineAddr d.srcKind d.src k
  if d.srcKind = 0 ∧ meshCell a = c ∧ inPadWindow (meshOffset a) ∧ padAccessOk c.kind (meshOffset a) 64 then some (meshOffset a / 64) else none

/-- Request the next line of the first started descriptor that has one, where the channel has room (R103, R240); none where nothing moves. A line of the
channel's own scratchpad waits for its bank slot (R111). -/
def State.pumpOne (s : State) (c : Coord) (ch : Nat) : Option State :=
  let x := s.channel c ch
  if x.aborted || decide (16 ≤ x.outstanding + s.streamLines c ch) then none
  else
    let moves := fun (d : DmaDesc) => d.started && !d.desc.relend && decide (d.next < d.total)
    match x.queue.find? moves with
    | none => none
    | some d =>
      let k := d.next
      let request := fun (s : State) =>
        (s.mapChannel c ch fun x =>
          { x with
            queue := mapFirst moves (fun q =>
              { q with next := k + 1, lines := q.lines ++ [{ index := k, phase := .reading, data := [], status := Codes.ok, detail := 0 }] })
              x.queue }).startRead c ch (d.base + k) d.desc k
      match d.desc.ownPad c k with
      | none => request s
      | some line => match s.padTurn c ch line .lineRead with
        | some s => request s
        | none => some (s.padAsk c ch line .lineRead)

/-- Request lines while the channel has room: at most 16 (R103). -/
def State.pump (s : State) (c : Coord) (ch : Nat) : State :=
  (List.range 16).foldl (fun (s : State) _ => s.orSame (s.pumpOne c ch)) (s.settle c ch)

/-- Request lines on every channel of a cell. -/
def State.pumpAll (s : State) (c : Coord) : State :=
  if c.kind = .m then (List.range 4).foldl (fun (s : State) ch => s.pump c ch) s else s

/-- A channel starts its next descriptor: every earlier one has requested its lines and its wait is met (R103, R241, R242). -/
def State.dmaStart (s : State) (c : Coord) (ch : Nat) : State :=
  let x := s.channel c ch
  match takeFirst (fun (d : DmaDesc) => !d.started) x.queue with
  | none => s
  | some (d, _) =>
    let earlier := x.queue.takeWhile (·.started)
    let g := d.desc
    let waits := g.waitEn && decide (g.waitTally ≤ 47)
    if x.aborted then s
    else if earlier.any fun q => decide (q.next < q.total) && q.placed.isNone then s
    else if waits && decide ((s.cell c).tallyAtStart g.waitTally < g.threshold) then s
    else
      let flocks := (s.router c).senders.map (·.1)
      let bad := d.invalid || !g.ok flocks
      let d' := { d with started := true, base := x.serial, invalid := bad, failed := if bad then some (0, Codes.configInvalid, 0) else none }
      (s.mapChannel c ch fun x =>
        { x with queue := mapFirst (fun q => !q.started) (fun _ => d') x.queue, serial := x.serial + d'.total }).pump c ch

/-- A line whose read is over is written, or fails as R241 says; on an aborted channel it is absorbed (R105). -/
def State.lineReadDone (s : State) (c : Coord) (ch : Nat) : State :=
  let s := s.settle c ch
  let x := s.channel c ch
  match x.queue.findSome? fun d => (d.lines.find? fun l => l.phase == .arrived).map fun l => (d, l) with
  | none => s
  | some (d, l) =>
    let g := d.desc
    let serial := d.base + l.index
    let toCell := g.dstKind == 0 || g.dstKind == 3
    let t : State :=
      if x.aborted then s.lineDone c ch serial l.status
      else if l.status = Codes.ok then s.orSame (s.startWrite c ch serial g l.index l.data)
      else if toCell ∧ l.status = Codes.loftUncorrectable then s.orSame (s.startWrite c ch serial g l.index (Payload.poison 64))
      else if toCell ∧ g.arrivalEn then s.orSame (s.startWrite c ch serial g l.index [])
      else s.lineDone c ch serial l.status
    t.pump c ch

/-- What the completion of a descriptor does at its cell (R104, R105, R120, R241): its status is written back as a checked write, a failure latched
with what a flock line delivered (R212), and its tally signalled. -/
def Work.descriptorDone (w : Work) (d : DmaDesc) : Work :=
  let (status, detail) := match d.failed with | some (_, st, n) => (st, n) | none => (Codes.ok, 0)
  let w := w.writeHere (d.addr + 30) (Payload.ofNat 2 status.toNat)
  let w := if status = Codes.ok then w else w.raiseHere status detail
  if d.desc.signalTally ≤ 47 then w.addTally d.desc.signalTally d.desc.signalAmount none else w

/-- The descriptor at the head completes once nothing of it is outstanding, in the cycle in which its status has its write slot (R104, R105, R111,
R241); on an aborted channel it leaves without a signal. -/
def State.dmaComplete (s : State) (c : Coord) (ch : Nat) : State :=
  let s := s.settle c ch
  let x := s.channel c ch
  match x.queue with
  | d :: rest =>
    if !d.started || !d.lines.isEmpty then s
    else if x.aborted && d.placed.isNone then s.mapChannel c ch fun x => { x with queue := rest }
    else if d.next < d.total then s
    else if x.aborted then s.mapChannel c ch fun x => { x with queue := rest }
    else
      let line := (d.addr + 30) / 64
      match s.padTurn c ch line .status with
      | none => s.padAsk c ch line .status
      | some s => ((s.mapChannel c ch fun x => { x with queue := rest }).event c fun w => w.descriptorDone d).pump c ch
  | [] => s

/-- The access that a channel waits to make is asked for again, if it is a write, or if it is a read (R95, R113). -/
def State.padRetry (s : State) (c : Coord) (ch : Nat) (wr : Bool) : State :=
  match (s.channel c ch).asking with
  | none => s
  | some q => match q.access, wr with
    | .lineRead, false => s.pump c ch
    | .lineWrite, true => s.lineReadDone c ch
    | .status, true => s.dmaComplete c ch
    | _, _ => s

/-- The accesses of one sort that the channels of a cell wait to make are asked for again, channel 0 first (R95, R113). -/
def State.padRetries (s : State) (c : Coord) (wr : Bool) : State := (List.range 4).foldl (fun (s : State) ch => s.padRetry c ch wr) s

/-- The writes of a cell's cycle, in the order of R95: the mesh port's, the DMA channels', the sequencer's that wait past their commit or come to it. Then
the reads of the cycle begin. -/
def State.writePhase (s : State) (c : Coord) : State :=
  if (s.cell c).seq.reading then s
  else ((s.event c fun w => w.portTurn (s.dmaWait c) false).padRetries c true).event c fun w => w.grantLate.commitDue.readsBegin

/-- A cell's cycle as far as the bank grants go (R95, R113, R115): its writes, then the reads of the mesh port and the DMA channels. -/
def State.grants (s : State) (c : Coord) : State :=
  let s := s.writePhase c
  (s.event c fun w => w.portTurn (s.dmaWait c) true).padRetries c false

/-- Is it an M-cell and a channel? -/
def channelOk (c : Coord) (ch : Nat) : Bool := c.present && c.kind == .m && decide (ch < 4)

/-- DMA_DESCRIPTOR_START c ch (R241). -/
def execDmaDescriptorStart (c : Coord) (ch : Nat) (s : State) : Answer := answerIf (channelOk c ch) (s.dmaStart c ch)

/-- DMA_LINE_READ_DONE c ch (R241). -/
def execDmaLineReadDone (c : Coord) (ch : Nat) (s : State) : Answer := answerIf (channelOk c ch) (s.lineReadDone c ch)

/-- DMA_DESCRIPTOR_COMPLETE c ch (R104, R105). -/
def execDmaDescriptorComplete (c : Coord) (ch : Nat) (s : State) : Answer := answerIf (channelOk c ch) (s.dmaComplete c ch)

end Sys2Proof.Machine
end

