-- ==== Sys2Proof/Machine/LoftServe.lean ====
section
/-!
DEFINITION. Line requests that vaults complete (R222, R227, R228), and the whole-line accesses of the RDMA engine and of ring units (R222, R229, R231, R326).
-/
namespace Sys2Proof.Machine

/-! ### Requests of the queue (R222) -/

/-- Answer a read: data with status OK or LOFT_UNCORRECTABLE, otherwise the status alone (R188, R227). -/
def State.loftAnswer (s : State) (pv : Nat) (q : LoftRequest) (data : Payload) (status : Code) : State :=
  let c := vaultCell pv
  match q.src with
  | .mesh p =>
    if status = Codes.loftLost then s.event c fun w => w.nack p status
    else s.event c fun w => w.answer p tReply status 64 data
  | .channel ch line => (s.lineRead c ch line status data).pump c ch

/-- The oldest accepted request of a bank completes (R222, R225–R228); `bad` port transfers of it showed bad parity. -/
def State.loftComplete (s : State) (pv bank bad : Nat) (errs : List LineErr) : State :=
  match takeFirst (fun (q : LoftRequest) => q.accepted && q.line % 32 == bank) (s.vault pv).queue with
  | none => s
  | some (q, rest) =>
    let s := s.mapVault pv fun v => { v with queue := rest }
    let s := match q.write with
      | some data => s.mapVault pv fun v => v.write q.line data
      | none =>
        let (data, status, v) := (s.vault pv).read q.line errs
        let s := s.mapVault pv fun _ => { v with portParity := satAdd 0xFFFF v.portParity (min 3 bad) }
        if 3 ≤ bad then s.loftAnswer pv q (Payload.poison 64) Codes.loftUncorrectable else s.loftAnswer pv q data status
    s.declareFailed pv

/-! ### Accesses of the RDMA engine and of ring units (R222, R227–R229, R326) -/

/-- The physical vault that serves a line address now, with the line, or the code that refuses it (R229, R237). -/
def State.lineAt (s : State) (a : Nat) : Except Code (Nat × Nat) :=
  if !loftOk a || a % 64 != 0 then .error Codes.configInvalid
  else
    let (lv, l) := loftPlace a
    match s.loft.resolve lv with
    | none => .error Codes.loftLost
    | some pv => if (s.vault pv).lost then .error Codes.loftLost else .ok (pv, l)

/-- Every accepted request of a bank completes, the oldest first (R222). -/
def State.bankServed (s : State) (pv bank : Nat) : State :=
  (List.range ((s.vault pv).queue.filter fun q => q.accepted && q.line % 32 == bank).length).foldl (fun (s : State) _ => s.loftComplete pv bank 0 []) s

/-- The vault comes to an access of the RDMA engine or of a ring unit, which its command brings whole: the queue has room again, and what was accepted before
it in its bank has completed (R222; log entry 129). -/
def State.engineTurn (s : State) (pv line : Nat) : State :=
  let s := match (s.vault pv).queue.filter (·.accepted) with
    | [] => s
    | q :: rest => if rest.length < 255 then s else s.loftComplete pv (q.line % 32) 0 []
  s.bankServed pv (line % 32)

/-- Read the line at a loft address through the vault map: data and status. -/
def State.loftRead (s : State) (a : Nat) (x : LineTrouble) : Payload × Code × State :=
  match s.lineAt a with
  | .error e => ([], e, s)
  | .ok (pv, l) =>
    let s := s.engineTurn pv l
    let (d, st, v) := (s.vault pv).read l x.errs
    let s := (s.mapVault pv fun _ => v.countBad x.badTransfers).declareFailed pv
    if 3 ≤ x.badTransfers then (Payload.poison 64, Codes.loftUncorrectable, s) else (d, st, s)

/-- Write the line at a loft address. -/
def State.loftWrite (s : State) (a : Nat) (p : Payload) (x : LineTrouble) : Code × State :=
  match s.lineAt a with
  | .error e => (e, s)
  | .ok (pv, l) =>
    let s := (s.engineTurn pv l).mapVault pv fun v => if 3 ≤ x.badTransfers then v.countBad x.badTransfers else (v.countBad x.badTransfers).write l p
    (if 3 ≤ x.badTransfers then Codes.loftUncorrectable else Codes.ok, s.declareFailed pv)

end Sys2Proof.Machine
end

