-- ==== Sys2Proof/Machine/Gate.lean ====
section
/-!
DEFINITION. Gateways (R280–R284, R291–R294): their mesh requests, the streams they carry out for DMA channels, and the inbound requests
they serve through windows (R275–R279).
-/
namespace Sys2Proof.Machine

/-- The edge fields: those with a place beside them in the lattice that holds no field (R13, R280; log entry 141). -/
def edgeFields : List Nat :=
  (List.range fieldCount).filter fun f =>
    let fc := colOfField f
    let fr := rowOfField f
    !(decide (0 < fc ∧ 0 < fr) && [(fc + 1, fr), (fc - 1, fr), (fc, fr + 1), (fc, fr - 1)].all fun p => (fieldAt p.1 p.2).isSome)

/-- The router beside which a gateway stands: one in an edge field, which one the part fixes (R280). -/
def gateCoord (g : Nat) : Coord :=
  let k := Config.gatewayPlace g
  let n := k / edgeFields.length
  let o := fieldOrigin (edgeFields.getD (k % edgeFields.length) 0)
  { x := o.x + n % 96, y := o.y + n / 96 % 80 }

/-- The channel whose slot a gateway serves (R282): the M-cell and channel. -/
def State.channelOf (s : State) (g slot : Nat) : Coord × Nat :=
  let home := match s.relend.movedGates.find? fun e => e.2 == g with | some e => e.1 | none => g
  let n := 16 * home + slot
  (vaultCell (n / 4), n % 4)

/-- Lines that a channel has outstanding, those of its streams among them (R103, R284). -/
def State.linesOut (s : State) (c : Coord) (ch : Nat) : Nat := (s.channel c ch).outstanding + s.streamLines c ch

/-- Change a stream record of a gateway, keyed 2 slot + record. -/
def State.mapRecord (s : State) (g key : Nat) (f : StreamRecord → StreamRecord) : State :=
  s.mapGate g fun x => { x with records := x.records.modify key f }

/-! ### Mesh requests of a gateway (R280, R294) -/

/-- A line of a stream ended one of its stages: its data arrived, or it is done (R241, R283). -/
def State.streamStage (s : State) (g key line : Nat) (write : Bool) (status : Code) (data : Payload) : State :=
  s.mapRecord g key fun r =>
    { r with
      lines := r.lines.map fun l =>
        if l.index = line then
          if write then { l with phase := .done, status := if l.status = Codes.ok then status else l.status }
          else { l with phase := .arrived, status, data }
        else l }

/-- A mesh request of a gateway ended: its stream line or inbound request takes note (R283, R292). -/
def State.gateEnded (s : State) (g : Nat) (use : GateUse) (status : Code) (data : Payload) : State :=
  match use with
  | .stream slot rec_ line write => s.streamStage g (2 * slot + rec_) line write status data
  | .serve id arrival => s.mapGate g fun x =>
      { x with
        inbound := x.inbound.map fun i =>
          if i.id = id then
            let i := { i with open_ := i.open_ - 1 }
            if arrival then (match i.done with
              | some (st, d) => { i with done := some (if st = Codes.ok then status else st, d) }
              | none => i)
            else { i with done := some (status, data) }
          else i }

/-- A request packet of a gateway enters the router at the gateway's port, or is refused there and ends (R190). -/
def State.gateInject (s : State) (g : Nat) (p : Packet) (use : GateUse) : State :=
  match s.injectCheck (gateCoord g) p with
  | .inr p => s.mapRouter (gateCoord g) fun r => r.inject 6 p
  | .inl status => (s.mapGate g fun x => { x with out := x.out.filter fun e => e.1.pkt.tag != p.tag }).gateEnded g use status []

/-- A gateway sends a mesh request on one of its 16 tags; none where no tag is free (R280, R294). -/
def State.gateRequest (s : State) (g : Nat) (use : GateUse) (type : Nat) (dst : Coord) (offset aux tally : Nat) (en : Bool) (flock : Nat)
    (payload : Payload) : Option State :=
  let x := s.gate g
  ((List.range 16).find? fun t => !x.out.any (fun o => o.1.pkt.tag == t) && decide (x.resting.get 0 t ≤ s.clock)).map fun tag =>
    let seq := x.seqBits.get false tag
    let pkt := (requestPacket (gateCoord g) s 5 tag type seq dst offset aux tally en flock payload).seal
    let o : Outstanding := { pkt, sentAt := s.clock, resent := false, local_ := none, arrival := none, by_ := .zero, line := 0, acks := 0, drops0 := 0,
                             drops1 := 0, members := none }
    (s.mapGate g fun x => { x with out := x.out ++ [(o, use)], seqBits := x.seqBits.set false tag (!seq) }).gateInject g pkt use

/-- An event of a gateway as a requester (R194, R196, R197, R212): the rules are a cell's, on the gateway's own requests. -/
def State.gateEvent (s : State) (g : Nat) (f : Work → Work) : State :=
  let x := s.gate g
  let c := gateCoord g
  let mesh : MeshState := { MeshState.reset with
    out := x.out.map (·.1)
    resting := x.resting.map fun e => (80 + e.1, e.2) }
  let w := f (Work.start c s.clock s.epoch s.freeIdx [] [] { Cell.reset with mesh })
  let useOf := fun (t : Nat) => (x.out.find? fun e => e.1.pkt.tag == t).map (·.2)
  let s := s.mapGate g fun x => { x with
    out := w.cell.mesh.out.filterMap fun o => (useOf o.pkt.tag).map fun u => (o, u)
    resting := w.cell.mesh.resting.map fun e => (e.1 - 80, e.2) }
  let s := if w.strays = 0 ∧ w.crcDrops = 0 then s else s.mapRouter c fun r => (r.count cStray w.strays).count cDropCrc w.crcDrops
  let s := w.ended.foldl (fun (s : State) e => match useOf e.1.pkt.tag with
    | some u => s.gateEnded g u e.2.1 e.2.2
    | none => s) s
  w.sends.foldl (fun (s : State) p => match useOf p.tag with
    | some u => s.gateInject g p u
    | none => s) s

/-! ### Streams (R281–R284) -/

/-- The stream record of a descriptor: the root of a FLOCK destination in [243:224], STATUS and the rest zero (R283). -/
def streamWord (w : Word256) (root : Option Coord) : Word256 :=
  BitVec.ofNat 256 (w.toNat % 2 ^ 224 + 2 ^ 224 * (match root with | some c => c.x % 1024 + 1024 * (c.y % 1024) | none => 0))

/-- The flock root a record carries. -/
def recordRoot (w : Word256) : Coord := { x := bits w.toNat 224 10, y := bits w.toNat 234 10 }

/-- How far a line of a stream came: its request is sent or it ended; it waits for a mesh tag of the gateway; it waits for a Relend tag (R284, R289). -/
inductive LineTry
  | went (s : State)
  | meshWait
  | tagWait (s : State)

/-- A mesh request of a stream's line. -/
def LineTry.ofMesh (t : Option State) : LineTry := match t with | some s => .went s | none => .meshWait

/-- A Relend request of a stream's line: sent, or ended with a status. -/
def State.lineIssue (s : State) (g key k kind a : Nat) (write poison : Bool) (data : List Byte) : LineTry :=
  match s.relendIssue (.stream g (key / 2) (key % 2) k) kind a 64 0 poison data with
  | (.sent, s) => .went s
  | (.failed st, s) => .went (s.streamStage g key k write st [])
  | (.noTag _, s) => .tagWait s

/-- Read line k of a stream: on the mesh, or over Relend (R240, R283). -/
def State.streamRead (s : State) (g key : Nat) (d : Desc) (k : Nat) : LineTry :=
  let use := GateUse.stream (key / 2) (key % 2) k false
  let a := lineAddr d.srcKind d.src k
  match d.srcKind with
  | 0 => .ofMesh (s.gateRequest g use tGet (meshCell a) (meshOffset a) 64 0 false 0 [])
  | 1 =>
    let (lv, line) := loftPlace a
    match s.loft.resolve lv with
    | none => .went (s.streamStage g key k false Codes.loftLost [])
    | some pv => .ofMesh (s.gateRequest g use tLoftRd (vaultCell pv) line 0 0 false 0 [])
  | _ => s.lineIssue g key k kRead a false false []

/-- Write line k of a stream with its data (R240, R283, R287). -/
def State.streamWrite (s : State) (g key : Nat) (word : Word256) (k : Nat) (data : Payload) : LineTry :=
  let d := Desc.ofWord word
  let use := GateUse.stream (key / 2) (key % 2) k true
  let a := lineAddr d.dstKind d.dst k
  match d.dstKind with
  | 0 => .ofMesh (s.gateRequest g use tPut (meshCell a) (meshOffset a) data.length d.arrivalTally d.arrivalEn 0 data)
  | 1 =>
    let (lv, line) := loftPlace a
    match s.loft.resolve lv with
    | none => .went (s.streamStage g key k true Codes.loftLost [])
    | some pv => .ofMesh (s.gateRequest g use tLoftWr (vaultCell pv) line 0 0 false 0 data)
  | 2 => s.lineIssue g key k kWrite a true data.poisoned (data.map fun b => if data.poisoned then 0 else b.data)
  | _ => .ofMesh (s.gateRequest g use tFlockUp (recordRoot word) (meshOffset a) data.length d.arrivalTally d.arrivalEn d.flock data)

/-- Was the channel that a slot serves aborted with its region (R105, R282)? -/
def State.streamCut (s : State) (g key : Nat) : Bool :=
  let (c, ch) := s.channelOf g (key / 2)
  (s.channel c ch).aborted

/-- Lines of a record that ended leave it, and the record is DONE once none is left (R283, R284), or, for a channel that is aborted, once none is
outstanding (R105); what ended is progress. -/
def StreamRecord.settle (cut : Bool) (r : StreamRecord) : StreamRecord :=
  let d : DmaDesc := { addr := 0, word := r.word, invalid := false, started := true, base := 0, next := r.next, lines := r.lines, failed := r.failed,
                       placed := none, recorded := false }
  let e := d.settle
  let ended := r.lines.length - e.lines.length
  let done := (cut || decide (d.desc.lines ≤ r.next)) && e.lines.isEmpty
  { r with lines := e.lines, failed := e.failed, linesDone := r.linesDone + ended, done, changed := r.changed || decide (0 < ended) || (done && !r.done),
           stalledAt := if 0 < ended then none else r.stalledAt }

/-- The stream is held at the Relend in-flight bound: no tag of its port is free (R284, R289). -/
def StreamRecord.stall (now : Nat) (r : StreamRecord) : StreamRecord :=
  { r with stalledAt := some (r.stalledAt.getD now), changed := r.changed || r.stalledAt.isNone }

/-- The stream is held no more: its request went (R284). -/
def StreamRecord.freed (r : StreamRecord) : StreamRecord := { r with stalledAt := none, changed := r.changed || r.stalledAt.isSome }

/-- A line of a stream was requested; where that took a tag of the bound, the stream is held no more (R284). -/
def StreamRecord.asked (relend : Bool) (r : StreamRecord) : StreamRecord := if relend then r.freed else r

/-- Write the lines of a stream whose data have arrived, or fail them as R241 says; those of an aborted channel are absorbed (R105). -/
def State.streamWrites (s : State) (g key : Nat) : State :=
  match (s.gate g).records.find key with
  | none => s
  | some r =>
    let d := Desc.ofWord r.word
    let toCell := d.dstKind == 0 || d.dstKind == 3
    (r.lines.filter fun l => l.phase == .arrived).foldl (fun (s : State) l =>
      let t : LineTry :=
        if s.streamCut g key then .went (s.streamStage g key l.index true l.status [])
        else if l.status = Codes.ok then s.streamWrite g key r.word l.index l.data
        else if toCell ∧ l.status = Codes.loftUncorrectable then s.streamWrite g key r.word l.index (Payload.poison 64)
        else if toCell ∧ d.arrivalEn then s.streamWrite g key r.word l.index []
        else .went (s.streamStage g key l.index true l.status [])
      match t with
      | .went t => t.mapRecord g key fun r =>
          ({ r with lines := r.lines.map fun m => if m.index = l.index ∧ m.phase = .arrived then { m with phase := .writing, data := [] } else m }
            : StreamRecord).asked (d.dstKind == 2)
      | .meshWait => s
      | .tagWait t => t.mapRecord g key (StreamRecord.stall s.clock)) s

/-- Read the next line of a stream, where its channel has fewer than 16 outstanding (R103, R284) and is not aborted (R105). While a line waits for a tag
to be written, the stream stays held. -/
def State.streamNext (s : State) (g key : Nat) : State :=
  match (s.gate g).records.find key with
  | none => s
  | some r =>
    let d := Desc.ofWord r.word
    let (c, ch) := s.channelOf g (key / 2)
    if d.lines ≤ r.next ∨ 16 ≤ s.linesOut c ch ∨ s.streamCut g key then s
    else
      let t := s.mapRecord g key fun r =>
        { r with next := r.next + 1, lines := r.lines ++ [{ index := r.next, phase := .reading, data := [], status := Codes.ok, detail := 0 }] }
      match t.streamRead g key d r.next with
      | .went t => t.mapRecord g key (StreamRecord.asked (d.srcKind == 2 && !r.lines.any fun l => l.phase == .arrived))
      | .meshWait => s
      | .tagWait t => (t.mapRecord g key fun _ => r.stall s.clock)

/-- A stream moves on: arrived lines are written, further ones read (R283). -/
def State.streamPump (s : State) (g key : Nat) : State :=
  let cut := s.streamCut g key
  let s := s.streamWrites g key
  let s := s.mapRecord g key (StreamRecord.settle cut)
  let s := (List.range 16).foldl (fun (s : State) _ => s.streamNext g key) s
  let s := s.streamWrites g key
  s.mapRecord g key (StreamRecord.settle cut)

/-! ### The records on the mesh (R281, R283, R284) -/

/-- A unit of a gateway offset (R281): stream slot, record, and whether the line index addresses the record itself. -/
def gateOffset (off : Nat) : Nat × Nat × Bool := (bits off 19 4, bits off 18 1, bits off 0 18 == 0x3FFFF)

/-- Does a packet at a router with a gateway reach the gateway and not the cell (R281)? -/
def Packet.forGate (p : Packet) : Bool := decide (0x800000 ≤ p.offset)

/-- A response of a gateway to a request that reached it. -/
def State.gateRespond (s : State) (g : Nat) (p : Packet) (type : Nat) (status : Code) (aux : Nat) (data : Payload) : State :=
  if p.posted then s
  else s.mapRouter (gateCoord g) fun r => r.inject 6 (p.respond type (gateCoord g) s.epoch s.clock status.toNat aux data)

/-- Is a record busy: PUT and not DONE (R283)? -/
def State.recordBusy (s : State) (g key : Nat) : Bool := ((s.gate g).records.find key).any fun r => !r.done

/-- A stream record as its PUT brings it (R283). -/
def StreamRecord.fresh (word : Word256) (id : Nat) : StreamRecord :=
  { word, next := 0, lines := [], linesDone := 0, failed := none, done := false, stalledAt := none, changed := false, polledAt := none, id }

/-- A record PUT takes its record, and the stream begins (R283). -/
def State.recordTaken (s : State) (g key : Nat) (word : Word256) : State :=
  (s.mapGate g fun x => { x with records := x.records.put key (StreamRecord.fresh word x.nextId), nextId := x.nextId + 1 }).streamPump g key

/-- A PUT reaches a gateway (R196, R281, R283): of 32 bytes to a record that is not busy, it is the record; any other, and one to another line index, is
refused with CONFIG_INVALID (log entry 67). The duplicate filter at its router covers it. -/
def State.gatePut (s : State) (g : Nat) (p : Packet) : State :=
  let c := gateCoord g
  if !p.crcOk then s.event c fun w => w.crcFail p
  else match (s.cell c).mesh.view p.src p.req p.tag p.seq p.attempt s.clock with
  | .duplicate => s.gateRespond g p tAck Codes.ok 0 []
  | .unsure => s.gateRespond g p tNack Codes.e2eGiveup 0 []
  | .fresh =>
    let (slot, rec_, whole) := gateOffset p.offset
    let key := 2 * slot + rec_
    if !whole || p.payload.length != 32 || p.payload.poisoned || s.recordBusy g key then s.gateRespond g p tNack Codes.configInvalid 0 []
    else
      let s := s.mapCell c fun x => { x with mesh := x.mesh.record p.src p.req p.tag p.seq s.clock }
      (s.gateRespond g p tAck Codes.ok 0 []).recordTaken g key (BitVec.ofNat 256 p.payload.toNat)

/-- Microseconds a stream has been held (R284). -/
def StreamRecord.stallUs (r : StreamRecord) (now : Nat) : Nat := match r.stalledAt with | some t => now - t | none => 0

/-- The 16 bytes of a poll's reply (R284). -/
def StreamRecord.report (r : StreamRecord) (now : Nat) : List Byte :=
  let (first, status) := match r.failed with | some (k, st, _) => (k, st) | none => (0, 0)
  leBytes 4 r.linesDone ++ leBytes 4 first ++ leBytes 2 status.toNat ++
  leBytes 1 ((if r.done then 1 else 0) + (if r.stalledAt.isSome then 2 else 0) + (if r.failed.isSome then 4 else 0)) ++ leBytes 1 0 ++
  leBytes 4 (min 0xFFFFFFFF (r.stallUs now))

/-- The gateway answers a poll (R284). -/
def State.pollReply (s : State) (g key : Nat) (r : StreamRecord) (p : Packet) : State :=
  (s.mapRecord g key fun r => { r with changed := false, polledAt := none }).gateRespond g p tReply Codes.ok 16
    ((r.report s.clock).map PByte.ofData)

/-- A GET reaches a gateway (R281, R284): a poll of 16 bytes is answered at once where the record is DONE (a stream of an aborted channel is once none of
its lines is outstanding) or changed, and held otherwise; anything else, and a poll of a record that was never PUT, is refused with CONFIG_INVALID (log entry 67). -/
def State.gateGet (s : State) (g : Nat) (p : Packet) : State :=
  let (slot, rec_, whole) := gateOffset p.offset
  let key := 2 * slot + rec_
  if !p.crcOk then s.event (gateCoord g) fun w => w.crcFail p
  else if !whole || p.aux != 16 then s.gateRespond g p tNack Codes.configInvalid 0 []
  else
    let s := if s.streamCut g key then s.streamPump g key else s
    match (s.gate g).records.find key with
    | none => s.gateRespond g p tNack Codes.configInvalid 0 []
    | some r =>
      if r.done || r.changed then s.pollReply g key r p
      else s.mapRecord g key fun r => { r with polledAt := some ((r.polledAt.map (·.1)).getD s.clock, p) }

/-! ### Windows (R275–R279) -/

/-- Does a window's range hold `len` bytes at an offset of a space (R275, R277)? -/
def Window.covers (w : Window) (space off len : Nat) : Bool :=
  w.space == space && decide (0 < w.size) &&
  (if space = 0 then decide (w.base ≤ off ∧ off + max 1 len ≤ w.base + w.size)
   else bits w.base 0 20 == bits off 0 20 && decide (bits w.base 20 24 ≤ bits off 20 24 ∧
     bits off 20 24 + max 1 len ≤ bits w.base 20 24 + w.size))

/-- The right a request needs: READ, WRITE, INC. -/
def Window.allows (w : Window) (kind : Nat) : Bool := if kind = kRead then w.read else if kind = kWrite then w.write else w.inc

/-- Change a window. -/
def State.mapWindow (s : State) (n : Nat) (f : Window → Window) : State :=
  { s with relend := { s.relend with windows := s.relend.windows.upd .zero n f } }

/-- The window to which a rejected request counts: one that covers it, first one that is not CLOSED, else the lowest-numbered (R279; log entry 38). -/
def State.coveringWindow (s : State) (space off len : Nat) : Option Nat :=
  let covers := fun (e : Nat × Window) => e.2.covers space off len
  ((s.relend.windows.find? fun e => e.2.mode != .closed && covers e) <|> s.relend.windows.find? covers).map (·.1)

/-- The window check (R278, R279): the window that admits a request, or none with the covering window's REJECTED counted. An admitted request
keeps its window busy until it is answered. -/
def State.windowCheck (s : State) (kind space off len : Nat) : Option Nat × State :=
  match s.relend.windows.find? fun e => e.2.mode == .open_ && e.2.covers space off len && e.2.allows kind with
  | some (n, _) => (some n, s.mapWindow n fun w => { w with accepted := satAdd 0xFFFFFFFF w.accepted 1, busy := w.busy + 1 })
  | none => match s.coveringWindow space off len with
    | some n => (none, s.mapWindow n fun w => { w with rejected := satAdd 0xFFFFFFFF w.rejected 1 })
    | none => (none, s)

/-! ### Serving (R292–R294) -/

/-- The live gateway a request goes to (R292). -/
def State.serveGate (s : State) (f : Frame) : Nat :=
  let g := (f.srcPort % 4) * 4096 + f.tag
  if !(s.gate g).lost then g
  else match (List.range 16384).find? fun i => !(s.gate ((g + i) % 16384)).lost with
    | some i => (g + i) % 16384
    | none => g

/-- Is it the same use of a tag (R293)? -/
def Frame.sameUse (a b : Frame) : Bool := a.src == b.src && a.srcPort == b.srcPort && a.tag == b.tag && a.seq == b.seq

/-- Send the data access of an inbound request (R292); none where it waits for a tag of the gateway. -/
def State.serveAccess (s : State) (g : Nat) (i : Inbound) : Option State :=
  let f := i.frame
  let off := bits f.addr 0 48
  let use := GateUse.serve i.id false
  let data : Payload := if f.poison then Payload.poison f.payload.length else f.payload.map PByte.ofData
  let w := s.relend.windows.get .zero i.window
  let cell := meshCell off
  let local_ := meshOffset off
  match bits f.addr 48 4 with
  | 0 =>
    let (lv, line) := loftPlace off
    match s.loft.resolve lv with
    | none => some (s.gateEnded g use Codes.loftLost [])
    | some pv =>
      if f.kind = kRead then s.gateRequest g use tLoftRd (vaultCell pv) line 0 0 false 0 []
      else s.gateRequest g use tLoftWr (vaultCell pv) line 0 0 false 0 data
  | 1 =>
    if f.kind = kRead then s.gateRequest g use tGet cell local_ f.len 0 false 0 []
    else s.gateRequest g use tPut cell local_ f.payload.length w.arrivalTally w.arrivalEn 0 data
  | _ =>
    if f.kind = kRead then s.gateRequest g use tGet cell local_ f.len 0 false 0 []
    else if f.kind = kWrite then s.gateRequest g use tPut cell local_ f.payload.length 0 false 0 data
    else s.gateRequest g use tTallyAdd cell f.amount 0 ((local_ - 0x100000) / 8) true 0 []

/-- Raise the arrival tally of a space 0x0 write whose LOFT_WR has been acknowledged (R292). -/
def State.serveArrival (s : State) (g : Nat) (i : Inbound) : Option State :=
  let w := s.relend.windows.get .zero i.window
  s.gateRequest g (.serve i.id true) tTallyAdd { x := w.arrivalX, y := w.arrivalY } 1 0 w.arrivalTally true 0 []

/-- Does an inbound request still owe its arrival increment (R292)? -/
def State.owesArrival (s : State) (i : Inbound) : Bool :=
  let w := s.relend.windows.get .zero i.window
  bits i.frame.addr 48 4 == 0 && i.frame.kind == kWrite && w.arrivalEn && !i.arrivalSent &&
  (match i.done with | some (st, _) => st == Codes.ok | none => false)

/-- Change an inbound request. -/
def State.mapInbound (s : State) (g id : Nat) (f : Inbound → Inbound) : State :=
  s.mapGate g fun x => { x with inbound := x.inbound.map fun i => if i.id = id then f i else i }

/-- An inbound request at a gateway moves on where it can; it gives up its room on the link when it has its mesh tag (R294). -/
def State.serveOne (s : State) (g : Nat) (i : Inbound) : State :=
  if !i.issued then
    match ((s.mapInbound g i.id fun i => { i with issued := true, open_ := i.open_ + 1 }).freeRoom i.port i.frame).serveAccess g i with
    | some t => t
    | none => s
  else if s.owesArrival i then
    match (s.mapInbound g i.id fun i => { i with arrivalSent := true, open_ := i.open_ + 1 }).serveArrival g i with
    | some t => t
    | none => s
  else s

/-- What asks for a gateway's tags, by age: an inbound request, or a stream record (R294). -/
def Gateway.askers (x : Gateway) : List (Nat × (Inbound ⊕ Nat)) :=
  let inbound : List (Nat × (Inbound ⊕ Nat)) := x.inbound.map fun (i : Inbound) => (i.id, Sum.inl i)
  let streams : List (Nat × (Inbound ⊕ Nat)) := (x.records.filter fun e => !e.2.done).map fun e => (e.2.id, Sum.inr e.1)
  (inbound ++ streams).mergeSort fun a b => decide (a.1 ≤ b.1)

/-- Everything at a gateway moves on, the oldest first (R294). -/
def State.gatePump (s : State) (g : Nat) : State :=
  (s.gate g).askers.foldl (fun (s : State) e => match e.2 with
    | .inl i => s.serveOne g i
    | .inr key => s.streamPump g key) s

/-- An outcome is stored; the oldest of 64 is evicted (R293). -/
def Gateway.store (x : Gateway) (o : Outcome) (now : Nat) : Gateway :=
  if x.outcomes.length < 64 then { x with outcomes := x.outcomes ++ [o] }
  else { x with outcomes := x.outcomes.drop 1 ++ [o], evicted := some now }

/-- Does an inbound request keep the form of its space: one whole loft line, bytes of one scratchpad line, one tally word (R231, R274)? -/
def Frame.wholeAccess (f : Frame) (len : Nat) : Bool := f.kind == kInc || spaceOk f.kind f.addr len

/-- An inbound request in spaces 0x0–0x2 at the serving gateway (R279, R293); stored outcomes are of writes and increments and answer those. -/
def State.serve (s : State) (p : Nat) (f : Frame) : State :=
  let g := s.serveGate f
  let x := s.gate g
  let space := bits f.addr 48 4
  match if f.kind = kRead then none else x.outcomes.find? fun o => o.src == f.src && o.port == f.srcPort && o.tag == f.tag && o.seq == f.seq with
  | some o => (s.freeRoom p f).sendReply f kResponse false o.status false []
  | none =>
    if x.inbound.any fun i => i.frame.sameUse f then s.freeRoom p f
    else if decide (0 < f.attempt) && (match x.evicted with | some t => decide (s.clock < t + 64) | none => false) then (s.freeRoom p f).sendReply f kNack false Codes.e2eGiveup false []
    else if space = 3 then (s.freeRoom p f).sendReply f kNack false Codes.configInvalid false []
    else
      let len := if f.kind = kInc then 8 else if f.kind = kRead then f.len else f.payload.length
      let reject := fun (s : State) => ((s.freeRoom p f).mapPort p fun x => x.count pRejected 1).sendReply f kNack false Codes.windowClosed false []
      if 2 < space then reject s
      else match s.windowCheck f.kind space (bits f.addr 0 48) len with
        | (none, s) => reject s
        | (some n, s) =>
          if !f.wholeAccess len then
            -- the gateway would have to present part of a line: refused before any of it moves (R231; log entry 133)
            ((s.freeRoom p f).mapWindow n fun w => { w with busy := w.busy - 1 }).sendReply f kNack false Codes.configInvalid false []
          else
          (s.mapGate g fun x => { x with
            inbound := x.inbound ++ [{ id := x.nextId, port := p, frame := f, window := n, since := s.clock, told := false, issued := false, done := none,
                                       open_ := 0, arrivalSent := false }]
            nextId := x.nextId + 1 }).gatePump g

end Sys2Proof.Machine
end

