-- ==== Sys2Proof/Machine/MusterOps.lean ====
section
/-!
DEFINITION. Musters (R251–R262): arrivals at the tree's nodes, rounds and releases, the release at a cell, and the linked rounds of several
engines with their skews (R259, R260, R295, R315).
-/
namespace Sys2Proof.Machine

/-- A muster. -/
def State.muster (s : State) (m : Nat) : Muster := s.musters.get .zero m

/-- Change a muster. -/
def State.mapMuster (s : State) (m : Nat) (f : Muster → Muster) : State := { s with musters := s.musters.upd .zero m f }

/-- Is the muster linked (R252)? -/
def Muster.isLinked (u : Muster) : Bool := !u.members.isEmpty

/-- The leader: the member with the lowest engine id (R252). -/
def Muster.leader (u : Muster) : Nat := u.members.headD 0

/-- The top node (R253). -/
def Muster.topNode (u : Muster) : Nat :=
  match u.cells with
  | k :: _ => treeNode u.top (Coord.ofKey k)
  | [] => 12000

/-- Level of a node. -/
def nodeLevel (n : Nat) : Nat := if n < 10000 then 0 else if n < 11000 then 1 else if n < 12000 then 2 else 3

/-- Children of a node that have participants below them, the ring unit's arrivals at the apex with them (R253, R307). -/
def Muster.need (u : Muster) (n : Nat) : Nat :=
  let cells := u.cells.map Coord.ofKey
  match nodeLevel n with
  | 0 => (cells.filter fun c => treeNode 0 c == n).length
  | l + 1 => (((cells.filter fun c => treeNode (l + 1) c == n).map fun c => treeNode l c).dedup).length + (if n = 12000 then u.units else 0)

/-- Counter and flags of a parity at a node. -/
def Muster.countAt (u : Muster) (n : Nat) (p : Bool) : Nat := let c := u.counts.get (0, 0) n; if p then c.2 else c.1
def Muster.flagAt (u : Muster) (n : Nat) (p : Bool) : Bool := let f := u.flags.get (false, false) n; if p then f.2 else f.1

/-- Set them. -/
def Muster.setNode (u : Muster) (n : Nat) (p : Bool) (count : Nat) (flag : Bool) : Muster :=
  { u with
    counts := u.counts.upd (0, 0) n fun c => if p then (c.1, count) else (count, c.2)
    flags := u.flags.upd (false, false) n fun f => if p then (f.1, flag) else (flag, f.2) }

/-- What a round in progress is, all cleared, as at the release of the step-start muster (R257); LAST_FLAG stays that of the last release (R261). -/
def Muster.clear (u : Muster) : Muster :=
  { u with
    counts := [], flags := [], transit := [], arrived := (0, 0), releases := [], rounds := 0, oldest := false,
    waiting := none, linked := [], lastRelease := [], counted := [] }

/-- Abandoned rounds are cleared, as START does (R257): the counts of past rounds stay for the debug view (R261, R262). -/
def Muster.abandon (u : Muster) : Muster :=
  { u.clear with rounds := u.rounds, lastRelease := u.lastRelease, counted := u.counted }

/-- The region that holds a muster, and whether it is its step-end muster. -/
def State.holderOf (s : State) (m : Nat) : Option (Nat × Region × Bool) :=
  let h := (s.muster m).region
  (s.regions.find h).map fun r => (h, r, r.musters[1]? == some m)

/-- A round of parity p releases in this engine's tree: into every branch with participants; a step-end muster delivers its FLAG (R255, R257, R175). -/
def State.treeRelease (s : State) (m : Nat) (p flag : Bool) : State :=
  let holder := s.holderOf m
  let stepEnd := match holder with | some (_, _, e) => e | none => false
  let s := s.mapMuster m fun u =>
    { u with
      rounds := satAdd 0xFFFFFFFF u.rounds 1, oldest := !p, lastFlag := flag,
      arrived := if p then (u.arrived.1, 0) else (0, u.arrived.2),
      releases := if stepEnd then u.releases else u.releases ++ u.cells, waiting := none }
  match holder with
  | some (h, _, true) =>
    -- the first step-end release after a lane's failure is where its spare takes over (R320)
    let s := { s with relend := { s.relend with ports := s.relend.ports.mapVals .zero fun _ x => if x.laneFailed = [] then x else { x with laneDue := true } } }
    s.mapRegion h fun r => { r with run := r.run.map fun q => { q with ended := some flag } }
  | _ => s

/-! ### Linked rounds (R259, R260, R295, R315) -/

/-- Payload of MUSTER_ARRIVE and of MUSTER_RELEASE (R295). -/
def musterBits (m : Nat) (p flag : Bool) : List Byte := leBytes 1 m ++ leBytes 1 ((if p then 1 else 0) + (if flag then 2 else 0))

/-- Send MUSTER_ARRIVE to the leader (R259). -/
def State.sendArrive (s : State) (m : Nat) (p flag : Bool) : State :=
  let payload := musterBits m p flag ++ List.replicate 14 0
  (s.sendFrame { Frame.plain kMusterArrive (s.muster m).leader s.relend.engineId with len := 16, payload }).2

/-- Send MUSTER_RELEASE to a member (R259). -/
def State.sendRelease (s : State) (m engine : Nat) (p flag : Bool) (slowest skew : Nat) : State :=
  let payload := musterBits m p flag ++ leBytes 2 slowest ++ leBytes 4 (min skew 0xFFFFFFFF) ++ List.replicate 8 0
  (s.sendFrame { Frame.plain kMusterRelease engine s.relend.engineId with len := 16, payload }).2

/-- Nanoseconds of REFCLK cycles of 6.4 ns (R260). -/
def refNs (cycles : Nat) : Nat := cycles * 32 / 5

/-- Skews of the members that arrived for parity p, and SLOWEST with MAX_SKEW (R260). -/
def Muster.skewsOf (u : Muster) (p : Bool) : List (Nat × Nat) :=
  let here := u.linked.filter fun a => a.2.1 == p
  let first := here.foldl (fun m a => min m a.2.2.2) ((here.head?.map fun a => a.2.2.2).getD 0)
  here.map fun a => (a.1, refNs (a.2.2.2 - first))

/-- SLOWEST: the largest skew, the lowest engine id on a tie (R260). -/
def slowestOf (l : List (Nat × Nat)) : Nat × Nat :=
  match l with
  | [] => (0, 0)
  | a :: rest => rest.foldl (fun b x => if b.2 < x.2 ∨ (b.2 = x.2 ∧ x.1 < b.1) then x else b) a

/-- Where a muster keeps what it has of a parity. -/
def parityKey (p : Bool) : Nat := if p then 1 else 0

/-- A linked release applies at this member: its tree releases, and on FLAG 0 the step in progress commits, whatever befell the region after it posted
(R175, R259, R307, R316, R317). -/
def State.memberRelease (s : State) (m : Nat) (p flag : Bool) (slowest skew : Nat) : State :=
  let s := s.mapMuster m fun u => { u with lastRelease := u.lastRelease.put (parityKey p) (flag, slowest, skew) }
  let s := s.treeRelease m p flag
  match s.holderOf m with
  | some (h, r, true) =>
    let n := (r.run.map (·.step)).getD 0
    let s := { s with rings := s.rings.map fun e =>
      if e.2.region = h ∧ e.2.phase = .posted then
        (e.1, { e.2 with phase := .idle, outcome := some (!flag), step := n, cause := if flag ∧ e.2.cause = 0 then 5 else e.2.cause })
      else e }
    if flag ∨ r.run.isNone then s else s.mapRegion h fun r => { r with committed := n }
  | _ => s

/-- The ring unit of a region stops, its FLAG 1 is on its way to the leader by the caller, and the region is forced with COLLECTIVE_ABORT (R314). -/
def State.collectiveForced (s : State) (h cause : Nat) : State := (s.stopRings h cause true).force h Codes.collectiveAbort

/-- A linked release reaches a member (R259, R315): one that waits for it takes it, before its own apex has completed the member aborts, and a repeated
one does nothing. -/
def State.releaseReaches (s : State) (m : Nat) (p flag : Bool) (slowest skew : Nat) : State :=
  let u := s.muster m
  match u.waiting with
  | some (q, _, _) => if q = p then s.memberRelease m p flag slowest skew else s
  | none =>
    if (u.lastRelease.find (parityKey p)).isSome then s
    else match s.holderOf m with
      | some (h, r, true) =>
        if flag ∧ r.mode = .running then
          ((s.mapMuster m fun u => { u with lastRelease := u.lastRelease.put (parityKey p) (flag, slowest, skew) }).collectiveForced h 5)
        else s
      | _ => s

/-- A follower takes a linked release's MAX_SKEW (R409). -/
def State.skewStep (s : State) (slowest skew : Nat) : State :=
  if !s.pwr.follow then s
  else if s.pwr.skewNs ≤ skew ∧ slowest ≠ s.relend.engineId then
    { s with pwr := { s.pwr with skewSteps := min 2 (s.pwr.skewSteps + 1), calm := 0 } }
  else if 2 * skew < s.pwr.skewNs then
    if 8 ≤ s.pwr.calm + 1 then { s with pwr := { s.pwr with skewSteps := s.pwr.skewSteps - 1, calm := 0 } }
    else { s with pwr := { s.pwr with calm := s.pwr.calm + 1 } }
  else { s with pwr := { s.pwr with calm := 0 } }

/-- The leader releases a round: to every other member by MUSTER_RELEASE, and at its own engine, which a follower uses as any other (R259, R260, R315, R409). -/
def State.leaderRelease (s : State) (m : Nat) (p flag : Bool) : State :=
  let u := s.muster m
  let skews := u.skewsOf p
  let (slowest, skew) := slowestOf skews
  let s := s.mapMuster m fun u => { u with skews := skews, linked := u.linked.filter fun a => a.2.1 != p }
  let s := (u.members.filter (· != s.relend.engineId)).foldl (fun (s : State) e => s.sendRelease m e p flag slowest skew) s
  ((s.releaseReaches m p flag slowest skew).skewStep slowest skew).mapMuster m fun u =>
    { u with lastRelease := u.lastRelease.put (parityKey p) (flag, slowest, skew), counted := u.counted.put (parityKey p) (skews.map (·.1)) }

/-- Did the last released round of parity p count the engine (R295)? -/
def Muster.hasCounted (u : Muster) (engine : Nat) (p : Bool) : Bool := decide (engine ∈ u.counted.get [] (parityKey p))

/-- Is the last released round of parity p the last round released at all? -/
def Muster.latest (u : Muster) (p : Bool) : Bool :=
  (u.lastRelease.find (parityKey p)).isSome && ((u.lastRelease.find (parityKey !p)).isNone || u.oldest == !p)

/-- Has the round that follows the last released one of parity p counted the engine, open or released itself (R295)? -/
def Muster.nextCounted (u : Muster) (engine : Nat) (p : Bool) : Bool :=
  (u.linked.any fun a => a.1 == engine && a.2.1 == !p) || (u.latest (!p) && u.hasCounted engine (!p))

/-- An arrival is counted: with the last member's, or with FLAG 1, the round is released (R259, R315). -/
def State.leaderTakes (s : State) (m engine : Nat) (p flag : Bool) (stamp : Nat) : State :=
  let s := s.mapMuster m fun u => { u with linked := u.linked ++ [(engine, p, flag, stamp)] }
  let u := s.muster m
  let here := u.linked.filter fun a => a.2.1 == p
  if flag || here.length == u.members.length then s.leaderRelease m p (here.any fun a => a.2.2.1) else s

/-- An arrival at the leader (R259, R295, R315): ignored where the open round has counted the member; answered with the release again where the last
released round of its parity counted it and the next has not; ignored where the round released last did without it; counted else. One with FLAG 1 after a
release with FLAG 0 repeats no arrival of that round, and is of one not yet released (R315; log entry 156). -/
def State.leaderCount (s : State) (m engine : Nat) (p flag : Bool) (stamp : Nat) : State :=
  let u := s.muster m
  if !decide (engine ∈ u.members) || u.leader != s.relend.engineId || u.linked.any (fun a => a.1 == engine && a.2.1 == p) then s
  else match u.lastRelease.find (parityKey p) with
    | some (f, slowest, skew) =>
      if flag && !f then s.leaderTakes m engine p flag stamp
      else if u.hasCounted engine p && !u.nextCounted engine p then
        if engine = s.relend.engineId then s else s.sendRelease m engine p f slowest skew
      else if u.latest p then s
      else s.leaderTakes m engine p flag stamp
    | none => s.leaderTakes m engine p flag stamp

/-- The REFCLK cycle at which a microsecond tick falls: 156, 313, 469 and 625 of every 625 (R370). -/
def refCycles (us : Nat) : Nat := (us * 625 + 2) / 4

/-- This engine's arrival for a linked round: MUSTER_ARRIVE to the leader, or a count at its own (R259). -/
def State.linkedArrive (s : State) (m : Nat) (p flag : Bool) : State :=
  let s := s.mapMuster m fun u => { u with waiting := some (p, flag, s.clock) }
  if (s.muster m).leader = s.relend.engineId then s.leaderCount m s.relend.engineId p flag (refCycles s.clock)
  else s.sendArrive m p flag

/-! ### The tree (R253–R257) -/

/-- Did the region that holds a step-end muster abort its collective in this step? Its round then goes no further than its own apex (R314–R316). -/
def State.roundAborted (s : State) (m : Nat) : Bool :=
  match s.holderOf m with
  | some (h, _, true) => s.rings.any fun e => e.2.region == h && e.2.phase == .aborted
  | _ => false

/-- A completion of parity p reaches a node: it counts, and a full count goes upward or releases the round (R255). -/
def State.nodeCounts (s : State) (m n : Nat) (p flag : Bool) : State :=
  let u := s.muster m
  let count := u.countAt n p + 1
  let f := u.flagAt n p || flag
  let s := if n < 10000 then s.mapMuster m fun u =>
      { u with arrived := if p then (u.arrived.1, u.arrived.2 + 1) else (u.arrived.1 + 1, u.arrived.2) } else s
  if count < u.need n then s.mapMuster m fun u => u.setNode n p count f
  else
    let s := s.mapMuster m fun u => u.setNode n p 0 false
    if n = u.topNode then (if u.isLinked then (if s.roundAborted m then s else s.linkedArrive m p f) else s.treeRelease m p f)
    else s.mapMuster m fun u => { u with transit := u.transit ++ [(treeParent n, p, f)] }

/-- The place in the tree of a row node (0–7) or the apex (8). -/
def nodePlaceOf (n : Nat) : Nat := if n = 8 then 12000 else 11000 + n

/-- Is a tree node a row node or the apex that has failed, its place not yet taken, or FENCED with no spare left (R254)? -/
def State.nodeOut (s : State) (n : Nat) : Bool :=
  (s.defects.nodeWaits.any fun e => n == nodePlaceOf e.1) || s.defects.nodePlace.any fun e => e.2 == .fenced && n == nodePlaceOf e.1

/-- MUSTER_NODE_ARRIVAL m: the completion longest on its way reaches its node; one on its way to a lost node waits until its place is taken, and never gets
through one that is FENCED (R254). -/
def State.nodeArrival (s : State) (m : Nat) : State :=
  match takeFirst (fun (t : Nat × Bool × Bool) => !s.nodeOut t.1) (s.muster m).transit with
  | some ((n, p, f), rest) => (s.mapMuster m fun u => { u with transit := rest }).nodeCounts m n p f
  | none => s

/-- A release of muster m applies at a cell (R256, R257): the oldest pending round's signal, then the held arrival is posted where the cell runs. -/
def Work.musterRelease (w : Work) (m : Nat) : Work :=
  let none_ : CellMuster := { nextParity := false, pending := [] }
  let part := w.cell.must.parts.get none_ m
  let w := w.map fun c => { c with must := { c.must with parts := c.must.parts.set none_ m { part with pending := part.pending.drop 1 } } }
  let w := match part.pending with
    | g :: _ => w.addTallyBy g.tally g.amount none g.by_.fold g.by_.entry g.by_.iter
    | [] => w
  match w.cell.must.overrun with
  | some o =>
    if o.muster ≠ m then w
    else
      let w := w.map fun c => { c with must := { c.must with overrun := none } }
      if w.cell.mode = .running then
        let part := w.cell.must.parts.get none_ m
        let w := w.map fun c => { c with must := { c.must with
          parts := c.must.parts.set none_ m { nextParity := !part.nextParity, pending := part.pending ++ [o.signal] } } }
        { w with posts := w.posts ++ [(m, part.nextParity, o.flag)] }
      else w
  | none => w

/-- MUSTER_RELEASE_AT_CELL m c: a release on its way reaches the cell. -/
def State.releaseAtCell (s : State) (m : Nat) (c : Coord) : State :=
  if c.key ∈ (s.muster m).releases then
    (s.mapMuster m fun u => { u with releases := u.releases.erase c.key }).event c fun w => w.musterRelease m
  else s

/-- MUSTER_NODE_ARRIVAL m (R255). -/
def execMusterNodeArrival (m : Nat) (s : State) : Answer := answerIf (decide (m < 256)) (s.nodeArrival m)

/-- MUSTER_RELEASE_AT_CELL m c (R256). -/
def execMusterReleaseAtCell (m : Nat) (c : Coord) (s : State) : Answer := answerIf (decide (m < 256) && c.present) (s.releaseAtCell m c)

/-- MUSTER_ARRIVE_RESEND m: 10 µs after its last MUSTER_ARRIVE a member sends it again until the release arrives (R295). -/
def State.arriveResend (s : State) (m : Nat) : State :=
  match (s.muster m).waiting with
  | some (p, f, at_) =>
    if (s.muster m).leader = s.relend.engineId then s
    else
      let s := s.advanceTo (at_ + 10)
      (s.mapMuster m fun u => { u with waiting := some (p, f, s.clock) }).sendArrive m p f
  | none => s

/-- MUSTER_ARRIVE_RESEND m (R295). -/
def execMusterArriveResend (m : Nat) (s : State) : Answer := answerIf (decide (m < 256)) (s.arriveResend m)

end Sys2Proof.Machine
end

