-- ==== Sys2Proof/Machine/Ring.lean ====
section
/-!
DEFINITION. The collective ring unit (R299–R318): engine partials, segments, check records and checksums, the deadline, and abort.
-/
namespace Sys2Proof.Machine

/-- A ring slot. -/
def State.ring (s : State) (k : Nat) : RingSlot := s.rings.get .zero k

/-- Change a ring slot. -/
def State.mapRing (s : State) (k : Nat) (f : RingSlot → RingSlot) : State := { s with rings := s.rings.modify k f }

/-- The declaration a slot holds, with its region (R299). -/
def State.declOf (s : State) (k : Nat) : Option (Region × Image × Collective) :=
  match s.rings.find k with
  | none => none
  | some t => match s.regions.find t.region with
    | none => none
    | some r =>
      let im := Image.ofBody r.body
      (im.collectives[t.decl]?).map fun d => (r, im, d)

/-- Position of this engine in the member list (R305). -/
def State.ringIndex (s : State) (d : Collective) : Nat := d.members.idxOf s.relend.engineId

/-- Lines of segment j (R305). -/
def Collective.segment (d : Collective) (j : Nat) : List Nat :=
  let m := d.members.length
  let lo := j * d.lines / m
  upFrom lo ((j + 1) * d.lines / m - lo)

/-- RESULT[n mod 2] (R303). -/
def Collective.result (d : Collective) (n : Nat) : Nat := if n % 2 = 0 then d.result0 else d.result1

/-- Address of the record of segment j and phase h − 1 (R302). -/
def Collective.checkLine (d : Collective) (j : Nat) (second : Bool) : Nat := d.checkBase + 64 * (2 * j + (if second then 1 else 0))

/-- The modulus of the checksums (R310). -/
def csMod : Nat := 2 ^ 61 - 1

/-- Checksum of a word (R310). -/
def csWord (exact : Bool) (w : Nat) : Nat := if exact then ((Acc.ofNat w).int % (csMod : Int)).toNat else w % csMod

/-- Checksum of lines: two words each (R299, R310). -/
def csLines (exact : Bool) (ls : List Payload) : Nat :=
  ls.foldl (fun acc l => (acc + csWord exact (Payload.toNat (l.take 32)) + csWord exact (Payload.toNat (l.drop 32))) % csMod) 0

/-- Combine two lines word by word (R80, R304). -/
def combineLines (a b : Payload) : Payload := reducePayload 0 (a.take 32) (b.take 32) ++ reducePayload 0 (a.drop 32) (b.drop 32)

/-- One round of the pairwise tree (R304). -/
def pairUp : List Payload → List Payload
  | a :: b :: rest => combineLines a b :: pairUp rest
  | l => l

/-- The pairwise tree over the leaves of one line, `fuel` rounds (R304). -/
def treeSum : Nat → List Payload → Payload
  | 0, l => l.headD []
  | fuel + 1, l => if l.length ≤ 1 then l.headD [] else treeSum fuel (pairUp l)

/-- Does a word hold what its mode requires, with ESCAPE clear (R311, last row, R312)? -/
def wordFits (d : Collective) (w : Nat) : Bool :=
  let a := Acc.ofNat w
  !a.escape && (if d.mode = 1 then a.exact && a.anchor == d.anchor else !a.exact && a.value >>> 32 == 0 && a.resv == 0)

/-- Is a line read from RECV or RESULT free of poison and of words with ESCAPE set (R128, R312)? -/
def lineClean (l : Payload) : Bool :=
  !(Payload.poisoned (l.take 32)) && !(Payload.poisoned (l.drop 32)) && !(Acc.ofNat (Payload.toNat (l.take 32))).escape &&
  !(Acc.ofNat (Payload.toNat (l.drop 32))).escape

/-- Does a line pass: not poisoned, both words as required (R128, R311)? -/
def lineFits (d : Collective) (l : Payload) : Bool :=
  !(Payload.poisoned (l.take 32)) && !(Payload.poisoned (l.drop 32)) && wordFits d (Payload.toNat (l.take 32)) && wordFits d (Payload.toNat (l.drop 32))

/-- Keep a local failure: the slot's first, raised as a fault of its region (R312). -/
def State.ringFails (s : State) (k j : Nat) (second : Bool) (code : Code) : State :=
  let t := s.ring k
  if t.failure.isSome then s
  else (s.mapRing k fun t => { t with failure := some (j, second, code), cause := if code = Codes.checksumMismatch then 1 else 2 }).regionFault t.region code

/-- A check of the ring unit (R311, R312). -/
def State.ringCheck (s : State) (k j : Nat) (second ok : Bool) : State := if ok then s else s.ringFails k j second Codes.checksumMismatch

/-- Read a line of the own loft for the ring unit; a failed access is a local failure (R312). -/
def State.ringRead (s : State) (k j : Nat) (second : Bool) (a : Nat) : Payload × State :=
  let (d, st, s) := s.loftRead a .none
  if st = Codes.ok then (d, s) else (Payload.poison 64, s.ringFails k j second st)

/-- Write a line of the own loft. -/
def State.ringWrite (s : State) (k j : Nat) (second : Bool) (a : Nat) (p : Payload) : State :=
  let (st, s) := s.loftWrite a p .none
  if st = Codes.ok then s else s.ringFails k j second st

/-- Read the lines of a segment from an area. -/
def State.ringLines (s : State) (k j : Nat) (second : Bool) (base : Nat) (ls : List Nat) : List Payload × State :=
  ls.foldl (fun (acc : List Payload × State) l =>
    let (d, s) := acc.2.ringRead k j second (base + 64 * l)
    (acc.1 ++ [d], s)) ([], s)

/-- The engine partial of segment j (R304), every leaf line and every partial checked (R311). -/
def State.partialOf (s : State) (k : Nat) (d : Collective) (j : Nat) : List Payload × State :=
  (d.segment j).foldl (fun (acc : List Payload × State) l =>
    let (leaves, s) := (List.range d.leaves).foldl (fun (a : List Payload × State) leaf =>
      let (x, s) := a.2.ringRead k j false (d.leafBase + 64 * (d.lines * leaf + l))
      (a.1 ++ [x], s.ringCheck k j false (lineFits d x))) ([], acc.2)
    let p := treeSum 7 leaves
    (acc.1 ++ [p], s.ringCheck k j false (lineFits d p))) ([], s)

/-- A check record (R308). -/
def checkRecord (d : Collective) (carried n j : Nat) (second : Bool) (sender : Nat) : List Byte :=
  leBytes 8 carried ++ leBytes 4 n ++ leBytes 2 j ++ leBytes 1 (if second then 2 else 1) ++ leBytes 1 d.mode ++ leBytes 2 d.anchor ++
  leBytes 2 sender ++ leBytes 4 d.lines ++ leBytes 2 d.members.length ++ List.replicate 38 0

/-- Does a record belong here: STEP, SEGMENT, PHASE, SENDER (R309)? -/
def recordPlaced (b : List Byte) (n j : Nat) (second : Bool) (sender : Nat) : Bool :=
  numAt b 8 4 == n && numAt b 12 2 == j && numAt b 14 1 == (if second then 2 else 1) && numAt b 18 2 == sender

/-- Does its declaration agree (R309)? -/
def recordAgrees (d : Collective) (b : List Byte) : Bool :=
  numAt b 15 1 == d.mode && numAt b 16 2 == d.anchor && numAt b 20 4 == d.lines && numAt b 24 2 == d.members.length && zeroAt b 26 38

/-- The Relend address of the successor's loft (R305). -/
def State.successorAt (s : State) (d : Collective) (a : Nat) : Nat :=
  d.members.getD ((s.ringIndex d + 1) % d.members.length) 0 * 2 ^ 52 + a

/-- A WRITE of the ring unit ended with a status other than OK, or its deadline expired, or its release came early: the member aborts — FLAG 1
to the leader, the region forced (R313–R315). -/
def State.ringAbort (s : State) (k cause : Nat) : State :=
  let t := s.ring k
  match s.regions.find t.region with
  | none => s
  | some r =>
    if r.mode ≠ .running then s
    else
      let s := s.collectiveForced t.region cause
      match r.musters[1]? with
      | some m => s.linkedArrive m false true
      | none => s

/-- Send one WRITE of a segment: a data line, or, once every data line has its RESPONSE, the check record (R307). Answers whether anything moved. -/
def State.ringSendOne (s : State) (k : Nat) (d : Collective) (n : Nat) (q : RingSend) : Bool × State :=
  let owner := RequestOwner.ring k q.segment q.second
  let put := fun (s : State) (f : RingSend → RingSend) => s.mapRing k fun t =>
    { t with sends := t.sends.map fun x => if x.segment = q.segment ∧ x.second = q.second then f x else x }
  match q.rest with
  | (l, data) :: rest =>
    let base := if q.second then d.result n else d.recvBase
    let poison := data.poisoned
    match s.relendIssue owner kWrite (s.successorAt d (base + 64 * l)) 64 0 poison (data.map fun b => if poison then 0 else b.data) with
    | (.sent, s) => (true, put s fun x => { x with rest, open_ := x.open_ + 1 })
    | (.noTag _, s) => (false, s)
    | (.failed _, s) => (false, s.ringAbort k 4)
  | [] =>
    if q.open_ = 0 ∧ !q.record then
      match s.relendIssue owner kWrite (s.successorAt d (d.checkLine q.segment q.second)) 64 0 false
        (checkRecord d q.carried n q.segment q.second (s.ringIndex d)) with
      | (.sent, s) => (true, put s fun x => { x with record := true, open_ := 1 })
      | (.noTag _, s) => (false, s)
      | (.failed _, s) => (false, s.ringAbort k 4)
    else (false, s)

/-- Send what a slot's segments have to send, while tags are free; `fuel` bounds the WRITEs (R307). -/
def State.ringPump : Nat → State → Nat → State
  | 0, s, _ => s
  | fuel + 1, s, k =>
    match s.declOf k with
    | none => s
    | some (_, _, d) =>
      let t := s.ring k
      if t.phase = .aborted then s
      else match t.sends.find? fun q => !q.rest.isEmpty || (q.open_ == 0 && !q.record) with
        | none => s
        | some q =>
          let (moved, s) := s.ringSendOne k d t.step q
          if moved then s.ringPump fuel k else s

/-- Start sending a segment to the successor (R307). -/
def State.ringSend (s : State) (k : Nat) (d : Collective) (j : Nat) (second : Bool) (carried : Nat) (data : List Payload) : State :=
  (s.mapRing k fun t => { t with
    sends := t.sends ++ [{ segment := j, second, rest := (d.segment j).zip data, open_ := 0, record := false, carried }] }).ringPump (data.length + 1) k

/-- The total of segment j: written to RESULT[n mod 2], checked in EXACT mode, passed on where there are other members (R305, R307, R311). -/
def State.ringTotal (s : State) (k : Nat) (d : Collective) (n j : Nat) (expect : Option Nat) (total : List Payload) : State :=
  let base := d.result n
  let s := ((d.segment j).zip total).foldl (fun (s : State) e =>
    (s.ringWrite k j false (base + 64 * e.1) e.2).ringCheck k j false (lineFits d e.2)) s
  let (back, s) := s.ringLines k j false base (d.segment j)
  let cs := csLines (d.mode == 1) back
  let s := match expect with | some e => s.ringCheck k j false (cs == e) | none => s
  let s := s.mapRing k fun t => { t with written := addOnce t.written j }
  if d.members.length ≤ 1 then s else s.ringSend k d j true cs back

/-- Has the slot's gather muster released in this step (R307)? -/
def State.gathered (s : State) (r : Region) (d : Collective) : Bool :=
  match r.musters[d.gather]? with
  | some m => decide (0 < (s.muster m).rounds)
  | none => false

/-- COLLECTIVE_GATHER_RELEASE: the deadline timer starts, and the partial of segment (i − 1) mod M is built and sent (R307, R313). -/
def State.gatherRelease (s : State) (k : Nat) : State :=
  match s.declOf k with
  | none => s
  | some (r, _, d) =>
    let t := s.ring k
    if t.phase = .gathering ∧ r.mode = .running ∧ s.gathered r d then
      let m := d.members.length
      let i := s.ringIndex d
      let j := (i + m - 1) % m
      let s := s.mapRing k fun t => { t with phase := .reducing, since := s.clock, hand := (j, false) }
      let (p, s) := s.partialOf k d j
      if m ≤ 1 then s.ringTotal k d t.step j none p else s.ringSend k d j false (csLines (d.mode == 1) p) p
    else s

/-- PHASE1_RECORD: the record of segment j is verified, RECV combined with the own partial, and the sum forwarded or, at the owner, made the
total (R307, R309, R311). -/
def State.phaseOne (s : State) (k j : Nat) : State :=
  match s.declOf k with
  | none => s
  | some (_, _, d) =>
    let t := s.ring k
    let m := d.members.length
    let i := s.ringIndex d
    if !(t.phase == .reducing || t.phase == .distributing) || decide (m ≤ j) || decide (j ∈ t.first) || i == (j + 1) % m then s
    else
      let (rec_, s) := s.ringRead k j false (d.checkLine j false)
      let b := rec_.map (·.data)
      if !recordPlaced b t.step j false ((i + m - 1) % m) then s
      else
        let s := s.mapRing k fun t => { t with first := t.first ++ [j], since := s.clock, hand := (j, false) }
        let carried := numAt b 0 8
        let exact := d.mode == 1
        let s := s.ringCheck k j false (recordAgrees d b)
        let (recv, s) := s.ringLines k j false d.recvBase (d.segment j)
        let s := s.ringCheck k j false (recv.all lineClean)
        let s := s.ringCheck k j false (csLines exact recv == carried)
        let (p, s) := s.partialOf k d j
        let sum := List.zipWith combineLines recv p
        let s := s.ringCheck k j false (sum.all (lineFits d))
        let grown := (carried + csLines exact p) % csMod
        if i = j then s.ringTotal k d t.step j (if exact then some grown else none) sum
        else s.ringSend k d j false (if exact then grown else csLines false sum) sum

/-- PHASE2_RECORD: the record is verified, and the segment passed on unless the successor owns it (R307, R311). -/
def State.phaseTwo (s : State) (k j : Nat) : State :=
  match s.declOf k with
  | none => s
  | some (_, _, d) =>
    let t := s.ring k
    let m := d.members.length
    let i := s.ringIndex d
    if !(t.phase == .reducing || t.phase == .distributing) || decide (m ≤ j) || decide (j ∈ t.second) || i == j then s
    else
      let (rec_, s) := s.ringRead k j true (d.checkLine j true)
      let b := rec_.map (·.data)
      if !recordPlaced b t.step j true ((i + m - 1) % m) then s
      else
        let s := s.mapRing k fun t => { t with second := t.second ++ [j], since := s.clock, hand := (j, true), phase := .distributing }
        let carried := numAt b 0 8
        let s := s.ringCheck k j true (recordAgrees d b)
        let (res, s) := s.ringLines k j true (d.result t.step) (d.segment j)
        let s := s.ringCheck k j true (res.all lineClean)
        let s := s.ringCheck k j true (csLines (d.mode == 1) res == carried)
        let s := s.mapRing k fun t => { t with written := addOnce t.written j }
        if (i + 1) % m = j then s else s.ringSend k d j true carried res

/-- A WRITE of the ring unit ended (R307, R313, R314): OK restarts the deadline and frees the next, any other status aborts. -/
def State.ringEnded (s : State) (k j : Nat) (second : Bool) (status : Code) : State :=
  let s := s.mapRing k fun t => { t with
    sends := (t.sends.map fun x => if x.segment = j ∧ x.second = second then { x with open_ := x.open_ - 1 } else x).filter fun x =>
      !(x.record && x.open_ == 0) }
  if status = Codes.ok then
    let s := s.mapRing k fun t => { t with since := s.clock }
    s.ringPump 4096 k
  else
    let t := s.ring k
    if t.phase = .reducing ∨ t.phase = .distributing then s.ringAbort k 4 else s

/-- RING_ARRIVAL_POST: every segment lies in RESULT and every WRITE has its RESPONSE: the arrival at the apex, with FLAG (R307, R312). -/
def State.ringPost (s : State) (k : Nat) : State :=
  match s.declOf k with
  | none => s
  | some (r, _, d) =>
    let t := s.ring k
    if (t.phase = .reducing ∨ t.phase = .distributing) ∧ t.sends = [] ∧ (List.range d.members.length).all (fun j => decide (j ∈ t.written)) then
      let flag := t.failure.isSome
      let s := s.mapRing k fun t => { t with phase := .posted, postedFlag := some flag }
      match r.musters[1]? with
      | some m => s.mapMuster m fun u => { u with transit := u.transit ++ [(12000, false, flag)] }
      | none => s
    else s

/-- COLLECTIVE_DEADLINE: the timer reaches DEADLINE_US without progress (R313, R314). -/
def State.ringDeadline (s : State) (k : Nat) : State :=
  match s.declOf k with
  | none => s
  | some (_, _, d) =>
    let t := s.ring k
    if t.phase = .reducing ∨ t.phase = .distributing then (s.advanceTo (t.since + d.deadline)).ringAbort k 3 else s

/-- What START writes over CHECK, and a step's fresh slots (R307, R309). -/
def State.clearCheck (s : State) (k : Nat) : State :=
  match s.declOf k with
  | none => s
  | some (_, _, d) => (List.range (2 * d.members.length)).foldl (fun (s : State) l => (s.loftWrite (d.checkBase + 64 * l) (Payload.ofNat 64 0) .none).2) s

/-- A step starts for the slots of a region: they wait for their gather musters (R307). -/
def State.ringsStart (s : State) (h n : Nat) : State :=
  { s with rings := s.rings.map fun e =>
      if e.2.region = h then
        (e.1, { RingSlot.zero with region := h, decl := e.2.decl, phase := .gathering, step := n, outcome := none }) else e }

/-- Ring slots are 0–15 (R300). -/
def slotOk (k : Nat) : Bool := decide (k < 16)

/-- COLLECTIVE_GATHER_RELEASE slot (R307). -/
def execCollectiveGatherRelease (slot : Nat) (s : State) : Answer := answerIf (slotOk slot) (s.gatherRelease slot)

/-- PHASE1_RECORD slot segment (R307). -/
def execPhase1Record (slot segment : Nat) (s : State) : Answer := answerIf (slotOk slot) (s.phaseOne slot segment)

/-- PHASE2_RECORD slot segment (R307). -/
def execPhase2Record (slot segment : Nat) (s : State) : Answer := answerIf (slotOk slot) (s.phaseTwo slot segment)

/-- RING_ARRIVAL_POST slot (R307). -/
def execRingArrivalPost (slot : Nat) (s : State) : Answer := answerIf (slotOk slot) (s.ringPost slot)

/-- COLLECTIVE_DEADLINE slot (R313). -/
def execCollectiveDeadline (slot : Nat) (s : State) : Answer := answerIf (slotOk slot) (s.ringDeadline slot)

end Sys2Proof.Machine
end

