-- ==== Sys2Proof/Machine/Mesh.lean ====
section
/-!
DEFINITION. The mesh between cells (R183–R217): a packet's hop, what routers drop, branch and combine, deliveries, flock trees (R209), and
the conditions under which a routing version is installed (R200).
-/
namespace Sys2Proof.Machine

/-- Free flits beyond the link in a direction (R183). -/
def State.roomAt (s : State) (c : Coord) (d lane : Nat) : Nat :=
  match c.neighbour d with
  | some n => (s.router n).room (oppositeDir d) lane
  | none => 0

/-- A packet crosses the link in a direction into a lane (R183). -/
def State.crossTo (s : State) (c : Coord) (d lane : Nat) (p : Packet) : State :=
  match c.neighbour d with
  | some n => s.mapRouter n fun r => r.push (oppositeDir d) lane p
  | none => s

/-- A packet that the router of a cell makes itself: a DROP, a FANOUT, a FLOCK_DOWN at its root. -/
def State.routerSend (s : State) (c : Coord) (p : Packet) : State := s.mapRouter c fun r => r.inject 7 p

/-- The head of a buffer leaves it, counted (R206). -/
def State.dropHead (s : State) (c : Coord) (port lane n : Nat) : State :=
  s.mapRouter c fun r => (r.setHead port lane none).count n 1

/-- Does the cell take deliveries: neither DEAD nor FENCED (R211, R321)? -/
def State.takesDeliveries (s : State) (c : Coord) : Bool := !s.cellOut c

/-- A packet leaves through the local port: to the gateway beside the router, to the flock root's rules, or to the cell unless it is out of service (R187, R206, R210). -/
def State.deliver (s : State) (c : Coord) (p : Packet) : State :=
  if !p.isRequest && p.req == 5 then s.mapRouter c fun r => { r with gateInbox := r.gateInbox ++ [p] }
  else if p.type = tFlockUp ∨ s.takesDeliveries c then s.mapRouter c fun r => { r with inbox := r.inbox ++ [p] }
  else s.mapRouter c fun r => r.count cDropFenced 1

/-! ### Links marked down (R202, R325, R334) -/

/-- The routers at both ends of a link mark it down (R202). -/
def State.linkEnds (s : State) (c : Coord) (d : Nat) : State :=
  let mark := fun (s : State) (c : Coord) (d : Nat) => s.mapRouter c fun r => { r with down := addOnce r.down d }
  match c.neighbour d with
  | some n => mark (mark s c d) n (oppositeDir d)
  | none => s

/-- A mesh link is marked down at its ends and in the defect map, whose update is the caller's (R331, R334). -/
def State.edgeOut (s : State) (c : Coord) (d : Nat) : State :=
  let s := s.linkEnds c d
  { s with defects := { s.defects with meshDown := addOnce s.defects.meshDown (edgeOf c d) } }

/-- A mesh link is marked down: in the defect map, at its ends, and as a trigger of a flip (R202, R325, R333). -/
def State.meshLinkDown (s : State) (c : Coord) (d : Nat) : State :=
  if (c.neighbour d).isNone ∨ edgeOf c d ∈ s.defects.meshDown then s
  else
    (s.edgeOut c d).mapChanged.flipTrigger 1

/-- A header with a bad parity byte or an invalid TYPE is dropped, counted at the router and on its link, and recorded; a link at its limit is
marked down (R193, R325). -/
def State.headerDrop (s : State) (c : Coord) (port lane : Nat) : State :=
  let s := s.dropHead c port lane cHeaderParity
  let s := s.hubNote c.field recEvent Codes.parityLink 0 (placeOf c) []
  if port < 4 then
    let e := edgeOf c port
    let s := { s with defects := { s.defects with headerCount := s.defects.headerCount.upd 0 e (· + 1) } }
    if s.defects.headerLimit ≤ s.defects.headerCount.get 0 e then s.meshLinkDown c port else s
  else s

/-! ### Injection (R205) -/

/-- Is a port one that requests are injected by? -/
def injects (port : Nat) (p : Packet) : Bool := decide (4 ≤ port ∧ port ≤ 6) && p.isRequest && p.left.isNone

/-- Does R205 hold a request back at this port: the router is STOPPED, or SLOWED with its gap not over? -/
def Router.held (r : Router) (port : Nat) (p : Packet) : Bool := injects port p && (r.state == 2 || (r.state == 1 && decide (0 < r.gap)))

/-- A try of a request that is held back: one mesh cycle of its router, counted in THROTTLE_CYCLES (log entry 128). -/
def State.holdBack (s : State) (c : Coord) (port lane : Nat) (p : Packet) : State :=
  s.mapRouter c fun r => ({ r.setHead port lane (some p) with gap := r.gap - 1 } : Router).count cThrottle 1

/-- A request has been injected: while SLOWED, the next waits INJECT_GAP mesh cycles. -/
def State.injected (s : State) (c : Coord) (port : Nat) (p : Packet) : State :=
  if injects port p then s.mapRouter c fun r => { r with gap := bits s.odp.marks 24 8 - 1 } else s

/-- A DROP response of a router, with its coordinate in OFFSET (R188, R211): KIND 0 one member, KIND 1 an unknown number. -/
def State.sendDrop (s : State) (c : Coord) (p : Packet) (kind : Nat) : State :=
  if p.posted then s else s.routerSend c (p.respond tDrop c s.epoch s.clock (coordBits c) kind [])

/-- One branch of a FLOCK_DOWN (R210, R211): whether it is over, and the state. -/
def State.flockBranch (s : State) (c : Coord) (p : Packet) (port : Nat) : Bool × State :=
  let copy := { p with left := none }
  if port = 4 then
    if s.takesDeliveries c then (true, s.deliver c copy)
    else (true, (s.mapRouter c fun r => r.count cDropFenced 1).sendDrop c p 0)
  else if !(s.router c).linkUp c port then (true, (s.mapRouter c fun r => r.count cDropDown 1).sendDrop c p 1)
  else if p.flits ≤ s.roomAt c port 0 then (true, s.crossTo c port 0 copy)
  else (false, s)

/-- A FLOCK_DOWN at a head sends each branch that has room, and leaves once none is left (R210). -/
def State.flockHop (s : State) (c : Coord) (port lane : Nat) (p : Packet) : State :=
  let mask := p.left.getD ((s.router c).downMask p.flock)
  let (left, s) := (List.range 5).foldl (fun (acc : Nat × State) d =>
    if bitAt mask d then
      let (gone, s) := acc.2.flockBranch c p d
      (if gone then acc.1 else acc.1 + 2 ^ d, s)
    else acc) (0, s)
  let s := s.mapRouter c fun r => r.setHead port lane (if left = 0 then none else some { p with left := some left })
  if left = mask ∧ mask ≠ 0 then s.mapRouter c fun r => r.setHead port lane (some p) else s.injected c port p

/-- Where an entry of a MULTI_REPLY goes at a router: 4 the local port, a direction, or nowhere (R214). -/
def State.replyPort (s : State) (c : Coord) (p : Packet) (e : Contributor) : Option Nat :=
  if e.at_ = c then some 4
  else if e.at_.paddock ≠ c.paddock ∧ s.lostRoute p.epoch e.at_.paddock then none
  else match (s.router c).directions c p.epoch e.at_ with
    | some (_, some d) => if (s.router c).linkUp c d then some d else none
    | _ => none

/-- A MULTI_REPLY at a head (R191, R214): one packet for each direction that has room; entries of the cell's gateway and of the cell are delivered;
entries without a way are dropped. DESIGN CHOICE (log entry 155): only the entries whose drove link is down are dropped, and DROP_DOWN counts the packet once,
which R214 does not say. -/
def State.replyHop (s : State) (c : Coord) (port lane : Nat) (p : Packet) : State :=
  if !p.crcOk then s.dropHead c port lane cDropCrc
  else
    let part := fun (es : List Contributor) => ({ p with entries := es } : Packet).seal
    let at_ := fun (w : Option Nat) => p.entries.filter fun e => s.replyPort c p e == w
    let s := if (at_ none).isEmpty then s else s.mapRouter c fun r => r.count cDropDown 1
    let here := at_ (some 4)
    let s := (here.filter fun e => e.req == 5).foldl (fun (s : State) e => s.deliver c (p.entryReply e)) s
    let mine := here.filter fun e => e.req != 5
    let s := if mine.isEmpty then s else s.deliver c (part mine)
    let (left, s) := (List.range 4).foldl (fun (acc : List Contributor × State) d =>
      let es := at_ (some d)
      if es.isEmpty then acc
      else if (part es).flits ≤ acc.2.roomAt c d 1 then (acc.1, acc.2.crossTo c d 1 (part es))
      else (acc.1 ++ es, acc.2)) (([] : List Contributor), s)
    s.mapRouter c fun r => r.setHead port lane (if left.isEmpty then none else some (part left))

/-- An ordinary packet at a head takes the first hop that R198 allows it. -/
def State.plainHop (s : State) (c : Coord) (port lane : Nat) (p : Packet) : State :=
  let r := s.router c
  let keep := fun (s : State) => s.mapRouter c fun r => r.setHead port lane (some p)
  if p.dst ≠ c ∧ p.dst.paddock ≠ c.paddock ∧ s.lostRoute p.epoch p.dst.paddock then s.dropHead c port lane cDropDown
  else match r.choose c p p.dst (onDroveRoad port lane) (s.roomAt c) with
    | .deliver => ((s.mapRouter c fun r => r.setHead port lane none).injected c port p).deliver c p
    | .move d l => ((s.mapRouter c fun r => r.setHead port lane none).injected c port p).crossTo c d l p
    | .wait => keep s
    | .dropDown => s.dropHead c port lane cDropDown

/-- One hop of the packet at the head of a buffer, with what happened to it on the way in (R193, R195, R198, R203, R205). -/
def State.packetHop (s : State) (c : Coord) (port lane : Nat) (err : HopErr) : State :=
  match (s.router c).head port lane with
  | none => s
  | some p =>
    if err.header || !p.typeOk then s.headerDrop c port lane
    else
      let p := if err.crc then { p with crc := p.crc ^^^ 1 } else p
      if p.expired s.clock then s.dropHead c port lane cDropAge
      else if p.epoch ≠ s.epoch ∧ !s.oldValid then
        (s.dropHead c port lane cEpochDiscard).hubNote c.field recEvent Codes.epochMismatch 0 (placeOf c) []
      else if (s.router c).held port p then s.holdBack c port lane p
      else if p.type = tFlockDown then s.flockHop c port lane p
      else if p.type = tMultiReply then s.replyHop c port lane p
      else s.plainHop c port lane p

/-- The combining unit (R217): both heads fit, the unit is free, no injection is held (R205), and both CRCs hold; each packet whose CRC fails is dropped
and counted (R191). -/
def State.redCombine (s : State) (c : Coord) (pa la pb lb : Nat) : State :=
  let r := s.router c
  match r.head pa la, r.head pb lb with
  | some a, some b =>
    if !redFits a b || (r.lanes.get [] 56).any (fun p => p.type == tRed) || r.held pa a || r.held pb b then s
    else if !a.crcOk || !b.crcOk then
      let s := if a.crcOk then s else s.dropHead c pa la cDropCrc
      if b.crcOk then s else s.dropHead c pb lb cDropCrc
    else
      (((s.mapRouter c fun r => (((r.setHead pa la none).setHead pb lb none).count cCombined 1).inject 7 (redMerge c s.clock a b)).injected
        c pa a).injected c pb b)
  | _, _ => s

/-- The tick at which a packet's age runs out (R195): the first from now on. -/
def Packet.ageEnd (p : Packet) (now : Nat) : Nat := now + (3 + 4 + p.age - now % 4) % 4

/-- The age of the packet at the head of a buffer runs out: it is dropped and counted, as every packet is whose age has run out by then (R195). -/
def State.ageExpiry (s : State) (c : Coord) (port lane : Nat) : State :=
  match (s.router c).head port lane with
  | none => s
  | some p =>
    if p.expired s.clock then s.dropHead c port lane cDropAge else s.advanceTo (p.ageEnd s.clock)

/-! ### Flock trees (R204, R207–R209) -/

/-- The drove-road direction at a router toward a cell in a version. -/
def State.droveDir (s : State) (version : Bool) (c dst : Coord) : Option Nat :=
  match (s.router c).directions c version dst with
  | some (_, d) => d
  | none => some ((s.router c).route c version dst.paddock).drove

/-- Set a bit of DOWN_MASK. -/
def Router.maskBit (r : Router) (flock bit : Nat) : Router :=
  { r with flocks := r.flocks.upd 0 flock fun b => b ||| BitVec.ofNat 8 (2 ^ bit) }

/-- Follow the drove road toward a member and set the masks on the way; a branch ends at a router whose drove link is down (R209). -/
def State.treePath (s : State) (flock : Nat) (dst : Coord) : Nat → Coord → State
  | 0, _ => s
  | fuel + 1, c =>
    if c = dst then s.mapRouter c fun r => r.maskBit flock 4
    else match s.droveDir s.epoch c dst with
      | none => s
      | some d =>
        let s := s.mapRouter c fun r => r.maskBit flock d
        match c.neighbour d with
        | some n => if (s.router c).linkUp c d then s.treePath flock dst fuel n else s
        | none => s

/-- Build a flock's tree from its root to its members. -/
def State.buildTree (s : State) (flock : Nat) (root : Coord) (members : List Coord) : State :=
  members.foldl (fun (s : State) m => s.treePath flock m 4096 root) (s.mapRouter root fun r => r.maskBit flock 5)

/-- Take a flock out of every router's tables. -/
def State.clearFlock (s : State) (flock : Nat) : State :=
  { s with routers := s.routers.mapVals .reset fun _ r =>
      { r with flocks := r.flocks.set 0 flock 0, roots := r.roots.erase flock, senders := r.senders.erase flock } }

/-- Clear the masks of a flock in every router, for a tree that is built anew. -/
def State.clearMasks (s : State) (flock : Nat) : State :=
  { s with routers := s.routers.mapVals .reset fun _ r => { r with flocks := r.flocks.set 0 flock 0 } }

/-- Build the trees of a region's flocks afresh (R209): the root is the first member. -/
def State.buildTrees (s : State) (r : Region) : State :=
  r.trees.foldl (fun (s : State) f =>
    match f.2 with
    | root :: _ => (s.clearMasks f.1).buildTree f.1 root f.2
    | [] => s) s

/-- Build a region's trees, root tables and sender tables (R208, R209). -/
def State.buildFlocks (s : State) (h : Nat) : State :=
  match s.regions.find h with
  | none => s
  | some r =>
    let s := s.buildTrees r
    let s := r.trees.foldl (fun (s : State) f =>
      match f.2 with
      | root :: _ => s.mapRouter root fun x => { x with roots := x.roots.put f.1 f.2.length }
      | [] => s) s
    (s.liveCells r).foldl (fun (s : State) c =>
      ((s.cell c).regs.flocksNamed).foldl (fun (s : State) n =>
        match (r.trees.find? fun f => f.1 == n).bind fun f => f.2.head? with
        | some root => s.mapRouter c fun x => { x with senders := x.senders.put n root }
        | none => s) s) s

/-! ### Routing versions (R199, R202) -/

/-- The management complex writes a version: staircase entries but for the firmware's choices, lost paddocks UNREACHABLE (R199). -/
def State.writeVersion (s : State) (version : Bool) (entries : List RouteEntry) : State :=
  let base := 512 * (if version then 1 else 0)
  let mine := fun (k : Nat) => decide (base ≤ k ∧ k < base + 512)
  let s := { s with
    routers := s.routers.mapVals .reset fun _ r => { r with table := r.table.filter fun e => !mine e.1 }
    lostRoutes := (s.lostRoutes.filter fun k => !mine k) ++
      ((List.range 272).filter fun p => !s.paddockLive p).map (base + ·) }
  entries.foldl (fun (s : State) e =>
    if e.paddock < 272 ∧ e.at_.present then s.mapRouter e.at_ fun r => { r with table := r.table.put (base + e.paddock) e.entry } else s) s

/-! ### The conditions of R200 -/

/-- What is left of a list of nodes when those without a successor among what is left are taken away, round by round. -/
def peel (next : Nat → List Nat) : Nat → List Nat → List Nat
  | 0, l => l
  | n + 1, l => peel next n (l.filter fun x => (next x).any fun y => decide (y ∈ l))

/-- No cycle among the nodes: rounds as many as there are nodes take all of them away. -/
def acyclic (next : Nat → List Nat) (nodes : List Nat) : Bool := (peel next nodes.length nodes).isEmpty

/-- Keys of the routers that live: those of powered paddocks that are not fenced with CAUSE 0x4. -/
def State.liveRouters (s : State) : List Nat :=
  (List.range fieldCount).flatMap fun f =>
    ((fieldCells f).filter fun c => s.paddockLive c.paddock && s.defects.causes.find c.key != some 4).map Coord.key

/-- Where a router sends packets for a paddock in a version: its allowed directions with a live link, and its drove-road direction with a live link; none
where the router lies in the paddock. -/
def State.wayOut (s : State) (version : Bool) (p : Nat) (c : Coord) : List Nat × Option Nat :=
  if c.paddock = p then ([], none)
  else
    let e := (s.router c).route c version p
    ((List.range 4).filter fun d => bitAt e.mask d && (s.router c).linkUp c d,
     if (s.router c).linkUp c e.drove then some e.drove else none)

/-- The router across a link, by key. -/
def acrossKey (k d : Nat) : List Nat := (((Coord.ofKey k).neighbour d).map Coord.key).toList

/-- Condition 1 for a paddock: along every allowed direction a distance can decrease. -/
def State.adaptiveOk (s : State) (v : Bool) (p : Nat) (live : List Nat) : Bool :=
  acyclic (fun k => (s.wayOut v p (Coord.ofKey k)).1.flatMap (acrossKey k)) live

/-- Condition 3 for a paddock: the drove road from every live router reaches it. -/
def State.droveReaches (s : State) (v : Bool) (p : Nat) (live : List Nat) : Bool :=
  let next := fun (k : Nat) => (s.wayOut v p (Coord.ofKey k)).2.toList.flatMap (acrossKey k)
  acyclic next live && live.all fun k => decide ((Coord.ofKey k).paddock = p) || (next k).any fun n => decide (n ∈ live)

/-- Condition 2: no cycle of dependencies among the drove-road channels, each a router and a direction: one waits for the next where some paddock's
drove road, or the X then Y way inside a paddock, takes both. -/
def State.droveOk (s : State) (v : Bool) (live : List Nat) : Bool :=
  let out := fun (c : Coord) (dst : Coord) =>
    match (s.router c).directions c v dst with | some (_, some d) => if (s.router c).linkUp c d then [d] else [] | _ => []
  let cells := live.map Coord.ofKey
  let next := fun (ch : Nat) =>
    let c := Coord.ofKey (ch / 4)
    (cells.filter fun dst => decide (ch % 4 ∈ out c dst)).flatMap fun dst =>
      (acrossKey c.key (ch % 4)).flatMap fun n => (out (Coord.ofKey n) dst).map fun d => 4 * n + d
  acyclic next (live.flatMap fun k => (List.range 4).map fun d => 4 * k + d)

/-- A version with no lost paddock, no link down and no entry of the firmware's own holds the staircase everywhere, which meets R200 (R199). -/
def State.staircaseOnly (s : State) (version : Bool) : Bool :=
  let base := 512 * (if version then 1 else 0)
  s.defects.meshDown.isEmpty && s.lostRoutes.all (fun k => !decide (base ≤ k ∧ k < base + 512)) &&
    s.routers.all fun e => e.2.down.isEmpty && e.2.table.all fun x => !decide (base ≤ x.1 ∧ x.1 < base + 512)

/-- Live paddocks that some live router's entry of a version marks UNREACHABLE; an entry that is not listed marks none (R199). -/
def State.unrouted (s : State) (version : Bool) : List Nat :=
  let base := 512 * (if version then 1 else 0)
  (List.range 272).filter fun p => s.paddockLive p && s.routers.any fun e =>
    let c := Coord.ofKey e.1
    c.paddock != p && s.paddockLive c.paddock && s.defects.causes.find e.1 != some 4 && ((e.2.table.find (base + p)).map fun x => x.getLsbD 6).getD false

/-- Does a version as it stands in the routers meet the three conditions of R200? A paddock marked UNREACHABLE is asked for neither as a destination nor as
a place of live routers: its routers are fenced. -/
def State.versionMeets (s : State) (v : Bool) : Bool :=
  s.staircaseOnly v ||
    (let out := s.unrouted v
     let live := s.liveRouters.filter fun k => !decide ((Coord.ofKey k).paddock ∈ out)
     s.droveOk v live &&
     ((List.range 272).filter fun p => s.paddockLive p && !s.lostRoute v p && !decide (p ∈ out)).all fun p => s.adaptiveOk v p live && s.droveReaches v p live)

/-- The routers and cells of a paddock that a version cannot route to are fenced with CAUSE 0x4 (R200, R321). -/
def State.fenceUnreachable (s : State) (version : Bool) : State :=
  ((s.unrouted version).flatMap fun p => (fieldCells (p / 4)).filter fun c => c.paddock == p && s.defects.causes.find c.key != some 4).foldl (fun (s : State) c => s.cellLeaves c .fenced 4) s

/-- The tree of a hub's transfer: rooted at the router of the hub port, to the live members (R182, R357). -/
def State.transferTree (s : State) (f : Nat) (t : Transfer) : State :=
  t.members.foldl (fun (s : State) k => s.treePath t.flock (Coord.ofKey k) 4096 (fieldOrigin f)) (s.mapRouter (fieldOrigin f) fun r => r.maskBit t.flock 5)

/-- Clear a broadcast flock in the routers of one field. -/
def State.clearField (s : State) (f flock : Nat) : State :=
  (fieldCells f).foldl (fun (s : State) c => s.mapRouter c fun r => { r with flocks := r.flocks.set 0 flock 0 }) s

/-- Every flock tree, those of broadcasts in hand among them, is rebuilt for the current version (R204, R209). -/
def State.rebuildTrees (s : State) : State :=
  let s := s.regions.foldl (fun (s : State) e => s.buildTrees e.2) s
  s.hubs.foldl (fun (s : State) h => h.2.transfers.foldl (fun (s : State) t => if t.done || t.flock == 0 then s else (s.clearField h.1 t.flock).transferTree h.1 t) s) s

end Sys2Proof.Machine
end

