-- ==== Sys2Proof/Machine/MeshCommands.lean ====
section
/-!
DEFINITION. The mesh's commands: hops, arrivals at a cell or a gateway, timers, merge windows and the routing flip (R183–R218).
-/
namespace Sys2Proof.Machine

/-- PACKET_HOP c port lane (R193, R195, R198, R203, R205). Ports 0–3 links, 4 local, 5 hub, 6 gateway, 7 the router's own packets. -/
def execPacketHop (c : Coord) (port lane : Nat) (err : HopErr) (s : State) : Answer :=
  answerIf (c.present && decide (port < 8 ∧ lane < 5)) (s.packetHop c port lane err)

/-- RED_COMBINE c (R217): the heads of two input lanes, the local port's among them. -/
def execRedCombine (c : Coord) (portA laneA portB laneB : Nat) (s : State) : Answer :=
  answerIf (c.present && decide (portA < 5 ∧ laneA < 5 ∧ portB < 5 ∧ laneB < 5) && !(portA == portB && laneA == laneB))
    (s.redCombine c portA laneA portB laneB)

/-- PACKET_AGE_EXPIRY c port lane (R195). -/
def execPacketAgeExpiry (c : Coord) (port lane : Nat) (s : State) : Answer :=
  answerIf (c.present && decide (port < 8 ∧ lane < 5)) (s.ageExpiry c port lane)

/-! ### Arrivals of requests -/

/-- Take the first delivered packet that passes. -/
def State.takeInbox (s : State) (c : Coord) (p : Packet → Bool) : Option (Packet × State) :=
  (takeFirst p (s.router c).inbox).map fun e => (e.1, s.mapRouter c fun r => { r with inbox := e.2 })

/-- The first delivered packet that passes is handled; where it must wait for a bank slot it holds the mesh port (R95, R113). -/
def State.arrival (s : State) (c : Coord) (test : Packet → Bool) (f : Work → Packet → Option Work) : State :=
  if (s.cell c).mesh.port.isSome then s
  else match s.takeInbox c test with
    | none => s
    | some (p, s) => match f (s.work c) p with
      | some w => s.absorb w
      | none => s.mapCell c fun x => { x with mesh := { x.mesh with port := some (p, x.askCycle p.slots.2) } }

/-- A request for the cell itself: its kind, and not posted (R187, R359). -/
def isRequestOf (type : Nat) (p : Packet) : Bool := p.type == type && !p.posted

/-- The gateway beside a router (R280). -/
def gatewayAt (c : Coord) : Option Nat := (List.range 16384).find? fun g => gateCoord g == c

/-- The first delivered packet of a type, where it reaches the gateway beside the router and not the cell (R281): the gateway, the packet, and the
state without it. -/
def State.toGate (s : State) (c : Coord) (type : Nat) : Option (Nat × Packet × State) :=
  (s.takeInbox c (isRequestOf type)).bind fun e => if e.1.forGate then (gatewayAt c).map fun g => (g, e) else none

/-- PUT_ARRIVAL c (R19, R189, R196, R281). -/
def execPutArrival (c : Coord) (s : State) : Answer :=
  atCell c (match s.toGate c tPut with
    | some (g, p, s) => s.gatePut g p
    | none => s.arrival c (isRequestOf tPut) Work.putArrive)

/-- GET_ARRIVAL c (R19, R100, R189, R281). -/
def execGetArrival (c : Coord) (s : State) : Answer :=
  atCell c (match s.toGate c tGet with
    | some (g, p, s) => s.gateGet g p
    | none => s.arrival c (isRequestOf tGet) fun w p => w.getArrive (s.dmaWait c) p)

/-- TALLY_ADD_ARRIVAL c (R189, R196). -/
def execTallyAddArrival (c : Coord) (s : State) : Answer :=
  atCell c (match s.takeInbox c (isRequestOf tTallyAdd) with
    | some (p, s) => s.event c fun w => w.tallyArrive p
    | none => s)

/-- A FLOCK_UP at its root (R191, R193, R210): the CRC is checked, FANOUT carries MEMBERS to the source, and a FLOCK_DOWN goes out. -/
def State.flockUp (s : State) (c : Coord) (p : Packet) : State :=
  if !p.crcOk then
    if p.posted then s.mapRouter c fun r => r.count cDropCrc 1 else s.routerSend c (p.respond tNack c s.epoch s.clock Codes.parityLink.toNat 0 [])
  else
    let members := ((s.router c).roots.find p.flock).getD 0
    let s := if p.posted then s else s.routerSend c (p.respond tFanout c s.epoch s.clock members 0 [])
    s.routerSend c p.flockDown

/-- FLOCK_UP_ARRIVAL c (R210). -/
def execFlockUpArrival (c : Coord) (s : State) : Answer :=
  atCell c (match s.takeInbox c fun p => p.type == tFlockUp with
    | some (p, s) => s.flockUp c p
    | none => s)

/-- FLOCK_DOWN_ARRIVAL c (R196, R210). -/
def execFlockDownArrival (c : Coord) (s : State) : Answer := atCell c (s.arrival c (isRequestOf tFlockDown) Work.putArrive)

/-- RED_ARRIVAL c (R218). -/
def execRedArrival (c : Coord) (s : State) : Answer := atCell c (s.arrival c (isRequestOf tRed) Work.redArrive)

/-- A loft request that no vault line can be: another kind of cell, or a line past the last (R108, R221). -/
def loftRequestBad (c : Coord) (p : Packet) : Bool := c.kind != .m || decide (vaultLines ≤ p.offset % 2 ^ 19)

/-- A LOFT_RD waits at the vault's port (R106, R222). -/
def State.loftRdArrive (s : State) (c : Coord) (p : Packet) : State :=
  let pv := cellVault c
  if !p.crcOk then s.event c fun w => w.crcFail p
  else if loftRequestBad c p then s.event c fun w => w.nack p Codes.configInvalid
  else if (s.vault pv).lost then s.event c fun w => w.nack p Codes.loftLost
  else s.mapVault pv fun v => { v with queue := v.queue ++ [{ src := .mesh p, line := p.offset % 2 ^ 19, write := none, accepted := false }] }

/-- LOFT_RD_ARRIVAL c (R106, R222). -/
def execLoftRdArrival (c : Coord) (s : State) : Answer :=
  atCell c (match s.takeInbox c (isRequestOf tLoftRd) with
    | some (p, s) => s.loftRdArrive c p
    | none => s)

/-- Does a LOFT_WR that waits at the port stand for the same use of a tag as a packet? -/
def LoftRequest.copyOf (p : Packet) (q : LoftRequest) : Bool :=
  match q.src with
  | .mesh o => o.type == tLoftWr && o.src == p.src && o.req == p.req && o.tag == p.tag && o.seq == p.seq && !q.accepted
  | .channel _ _ => false

/-- A repeated LOFT_WR whose first copy still waits at the port takes that copy's place, so that its acknowledgement answers the last attempt. -/
def LoftRequest.renew (p : Packet) (q : LoftRequest) : LoftRequest := if q.copyOf p then { q with src := .mesh p } else q

/-- A LOFT_WR reaches the vault's port (R196, R222, R228, R237): one for a lost vault ends with LOFT_LOST, a re-send among them; one whose first copy waits takes
that copy's place; a duplicate is answered; bad transfers are counted; else it waits there. -/
def State.loftWrArrive (s : State) (c : Coord) (p : Packet) (bad : Nat) : State :=
  let pv := cellVault c
  if !p.crcOk then s.event c fun w => w.crcFail p
  else if loftRequestBad c p then s.event c fun w => w.nack p Codes.configInvalid
  else if (s.vault pv).lost then s.event c fun w => w.nack p Codes.loftLost
  else if (s.vault pv).queue.any (LoftRequest.copyOf p) then s.mapVault pv fun v => { v with queue := v.queue.map (LoftRequest.renew p) }
  else match (s.cell c).mesh.view p.src p.req p.tag p.seq p.attempt s.clock with
    | .duplicate => s.event c fun w => w.ack p
    | .unsure => s.event c fun w => w.nack p Codes.e2eGiveup
    | .fresh =>
        let s := s.mapVault pv fun v => { v with portParity := satAdd 0xFFFF v.portParity (min 3 bad) }
        let s := if 3 ≤ bad then s.event c fun w => w.nack p Codes.loftUncorrectable
          else s.mapVault pv fun v => { v with queue := v.queue ++ [{ src := .mesh p, line := p.offset % 2 ^ 19, write := some p.cleanPayload, accepted := false }] }
        s.declareFailed pv

/-- LOFT_WR_ARRIVAL c (R196, R222, R228), with the number of port transfers of the line that showed bad parity. -/
def execLoftWrArrival (c : Coord) (badTransfers : Nat) (s : State) : Answer :=
  atCell c (match s.takeInbox c (isRequestOf tLoftWr) with
    | some (p, s) => s.loftWrArrive c p badTransfers
    | none => s)

/-! ### Arrivals of responses: at the cell, or at the gateway beside its router -/

/-- The first response of a type that waits for the gateway beside a router is handled there. -/
def State.gateArrival (s : State) (c : Coord) (type : Nat) (f : Work → Packet → Work) : State :=
  match takeFirst (fun (p : Packet) => p.type == type) (s.router c).gateInbox with
  | none => s
  | some (p, rest) =>
    let s := s.mapRouter c fun r => { r with gateInbox := rest }
    match gatewayAt c with
    | some g => (s.gateEvent g fun w => f w p).gatePump g
    | none => s

/-- A response reaches its requester: a cell's unit, or the gateway; what it frees moves on (R103, R194). -/
def State.response (s : State) (c : Coord) (type : Nat) (f : Work → Packet → Work) : State :=
  match s.takeInbox c fun p => p.type == type with
  | some (p, s) => (s.event c fun w => f w p).pumpAll c
  | none => s.gateArrival c type f

/-- ACK_ARRIVAL c (R196, R197, R212). -/
def execAckArrival (c : Coord) (s : State) : Answer := atCell c (s.response c tAck Work.ackArrive)

/-- NACK_ARRIVAL c (R194, R197). -/
def execNackArrival (c : Coord) (s : State) : Answer := atCell c (s.response c tNack Work.nackArrive)

/-- FANOUT_ARRIVAL c (R210, R212). -/
def execFanoutArrival (c : Coord) (s : State) : Answer := atCell c (s.response c tFanout Work.fanoutArrive)

/-- DROP_ARRIVAL c (R211, R212). -/
def execDropArrival (c : Coord) (s : State) : Answer := atCell c (s.response c tDrop Work.dropArrive)

/-- A REPLY to a gateway writes nowhere, so it never waits. -/
def Work.replyAtGate (w : Work) (p : Packet) : Work := (w.replyArrive p).getD w

/-- A REPLY at a cell, or at the gateway (R37, R188). -/
def State.reply (s : State) (c : Coord) : State :=
  if ((s.router c).inbox.any fun p => p.type == tReply) then (s.arrival c (fun p => p.type == tReply) Work.replyArrive).pumpAll c
  else s.gateArrival c tReply Work.replyAtGate

/-- REPLY_ARRIVAL c (R37, R188, R197). -/
def execReplyArrival (c : Coord) (s : State) : Answer := atCell c (s.reply c)

/-- The entries of a MULTI_REPLY delivered at their own cell: each becomes its own REPLY (R191, R214). -/
def State.multiReply (s : State) (c : Coord) : State :=
  match s.takeInbox c fun p => p.type == tMultiReply with
  | none => s
  | some (p, s) =>
    if !p.crcOk then s.mapRouter c fun r => r.count cDropCrc 1
    else (p.entries.foldl (fun (s : State) e =>
      let q := p.entryReply e
      match (s.work c).replyArrive q with
      | some w => if (s.cell c).mesh.port.isSome then s.mapRouter c fun r => { r with inbox := r.inbox ++ [q] } else s.absorb w
      | none => s.mapRouter c fun r => { r with inbox := r.inbox ++ [q] }) s).pumpAll c

/-- MULTI_REPLY_ARRIVAL c (R214). -/
def execMultiReplyArrival (c : Coord) (s : State) : Answer := atCell c (s.multiReply c)

/-! ### Timers of requests -/

/-- The re-send timer of a unit's tag expires (R194, R212); timers hold while a flip is pending. REQ 5 is the gateway beside the router. -/
def State.resendExpiry (s : State) (c : Coord) (req tag : Nat) : State :=
  if s.flipPending then s
  else if req = 5 then
    match gatewayAt c with
    | none => s
    | some g => match (s.gate g).out.find? fun o => o.1.pkt.tag == tag with
      | none => s
      | some (o, _) => ((s.advanceTo (o.sentAt + 4)).gateEvent g fun w => w.retry o).gatePump g
  else match (s.cell c).mesh.out.find? fun o => o.pkt.req == req && o.pkt.tag == tag with
    | none => s
    | some o => ((s.advanceTo (o.sentAt + 4)).event c fun w => w.retry o).pumpAll c

/-- RESEND_TIMER_EXPIRY c req tag (R194, R212). -/
def execResendTimerExpiry (c : Coord) (req tag : Nat) (s : State) : Answer :=
  answerIf (c.present && decide (req < 6 ∧ tag < 16)) (s.resendExpiry c req tag)

/-- A tag that rested 8 µs may be used again (R197). -/
def State.restEnd (s : State) (c : Coord) (req tag : Nat) : State :=
  if req = 5 then
    match gatewayAt c with
    | none => s
    | some g =>
      let t := (s.gate g).resting.get 0 tag
      if t = 0 then s else ((s.advanceTo t).mapGate g fun x => { x with resting := x.resting.erase tag }).gatePump g
  else
    let key := 16 * req + tag
    let t := (s.cell c).mesh.resting.get 0 key
    if t = 0 then s
    else ((s.advanceTo t).mapCell c fun x => { x with mesh := { x.mesh with resting := x.mesh.resting.erase key } }).pumpAll c

/-- TAG_REST_END c req tag (R197). -/
def execTagRestEnd (c : Coord) (req tag : Nat) (s : State) : Answer :=
  answerIf (c.present && decide (req < 6 ∧ tag < 16)) (s.restEnd c req tag)

/-- May the window of a line close: it was closed by a write, a 16th requester or a ninth line, its eight cycles are over, or the cell counts none (R100)? -/
def Cell.windowDue (x : Cell) (line : Nat) : Bool :=
  match x.mesh.windows.find? fun v => v.line == line with
  | some v => v.closed || x.mode != .running || decide (v.since + 8 ≤ x.seq.cycle)
  | none => false

/-- MERGE_WINDOW_CLOSE c line (R100, R101). -/
def execMergeWindowClose (c : Coord) (line : Nat) (s : State) : Answer :=
  atCell c (if (s.cell c).windowDue line then s.event? c fun w => w.closeWindow line else s)

/-! ### The routing flip (R202) -/

/-- The border links of a paddock go down at the routers that live (R202 step 1, R331). -/
def State.borderDown (s : State) (p : Nat) : State :=
  ((fieldCells (p / 4)).filter fun c => c.paddock == p).foldl (fun (s : State) c =>
    (List.range 4).foldl (fun (s : State) d =>
      match c.neighbour d with
      | some n => if n.paddock = p then s else s.edgeOut c d
      | none => s) s) s

/-- Step 1 of a flip: links marked down and FLIP_PENDING set (R202). -/
def State.flipStart (s : State) (links : List (Coord × Nat)) (paddocks : List Nat) : State :=
  let s := links.foldl (fun (s : State) l => s.meshLinkDown l.1 l.2) s
  let ps := paddocks.filter fun p => p < 272
  (ps.foldl State.borderDown s).flipTrigger ps.length

/-- EPOCH_FLIP_TRIGGER links paddocks (R202): links that defect rules mark down, paddocks lost. -/
def execEpochFlipTrigger (links : List (Coord × Nat)) (paddocks : List Nat) (s : State) : Answer :=
  answerIf (links.all fun l => l.1.present && decide (l.2 < 4)) (s.flipStart links paddocks)

/-- Steps 2 and 3 of a flip (R199, R200, R202, R204): the version that the firmware computed (log entry 33) is installed in every router and made
current, once the routing has been checked against R200: one that does not meet the conditions is not installed. The defect map takes its first update of each trip that the version includes (R331). -/
def State.flipInstall (s : State) (entries : List RouteEntry) : State :=
  if !s.flipPending || s.oldValid then s
  else
    let v := !s.epoch
    let t := s.writeVersion v entries
    if !t.versionMeets v then s else
    let newly := ((List.range 272).filter fun p => t.lostRoute v p && !s.lostRoute s.epoch p).length
    let fenced := (t.fenceUnreachable v).dropSuspects
    let newly := if fenced.defects.causes = t.defects.causes then newly else max 1 newly
    let t : State := { fenced with defects := { fenced.defects with
      generation := fenced.defects.generation + newly, unmapped := fenced.defects.unmapped.filter (·.later) } }
    let t := ({ t with epoch := v, oldValid := true, flipAt := t.clock }).rebuildTrees
    t.note recNote 5 0 noPlace (leBytes 1 (if v then 1 else 0) ++ leBytes 2 t.flipTriggers)

/-- EPOCH_INSTALL (R202 steps 2 and 3), with the entries that the firmware sets otherwise than the staircase. -/
def execEpochInstall (entries : List RouteEntry) (s : State) : Answer := .next (s.flipInstall entries)

/-- A re-send timer that was held goes on where it stood (R194, R202). -/
def Outstanding.resume (pendingAt now : Nat) (o : Outstanding) : Outstanding := { o with sentAt := o.sentAt + (now - max o.sentAt pendingAt) }

/-- Step 4 of a flip: every hub has confirmed; FLIP_PENDING clears and the timers resume (R202). A hub with no answer holds it (R327). -/
def State.flipConfirm (s : State) : State :=
  if s.flipPending && s.oldValid && (List.range fieldCount).all (fun f => s.defects.misses.get 0 f == 0) then
    { s with
      flipPending := false, flipTriggers := 0
      cells := s.cells.mapVals .reset fun _ x => { x with mesh := { x.mesh with out := x.mesh.out.map (Outstanding.resume s.pendingAt s.clock) } }
      relend := { s.relend with gateways := s.relend.gateways.mapVals .zero fun _ g =>
        { g with out := g.out.map fun o => (o.1.resume s.pendingAt s.clock, o.2) } } }
  else s

/-- EPOCH_CONFIRM (R202 step 4). -/
def execEpochConfirm (s : State) : Answer := .next s.flipConfirm

/-- Step 5 of a flip, 4 µs after the change: OLD_VALID clears; triggers that waited start a new flip (R202). -/
def State.oldClear (s : State) : State :=
  if s.oldValid && !s.flipPending then
    let s := s.advanceTo (s.flipAt + 4)
    let unmapped := s.defects.unmapped.map fun (h : MapHold) => { h with later := false }
    ({ s with oldValid := false, flipWaiting := 0, defects := { s.defects with unmapped } }).flipTrigger s.flipWaiting
  else s

end Sys2Proof.Machine
end

