-- ==== Sys2Proof/Machine/LoftCommands.lean ====
section
/-!
DEFINITION. The vaults' commands: acceptance, completion, refresh, scrub, loss and remapping (R221–R237).
-/
namespace Sys2Proof.Machine

/-- Is a request of the mesh? -/
def LoftRequest.ofMesh (q : LoftRequest) : Bool := match q.src with | .mesh _ => true | .channel _ _ => false

/-- The request that the port places next: the oldest of each source, alternating when both wait (R106, R222). -/
def Vault.nextRequest (v : Vault) : Option LoftRequest :=
  let waiting := v.queue.filter fun q => !q.accepted
  match waiting.find? LoftRequest.ofMesh, waiting.find? fun q => !q.ofMesh with
  | some m, some c => if v.lastMesh then some c else some m
  | some m, none => some m
  | none, c => c

/-- Place a request into the queue behind those accepted before (R222). -/
def Vault.accept (v : Vault) (q : LoftRequest) : Vault :=
  match takeFirst (· == q) v.queue with
  | some (_, rest) => { v with queue := rest.filter (·.accepted) ++ [{ q with accepted := true }] ++ rest.filter fun r => !r.accepted, lastMesh := q.ofMesh }
  | none => v

/-- The port accepts a request while the queue has room; a write is acknowledged then, and one of the mesh enters the duplicate filter (R196, R222). A channel's write crosses the bonded port now, with `bad`
transfers of bad parity; after the third it is not stored (R228). -/
def State.loftAccept (s : State) (pv bad : Nat) : State :=
  let v := s.vault pv
  let c := vaultCell pv
  if v.lost || decide (256 ≤ (v.queue.filter (·.accepted)).length) then s
  else match v.nextRequest with
    | none => s
    | some q =>
      match q.src, q.write with
      | .mesh p, some _ => (s.mapVault pv fun v => v.accept q).event c fun w => (w.mapMesh fun m => m.record p.src p.req p.tag p.seq w.now).ack p
      | .channel ch line, some _ =>
        if 3 ≤ bad then
          (((s.mapVault pv fun v => ({ v with queue := v.queue.filter (· != q), lastMesh := false } : Vault).countBad bad).lineDone c ch line
            Codes.loftUncorrectable).pump c ch).declareFailed pv
        else (((s.mapVault pv fun v => (v.accept q).countBad bad).lineDone c ch line Codes.ok).pump c ch).declareFailed pv
      | _, _ => s.mapVault pv fun v => v.accept q

/-- VAULT_REQUEST_ACCEPT turn (R106, R222, R228). -/
def execVaultRequestAccept (turn : VaultTurn) (s : State) : Answer :=
  answerIf (decide (turn.pv < physicalVaults)) (s.loftAccept turn.pv turn.badTransfers)

/-- VAULT_LINE_COMPLETE pv bank (R222, R227, R228). -/
def execVaultLineComplete (pv bank badTransfers : Nat) (errs : List LineErr) (s : State) : Answer :=
  answerIf (decide (pv < physicalVaults ∧ bank < 32)) (s.loftComplete pv bank badTransfers errs)

/-- LOFT_REFRESH pv bank (R224): the bank is refreshed while the module is powered. -/
def execLoftRefresh (pv bank : Nat) (s : State) : Answer :=
  answerIf (decide (pv < physicalVaults ∧ bank < 32))
    (if s.boot.powered && s.paddockLive (vaultCell pv).paddock then
      s.mapVault pv fun v => { v with refreshes := v.refreshes.upd 0 bank (· + 1) }
    else s)

/-- A scrub reads a line in a free slot of its bank: corrected it is written back, uncorrectable it is counted and recorded (R225). -/
def State.scrub (s : State) (pv line : Nat) (errs : List LineErr) : State :=
  if (s.vault pv).lost || (s.vault pv).queue.any (fun q => q.accepted && q.line % 32 == line % 32) then s
  else
    let (_, _, v) := (s.vault pv).read line errs
    let found := decide ((s.vault pv).uncorrectable < v.uncorrectable)
    let s := s.mapVault pv fun _ => v
    let c := vaultCell pv
    let s := if found then s.hubNote c.field recEvent Codes.loftUncorrectable 0 (placeOf c) (leBytes 2 pv ++ leBytes 4 line) else s
    s.declareFailed pv

/-- LOFT_SCRUB pv line (R225). -/
def execLoftScrub (pv line : Nat) (errs : List LineErr) (s : State) : Answer :=
  answerIf (decide (pv < physicalVaults ∧ line < vaultLines)) (s.scrub pv line errs)

/-- A physical vault is lost for a cause (R236, R237); one declared failed enters the defect history (R326, R338). -/
def State.vaultLoss (s : State) (pv : Nat) (cause : VaultCause) : State :=
  if (s.vault pv).lost then s
  else
    if cause = .declared then
      ({ s with defects := { s.defects with history := s.defects.history ++ [(s.flash.powerCycle, HistoryUnit.vault pv)] } } : State).failVault pv
    else s.retireVault pv cause

/-- VAULT_LOST pv cause (R237). -/
def execVaultLost (pv : Nat) (cause : VaultCause) (s : State) : Answer := answerIf (decide (pv < physicalVaults)) (s.vaultLoss pv cause)

/-- SPARE_WRITE_DONE lv: step 4 of R237 has written every line of the spare chosen for it. -/
def execSpareWriteDone (lv : Nat) (s : State) : Answer := answerIf (decide (lv < logicalVaults)) (s.spareDone lv)

end Sys2Proof.Machine
end

