-- ==== Sys2Proof/Machine/Broadcast.lean ====
section
/-!
DEFINITION. Broadcasts of the field hubs (R357–R362): transfers, chunks and their packets, the receiver of a cell, and what a status sweep finds.
-/
namespace Sys2Proof.Machine

/-- A field hub. -/
def State.hub (s : State) (f : Nat) : Hub := s.hubs.get .zero f

/-- Change a field hub. -/
def State.mapHub (s : State) (f : Nat) (g : Hub → Hub) : State := { s with hubs := s.hubs.upd .zero f g }

/-- A transfer that has not begun: its number and flock are given when it goes. -/
def Transfer.fresh (use : TransferUse) (payload : List Byte) (members : List Nat) : Transfer :=
  { number := 0, use, flock := 0, payload, members, missing := [], round := 0, sent := false, done := false }

/-- The firmware flock of a cell kind (R357). -/
def firmwareFlock (k : CellKind) : Nat := match k with | .t => 4032 | .m => 4033 | .f => 4034

/-- Flocks 4,035–4,095 carry sections (R357). -/
def sectionFlocks : List Nat := upFrom 4035 61

/-- The flock a transfer takes among those its hub has free, and a free number (R357). -/
def Hub.assign (h : Hub) (t : Transfer) : Option (Nat × Nat) :=
  let used := (h.transfers.filter fun u => u.flock != 0).map (·.flock)
  let flock := match t.use with
    | .firmware k => some (firmwareFlock k)
    | .section_ _ _ => sectionFlocks.find? fun x => !decide (x ∈ used)
  let number := (List.range 2048).find? fun n => !(h.transfers.any fun u => u.flock != 0 && u.number == n)
  match flock, number with
  | some a, some b => some (a, b)
  | _, _ => none

/-! ### Chunks and packets (R358) -/

/-- Chunks of a payload. -/
def chunkCount (payload : List Byte) : Nat := (payload.length + 4095) / 4096

/-- The bytes of a chunk. -/
def chunkOf (payload : List Byte) (seq : Nat) : List Byte := sliceOf payload (4096 * seq) 4096

/-- The header packet's bytes. -/
def chunkHeader (t : Transfer) (seq : Nat) : List Byte :=
  let c := chunkOf t.payload seq
  leBytes 2 t.number ++ leBytes 2 seq ++ leBytes 2 (chunkCount t.payload) ++ leBytes 2 c.length ++ leBytes 4 (crc32c c) ++ leBytes 4 0

/-- PACKET numbers and bytes of a chunk's packets, the header first. -/
def chunkPieces (t : Transfer) (seq : Nat) : List (Nat × List Byte) :=
  let c := chunkOf t.payload seq
  (0, chunkHeader t seq) :: (List.range ((c.length + 63) / 64)).map fun k => (k + 1, sliceOf c (64 * k) 64)

/-- A posted packet of a hub: a FLOCK_DOWN, or a PUT of a repair (R358). -/
def hubPacket (s : State) (f : Nat) (t : Transfer) (seq : Nat) (dst : Option Coord) (piece : Nat × List Byte) : Packet :=
  ({ type := if dst.isSome then tPut else tFlockDown, epoch := s.epoch, seq := false, attempt := 0, age := s.clock % 4, dst := dst.getD { x := 0, y := 0 },
     src := fieldOrigin f, req := 6, tag := 0, offset := t.number * 2 ^ 13 + seq * 2 ^ 7 + piece.1, aux := piece.2.length, tally := 0, tallyEn := false,
     flock := t.flock, payload := piece.2.map PByte.ofData, entries := [], crc := 0, left := none } : Packet).seal

/-- The packets of a transfer's present round: every chunk by flock, or each missing chunk to each incomplete member (R358, R362). -/
def roundPackets (s : State) (f : Nat) (t : Transfer) : List Packet :=
  let n := chunkCount t.payload
  if t.round = 0 then (List.range n).flatMap fun q => (chunkPieces t q).map (hubPacket s f t q none)
  else t.missing.flatMap fun m => ((List.range n).filter fun q => !bitAt m.2 q).flatMap fun q =>
    (chunkPieces t q).map (hubPacket s f t q (some (Coord.ofKey m.1)))

/-- Replace the first transfer that passes. -/
def Hub.setTransfer (h : Hub) (p : Transfer → Bool) (g : Transfer → Transfer) : Hub := { h with transfers := mapFirst p g h.transfers }

/-- A hub's next transfer that has a round to send. -/
def Transfer.toSend (t : Transfer) : Bool := !t.sent && !t.done

/-- A transfer begins: number and flock given, its tree built, and its members' earlier accounts under that number forgotten (R357, R359). -/
def State.transferBegin (s : State) (f : Nat) (t : Transfer) : Option (Transfer × State) :=
  if t.flock ≠ 0 then some (t, s)
  else ((s.hub f).assign t).map fun a =>
    let t' := { t with flock := a.1, number := a.2 }
    let s := s.mapHub f fun h => h.setTransfer Transfer.toSend fun _ => t'
    let s := t.members.foldl (fun (s : State) k =>
      { s with receivers := s.receivers.upd .zero k fun r => { r with got := r.got.erase a.2, buffers := r.buffers.filter fun b => b.transfer != a.2 } }) s
    (t', (s.clearField f a.1).transferTree f t')

/-- A posted packet enters the router at the hub's port, which checks it as any request (R190); one that is refused is never sent. -/
def State.hubInject (s : State) (f : Nat) (p : Packet) : State :=
  match s.injectCheck (fieldOrigin f) p with
  | .inr p => s.mapRouter (fieldOrigin f) fun r => r.inject 5 p
  | .inl _ => s

/-- The hub sends the round of its next transfer through the hub port (R357, R358). -/
def State.broadcast (s : State) (f : Nat) : State :=
  match (s.hub f).transfers.find? Transfer.toSend with
  | none => s
  | some t => match s.transferBegin f t with
    | none => s
    | some (t, s) =>
      let s := (roundPackets s f t).foldl (fun (s : State) p => s.hubInject f p) s
      s.mapHub f fun h => h.setTransfer Transfer.toSend fun u => { u with sent := true }

/-! ### The receiver (R359) -/

/-- The header a packet's bytes give: COUNT, LENGTH and CRC. -/
def headerOf (b : List Byte) : Nat × Nat × Nat := (numAt b 4 2, numAt b 6 2, numAt b 8 4)

/-- One packet joins an assembly. -/
def Assembly.add (a : Assembly) (packet : Nat) (data : List Byte) : Assembly :=
  if packet = 0 then { a with header := some (headerOf data) } else { a with data := a.data.put packet data }

/-- The bytes of a chunk whose header and data packets are all present. -/
def Assembly.whole (a : Assembly) : Option (List Byte) :=
  match a.header with
  | none => none
  | some (_, len, _) =>
    let n := (len + 63) / 64
    if (List.range n).all fun k => (a.data.find (k + 1)).isSome then
      some (((List.range n).flatMap fun k => (a.data.find (k + 1)).getD []).take len)
    else none

/-- The account of one transfer. -/
def Receiver.account (r : Receiver) (transfer : Nat) : Reception :=
  (r.got.find transfer).getD { bitmap := 0, accepted := 0, count := 0, chunks := [] }

/-- A chunk is accepted: its bit, the count, its bytes (R359). -/
def Receiver.acceptChunk (r : Receiver) (a : Assembly) (count : Nat) (bytes : List Byte) : Receiver :=
  let g := r.account a.transfer
  let new : Reception := { bitmap := g.bitmap + 2 ^ a.seq, accepted := g.accepted + 1, count, chunks := g.chunks.put a.seq bytes }
  { r with got := r.got.put a.transfer new }

/-- A packet reaches the receiver of an EMPTY cell (R359): the receiver, and the chunk if this packet completed and proved it. -/
def Receiver.take (r : Receiver) (transfer seq packet : Nat) (data : List Byte) : Receiver × Option (List Byte) :=
  if bitAt (r.account transfer).bitmap seq then (r, none)
  else
    let mine := fun (a : Assembly) => a.transfer == transfer && a.seq == seq
    let old := (r.buffers.find? mine).getD { transfer, seq, header := none, data := [] }
    let new := old.add packet data
    let others := r.buffers.filter fun a => !mine a
    let buffers := if r.buffers.any mine then r.buffers.map fun a => if mine a then new else a
      else if others.length < 2 then others ++ [new] else others.drop 1 ++ [new]
    match new.whole, new.header with
    | some bytes, some (count, _, crc) =>
      let r := { r with buffers := buffers.filter fun a => !mine a }
      if crc32c bytes = crc then (r.acceptChunk new count bytes, some bytes) else ({ r with crcFail := r.crcFail + 1 }, none)
    | _, _ => ({ r with buffers }, none)

/-- Has a receiver the whole transfer? -/
def Reception.complete (g : Reception) : Bool := decide (0 < g.count) && g.accepted == g.count

/-- Firmware bytes of a chunk land in the scratchpad, and the whole firmware in the control store (R359). -/
def State.firmwareChunk (s : State) (c : Coord) (transfer seq : Nat) (bytes : List Byte) : State :=
  let s := s.mapCell c fun x => x.putBytes (4096 * seq) ((bytes.map PByte.ofData).take (c.kind.spadBytes - 4096 * seq))
  let r := s.receivers.get .zero c.key
  let g := r.account transfer
  if g.complete then
    { s with receivers := s.receivers.set .zero c.key { r with firmware := some ((List.range g.count).flatMap fun q => (g.chunks.find q).getD []) } }
  else s

/-- The bytes of an accepted chunk of section n go to the places that R162 and R163 give (R359). -/
def State.sectionChunk (s : State) (c : Coord) (h n seq : Nat) (bytes : List Byte) : State :=
  match (s.regions.find h).bind (·.load) with
  | none => s
  | some j =>
    let im := Image.ofBody j.body
    match im.record (c.x - 8 * j.bx) (c.y - 8 * j.oy), im.sections[n - 1]? with
    | some q, some sec =>
      s.mapCell c fun x => x.putSection sec.type (activeOf (im.bytes j.body (q.refs.getD 0 0))) (im.bytes j.body n) (4096 * seq) bytes
    | _, _ => s

/-- A posted packet reaches a cell (R187, R193, R359): a failed CRC drops it; an EMPTY cell's receiver takes it; any other cell discards and counts it. -/
def State.receive (s : State) (c : Coord) (p : Packet) : State :=
  if !p.crcOk then s.mapRouter c fun r => r.count cDropCrc 1
  else if (s.cell c).mode ≠ .empty then
    { s with receivers := s.receivers.upd .zero c.key fun r => { r with discards := r.discards + 1 } }
  else
    let transfer := bits p.offset 13 11
    let seq := bits p.offset 7 6
    let (r, chunk) := (s.receivers.get .zero c.key).take transfer seq (bits p.offset 0 7) (p.payload.map (·.data))
    let s := { s with receivers := s.receivers.set .zero c.key r }
    match chunk, (s.hub c.field).transfers.find? fun t => t.flock != 0 && t.number == transfer with
    | some bytes, some t => match t.use with
      | .firmware _ => s.firmwareChunk c transfer seq bytes
      | .section_ h n => s.sectionChunk c h n seq bytes
    | _, _ => s

/-- BROADCAST_PACKET_RECEIVE c (R359). -/
def execBroadcastPacketReceive (c : Coord) (s : State) : Answer :=
  atCell c (match s.takeInbox c fun p => p.posted && (p.type == tPut || p.type == tFlockDown) with
    | some (p, s) => s.receive c p
    | none => s)

/-! ### Status sweeps (R361, R362) -/

/-- Members of a transfer still in service, and those of them that are incomplete with their bitmaps; one that does not answer counts as incomplete with
bitmap 0 (R361). -/
def State.sweepFinds (s : State) (t : Transfer) (silent : List Coord) : List Nat × List (Nat × Nat) :=
  let live := t.members.filter fun k => !s.cellOut (Coord.ofKey k)
  (live, live.filterMap fun k =>
    let g := (s.receivers.get .zero k).account t.number
    if Coord.ofKey k ∈ silent then some (k, 0) else if g.complete then none else some (k, g.bitmap))

/-- The region a transfer loads. -/
def Transfer.handle (t : Transfer) : Nat := match t.use with | .section_ h _ => h | .firmware _ => 0

/-- A member still incomplete after the third repair round's sweep is FENCED and reported as FW_MISS (R362). -/
def State.fwMiss (s : State) (f : Nat) (t : Transfer) (m : Nat × Nat) : State :=
  let c := Coord.ofKey m.1
  (s.cellLeaves c .fenced 3).hubNote f recFault Codes.fwMiss t.handle (placeOf c)
    (leBytes 2 t.number ++ leBytes 2 (chunkCount t.payload) ++ leBytes 8 m.2)

/-- A sweep of the hub's oldest transfer whose round is out (R361, R362): the transfer is over, or its next repair round is due. -/
def State.sweepTransfer (s : State) (f : Nat) (silent : List Coord) : Option (Transfer × State) :=
  match (s.hub f).transfers.find? fun t => t.sent with
  | none => none
  | some t =>
    let s := s.advanceTo (s.clock + 4)
    let (live, missing) := s.sweepFinds t silent
    if missing.isEmpty ∨ 3 ≤ t.round then
      let s := s.mapHub f fun h => { h with transfers := h.transfers.filter fun u => !(u.sent && u.number == t.number), rounds := max h.rounds t.round }
      let s := (s.clearField f t.flock)
      some (t, if missing.isEmpty then s else (missing.foldl (fun (s : State) m => s.fwMiss f t m) s).mapChanged)
    else
      some (t, s.mapHub f fun h => h.setTransfer (fun u => u.sent && u.number == t.number) fun u =>
        { u with members := live, missing, round := u.round + 1, sent := false })

/-- No hub holds a transfer of the region any more. -/
def State.delivered (s : State) (h : Nat) : Bool :=
  s.hubs.all fun e => e.2.transfers.all fun t => match t.use with | .section_ k _ => k != h | .firmware _ => true

/-- A region's transfers are dropped. -/
def State.dropTransfers (s : State) (h : Nat) : State :=
  { s with hubs := s.hubs.mapVals .zero fun _ x => { x with transfers := x.transfers.filter fun t => match t.use with | .section_ k _ => k != h | .firmware _ => true } }

end Sys2Proof.Machine
end

