-- ==== Sys2Proof/Machine/Sha3.lean ====
section
/-!
DEFINITION. SHA3-256 and the SHAKE functions of FIPS 202 (R446).
-/
namespace Sys2Proof.Machine

/-! ### The permutation (FIPS 202)

The state is five planes of five lanes: plane `y`, lane `x`. Theta and chi work on whole planes turned by a lane, and the constants of
rho and iota are computed from the rules that define them. -/

/-- One plane, or the five column parities. -/
abbrev Plane : Type := List (BitVec 64)

/-- Lane-by-lane XOR of two planes. -/
def Plane.mix (p q : Plane) : Plane := List.zipWith (· ^^^ ·) p q

/-- What theta adds to every plane: the parity of the column before and, turned by one bit, that of the column after. -/
def thetaEffect (planes : List Plane) : Plane :=
  let parity := planes.foldl Plane.mix (List.replicate 5 0)
  Plane.mix (parity.rotateRight 1) ((parity.rotateLeft 1).map (·.rotateLeft 1))

/-- The places rho and pi visit in turn, from lane 1 of plane 0: after lane x of plane y comes lane y of plane 2x + 3y. -/
def rhoWalk : Nat → Nat × Nat → List (Nat × Nat)
  | 0, _ => []
  | n + 1, place => place :: rhoWalk n (place.2, (2 * place.1 + 3 * place.2) % 5)

/-- Bits by which rho turns lane `x` of plane `y`: the triangular number of its place in the walk, and none for lane 0 of plane 0. -/
def rhoTurn (x y : Nat) : Nat :=
  match (rhoWalk 24 (1, 0)).idxOf? (x, y) with
  | some t => (t + 1) * (t + 2) / 2 % 64
  | none => 0

/-- Rho, then pi: lane `x` of the new plane `y` comes from lane x + 3y of plane x. -/
def rhoPi (planes : List Plane) : List Plane :=
  (List.range 5).map fun y => (List.range 5).map fun x =>
    let source := (x + 3 * y) % 5
    ((planes.getD x []).getD source 0).rotateLeft (rhoTurn source x)

/-- Chi on one plane. -/
def chiPlane (p : Plane) : Plane := p.mix (List.zipWith (fun next after => ~~~ next &&& after) (p.rotateLeft 1) (p.rotateLeft 2))

/-- `n` bits of the sequence that iota draws on: bit 0 of a register of x^8 + x^6 + x^5 + x^4 + 1, started at 1. -/
def iotaBits : Nat → Nat → List Bool
  | 0, _ => []
  | n + 1, r => r.testBit 0 :: iotaBits n (if 2 * r < 256 then 2 * r else (2 * r) ^^^ 0x171)

/-- The constant of a round: seven bits of the sequence, at bits 0, 1, 3, 7, 15, 31 and 63. -/
def iotaOf (bits : List Bool) (round : Nat) : BitVec 64 :=
  (List.range 7).foldl (fun c j => if bits.getD (7 * round + j) false then c ||| BitVec.twoPow 64 (2 ^ j - 1) else c) 0

/-- One round of the permutation, its constant given. -/
def keccakRound (planes : List Plane) (constant : BitVec 64) : List Plane :=
  let turned := (rhoPi (planes.map (Plane.mix (thetaEffect planes)))).map chiPlane
  turned.modifyHead (Plane.mix [constant, 0, 0, 0, 0])

/-- The 24 rounds. -/
def keccakPermute (planes : List Plane) : List Plane :=
  let bits := iotaBits 168 1
  ((List.range 24).map (iotaOf bits)).foldl keccakRound planes

/-- A block as planes: the lanes of the message, then zeros. -/
def blockPlanes (block : List Byte) : List Plane :=
  (List.range 5).map fun y => (List.range 5).map fun x => BitVec.ofNat 64 (leNat (sliceOf block (8 * (5 * y + x)) 8))

/-- The sponge takes `n` blocks of `rate` bytes of a padded message. -/
def absorbBlocks (rate : Nat) : Nat → List Plane → List Byte → List Plane
  | 0, planes, _ => planes
  | n + 1, planes, m => absorbBlocks rate n (keccakPermute (List.zipWith Plane.mix planes (blockPlanes (m.take rate)))) (m.drop rate)

/-- A padded message taken whole by a fresh sponge. -/
def absorbAll (rate : Nat) (m : List Byte) : List Plane := absorbBlocks rate (m.length / rate) (List.replicate 5 (List.replicate 5 0)) m

/-- A message filled up to whole blocks: its domain bits first, the last bit set. -/
def spongePad (rate : Nat) (domain : Byte) (b : List Byte) : List Byte :=
  let n := rate - b.length % rate
  b ++ (if n = 1 then [domain ||| 0x80] else domain :: List.replicate (n - 2) 0 ++ [0x80])

/-- The bytes of the planes, lane by lane. -/
def planesBytes (planes : List Plane) : List Byte := planes.flatten.flatMap fun lane => leBytes 8 lane.toNat

/-- SHA3-256 of bytes: the first 32 bytes after the last block. -/
def sha3 (b : List Byte) : List Byte := (planesBytes (absorbAll 136 (spongePad 136 0x06 b))).take 32

/-- What a sponge gives out in `n` blocks. -/
def squeezeBlocks (rate : Nat) : Nat → List Plane → List Byte
  | 0, _ => []
  | n + 1, planes => (planesBytes planes).take rate ++ squeezeBlocks rate n (keccakPermute planes)

/-- The first bytes of SHAKE128 (rate 168) or SHAKE256 (rate 136) of a message. -/
def shake (rate : Nat) (m : List Byte) (len : Nat) : List Byte :=
  (squeezeBlocks rate ((len + rate - 1) / rate) (absorbAll rate (spongePad rate 0x1F m))).take len

end Sys2Proof.Machine
end

