-- ==== Sys2Proof/Machine/MlDsa.lean ====
section
/-!
DEFINITION. ML-DSA-44 of FIPS 204 (R446): key generation from a seed, signing in the hedged mode, and verification, over a 32-byte digest with an empty
context.
-/
namespace Sys2Proof.Machine.MlDsa

/-! ### The ring: 256 coefficients modulo q -/

/-- The modulus. -/
def q : Nat := 8380417

/-- A polynomial: its 256 coefficients, lowest first. -/
abbrev Poly : Type := List Nat

/-- A power modulo q, its exponent taken modulo 1,024. -/
def power (b e : Nat) : Nat :=
  ((List.range 10).foldl (fun (acc : Nat × Nat) i => (if e.testBit i then acc.1 * acc.2 % q else acc.1, acc.2 * acc.2 % q)) (1, b)).1

/-- A polynomial's value. -/
def evalAt (x : Nat) (w : Poly) : Nat := w.foldr (fun c acc => (c + x * acc) % q) 0

/-- Values at the odd powers 1, 3, 5 … of 1753, a 512th root of unity: multiplication is theirs, place by place. -/
def values (w : Poly) : Poly := (List.range 256).map fun k => evalAt (power 1753 (2 * k + 1)) w

/-- The polynomial of those values; 8347681 is the inverse of 256. -/
def ofValues (a : Poly) : Poly :=
  (List.range 256).map fun j => 8347681 * power 1753 (512 - j) % q * evalAt (power 1753 (1024 - 2 * j)) a % q

/-- Sum and difference. -/
def add (a b : Poly) : Poly := List.zipWith (fun x y => (x + y) % q) a b
def sub (a b : Poly) : Poly := List.zipWith (fun x y => (x + q - y) % q) a b

/-- Product of values, place by place. -/
def times (a b : Poly) : Poly := List.zipWith (fun x y => x * y % q) a b

/-- A vector by a row of values. -/
def dot (a b : List Poly) : Poly := (List.zipWith times a b).foldl add (List.replicate 256 0)

/-- An integer as its residue. -/
def residue (n : Int) : Nat := (n % q).toNat

/-- Greatest size of a coefficient, taken between −q / 2 and q / 2. -/
def size (w : List Poly) : Nat := w.flatten.foldl (fun m c => max m (min c (q - c))) 0

/-! ### Bytes -/

/-- Coefficients packed into so many bits each. -/
def pack (width : Nat) (w : Poly) : List Byte := leBytes (32 * width) (w.foldr (fun c n => c + 2 ^ width * n) 0)

/-- Unpacked again. -/
def unpack (width : Nat) (b : List Byte) : Poly := let n := leNat b; (List.range 256).map fun i => n / 2 ^ (width * i) % 2 ^ width

/-- SHAKE256. -/
def hash (m : List Byte) (len : Nat) : List Byte := shake 136 m len

/-! ### Sampling -/

/-- Three bytes as a number of 23 bits. -/
def threeBytes : List Byte → List Nat
  | a :: b :: c :: rest => (a.toNat + 256 * b.toNat + 65536 * (c.toNat % 128)) :: threeBytes rest
  | _ => []

/-- The eight bits of an index turned round. -/
def reversed (i : Nat) : Nat := (List.range 8).foldl (fun n k => 2 * n + i / 2 ^ k % 2) 0

/-- The values of an entry of the matrix, by row and column; FIPS 204 numbers them with the index reversed. -/
def matrixAt (rho : List Byte) (r s : Nat) : Poly :=
  let drawn := ((threeBytes (shake 168 (rho ++ leBytes 1 s ++ leBytes 1 r) 1344)).filter (· < q)).take 256
  (List.range 256).map fun k => drawn.getD (reversed k) 0

/-- The matrix. -/
def matrix (rho : List Byte) : List (List Poly) := (List.range 4).map fun r => (List.range 4).map fun s => matrixAt rho r s

/-- A short polynomial, coefficients from −2 to 2. -/
def short (seed : List Byte) (n : Nat) : Poly :=
  (((hash (seed ++ leBytes 2 n) 544).flatMap fun b => [b.toNat % 16, b.toNat / 16]).filter (· < 15)).take 256 |>.map fun b => residue (2 - (b % 5 : Nat))

/-- A masking polynomial, coefficients from −131071 to 131072. -/
def mask (seed : List Byte) (n : Nat) : Poly := (unpack 18 (hash (seed ++ leBytes 2 n) 576)).map fun z => residue (131072 - (z : Int))

/-- A challenge: 39 coefficients ±1, the others 0. -/
def challenge (seed : List Byte) : Poly :=
  let drawn := hash seed 544
  let signs := leNat (drawn.take 8)
  ((List.range 39).foldl (fun (acc : Poly × List Nat) k =>
    let i := 217 + k
    let rest := acc.2.dropWhile fun b => decide (i < b)
    let j := rest.headD 0
    ((acc.1.set i (acc.1.getD j 0)).set j (if signs.testBit k then q - 1 else 1), rest.drop 1))
    (List.replicate 256 0, (drawn.drop 8).map (·.toNat))).1

/-! ### Rounding -/

/-- A residue modulo m taken between −m / 2 and m / 2. -/
def centred (m r : Nat) : Int := if m < 2 * (r % m) then (r % m : Int) - m else r % m

/-- High and low part of a key's coefficient, the low of 13 bits. -/
def highKey (r : Nat) : Nat := (((r : Int) - centred 8192 r) / 8192).toNat
def lowKey (r : Nat) : Nat := residue (centred 8192 r)

/-- High and low part of a coefficient by 190,464. -/
def parts (r : Nat) : Nat × Int :=
  let low := centred 190464 r
  if (r : Int) - low = q - 1 then (0, low - 1) else ((((r : Int) - low) / 190464).toNat, low)

/-- The high part, corrected where a hint says so. -/
def hinted (h : Bool) (r : Nat) : Nat :=
  let (high, low) := parts r
  if !h then high else if 0 < low then (high + 1) % 44 else (high + 43) % 44

/-- High parts in six bits each. -/
def packHigh (w : List Poly) : List Byte := w.flatMap (pack 6)

/-! ### Hints -/

/-- Hints packed: the places of each polynomial in turn, then how many there are up to each. -/
def packHints (h : List (List Bool)) : List Byte :=
  let places := h.map fun p => (List.range 256).filter fun i => p.getD i false
  let ends := (List.range 4).map fun k => (places.take (k + 1)).flatten.length
  let all := places.flatten
  (all ++ List.replicate (80 - all.length) 0 ++ ends).map fun n => BitVec.ofNat 8 n

/-- Unpacked, none where they are malformed: counts that fall or pass 80, places that do not rise, bytes left over that are not zero. -/
def unpackHints (b : List Byte) : Option (List (List Bool)) :=
  let n := b.map (·.toNat)
  let ends := 0 :: (List.range 4).map fun k => n.getD (80 + k) 0
  let spans := (List.range 4).map fun k => (n.drop (ends.getD k 0)).take (ends.getD (k + 1) 0 - ends.getD k 0)
  let last := ends.getD 4 0
  if (List.range 4).all (fun k => decide (ends.getD k 0 ≤ ends.getD (k + 1) 0 ∧ ends.getD (k + 1) 0 ≤ 80)) &&
      spans.all (fun p => (p.zip (p.drop 1)).all fun e => decide (e.1 < e.2)) && ((n.take 80).drop last).all (· == 0)
  then some (spans.map fun p => (List.range 256).map fun i => decide (i ∈ p)) else none

/-! ### Keys -/

/-- A key pair. -/
structure Keys where
  rho    : List Byte
  secret : List Byte
  s1     : List Poly
  s2     : List Poly
  t0     : List Poly
  pub    : List Byte
  deriving DecidableEq, Repr

/-- The matrix by a vector given in values. -/
def apply (a : List (List Poly)) (v : List Poly) : List Poly := a.map fun row => ofValues (dot row v)

/-- KeyGen_internal of a 32-byte seed. -/
def keyGen (xi : List Byte) : Keys :=
  let h := hash (xi ++ [4, 4]) 128
  let rho := h.take 32
  let seed := sliceOf h 32 64
  let s1 := (List.range 4).map fun r => short seed r
  let s2 := (List.range 4).map fun r => short seed (r + 4)
  let t := List.zipWith add (apply (matrix rho) (s1.map values)) s2
  { rho, secret := h.drop 96, s1, s2, t0 := t.map (·.map lowKey), pub := rho ++ (t.map (·.map highKey)).flatMap (pack 10) }

/-- What is signed: the digest behind the mark of the pure form and an empty context. -/
def message (digest : List Byte) : List Byte := [0, 0] ++ digest

/-- The representative of a message under a public key. -/
def representative (pub digest : List Byte) : List Byte := hash (hash pub 64 ++ message digest) 64

/-- One attempt at a signature with its mask number, none where it is rejected. -/
def attempt (k : Keys) (a : List (List Poly)) (mu seed : List Byte) (n : Nat) : Option (List Byte) :=
  let y := (List.range 4).map fun r => mask seed (n + r)
  let w := apply a (y.map values)
  let c1 := hash (mu ++ packHigh (w.map (·.map fun r => (parts r).1))) 32
  let c := values (challenge c1)
  let by_ := fun (v : List Poly) => v.map fun p => ofValues (times c (values p))
  let z := List.zipWith add y (by_ k.s1)
  let r := List.zipWith sub w (by_ k.s2)
  let ct0 := by_ k.t0
  let sum := List.zipWith add r ct0
  let hints := List.zipWith (fun p s => List.zipWith (fun x y => (parts x).1 != (parts y).1) p s) r sum
  let lows := r.flatten.foldl (fun m x => max m (parts x).2.natAbs) 0
  if 130994 ≤ size z ∨ 95154 ≤ lows ∨ 95232 ≤ size ct0 ∨ 80 < (hints.flatten.filter id).length then none
  else some (c1 ++ z.flatMap (fun p => pack 18 (p.map fun x => (131072 + q - x) % q)) ++ packHints hints)

/-- Attempts until one stands; `fuel` bounds their number. -/
def attempts (k : Keys) (a : List (List Poly)) (mu seed : List Byte) : Nat → Nat → List Byte
  | 0, _ => []
  | fuel + 1, n => match attempt k a mu seed n with
    | some sig => sig
    | none => attempts k a mu seed fuel (n + 4)

/-- The signature of a digest with 32 random bytes. -/
def sign (k : Keys) (random digest : List Byte) : List Byte :=
  let mu := representative k.pub digest
  attempts k (matrix k.rho) mu (hash (k.secret ++ random ++ mu) 64) 814 0

/-- Does a signature of a digest verify under a public key? A malformed one does not (R446). -/
def verify (pub digest sig : List Byte) : Bool :=
  let c1 := sig.take 32
  let z := (List.range 4).map fun r => (unpack 18 (sliceOf sig (32 + 576 * r) 576)).map fun x => residue (131072 - (x : Int))
  match unpackHints (sig.drop 2336) with
  | none => false
  | some hints =>
    let t1 := (List.range 4).map fun r => (unpack 10 (sliceOf pub (32 + 320 * r) 320)).map fun x => x * 8192 % q
    let c := values (challenge c1)
    let w := List.zipWith sub (apply (matrix (pub.take 32)) (z.map values)) (t1.map fun p => ofValues (times c (values p)))
    let high := List.zipWith (fun p h => List.zipWith (fun x b => hinted b x) p h) w hints
    decide (pub.length = 1312 ∧ sig.length = 2420 ∧ size z < 130994) && hash (representative pub digest ++ packHigh high) 32 == c1

end Sys2Proof.Machine.MlDsa
end

