-- ==== Sys2Proof/Machine/Security.lean ====
section
/-!
DEFINITION. Signed images (R446–R454): the device and vendor keys, the envelope, the component table, and the checks of a verification point.
-/
namespace Sys2Proof.Machine

/-! ### Keys (R446–R449, R452) -/

/-- Does an ML-DSA-44 signature of a 32-byte digest verify under a public key (R446)? -/
def mldsaVerify (key digest sig : List Byte) : Bool := MlDsa.verify key digest sig

/-- The identity key pair, which the boot ROM derives from the fused seed at every S1 (R447). -/
def deviceKeys : MlDsa.Keys := MlDsa.keyGen (sha3 (textBytes "ZQ-SV7-IDENTITY1" ++ leBytes 32 Config.identitySeed.toNat))

/-- DEVICE_PUBLIC_KEY (R447). -/
def deviceKey : List Byte := fitBytes 1312 deviceKeys.pub

/-- A vendor key pair (R449). -/
def vendorKeys (id : Nat) : MlDsa.Keys := MlDsa.keyGen (leBytes 32 (Config.vendorXi id).toNat)

/-- The digest of a vendor public key that the boot ROM holds (R449). -/
def romDigest (id : Nat) : List Byte := sha3 (vendorKeys id).pub

/-- SERIAL 0x1002:01 (R444). -/
def serialText : List Byte := (Config.factory 0x1002 1).take 64

/-- Bytes 0–103 of DEVICE_CERT (R448). -/
def certHead : List Byte :=
  leBytes 4 0x5443445A ++ leBytes 1 (Config.certVendor % 4) ++ leBytes 3 0 ++ sha3 deviceKey ++ fitBytes 64 serialText

/-- DEVICE_CERT: those bytes and the vendor's signature over their digest (R448). -/
def deviceCert : List Byte :=
  certHead ++ fitBytes 2420 (MlDsa.sign (vendorKeys (Config.certVendor % 4)) (leBytes 32 Config.certRandom.toNat) (sha3 certHead))

/-- The device's signature of a report's digest in the hedged mode, with the random bytes of a serial number (R446, R457). -/
def attestSign (serial : Nat) (digest : List Byte) : List Byte :=
  fitBytes 2420 (MlDsa.sign deviceKeys (leBytes 32 (Config.randomWord serial).toNat) digest)

/-! ### The envelope (R450, R451) -/

/-- KIND of a management image and of a region image (R450). -/
def kindMgmt : Nat := 1
def kindRegion : Nat := 2

/-- Header fields of an envelope (R450). -/
structure Envelope where
  header : List Byte
  keyId : Nat
  ownerSigned : Bool
  slot : Nat
  version : Nat
  body : List Byte
  bodyDigest : List Byte
  vendorSig : List Byte
  ownerSig : List Byte
  deriving DecidableEq, Repr

/-- Length of the envelope that a header announces (R450). -/
def envelopeLength (b : List Byte) : Nat := 128 + numAt b 16 4 + 2420 * (1 + numAt b 7 1 % 2)

/-- Read an envelope (R450). -/
def Envelope.of (b : List Byte) : Envelope :=
  let n := numAt b 16 4
  { header := b.take 128, keyId := numAt b 8 1, ownerSigned := bitAt (numAt b 7 1) 0, slot := numAt b 9 1, version := numAt b 12 4,
    body := sliceOf b 128 n, bodyDigest := sliceOf b 24 32, vendorSig := sliceOf b (128 + n) 2420, ownerSig := sliceOf b (128 + n + 2420) 2420 }

/-- The image digest: SHA3-256 of the header and the body (R451). -/
def Envelope.digest (e : Envelope) : List Byte := sha3 (e.header ++ e.body)

/-- Check 1 of R453: the header is valid, of the kind expected, and the length fits. -/
def envelopeForm (kind : Nat) (b : List Byte) : Bool :=
  decide (128 ≤ b.length) && numAt b 0 4 == 0x564E455A && numAt b 4 2 == 1 && numAt b 6 1 == kind && decide (numAt b 7 1 ≤ 1) &&
  (numAt b 7 1 == 1 || numAt b 9 1 == 0) && zeroAt b 10 2 && decide (1 ≤ numAt b 16 4) && zeroAt b 20 4 && zeroAt b 56 72 && b.length == envelopeLength b

/-! ### The component table of a management image (R452, R356) -/

/-- A component: type, offset, length, digest. -/
structure Component where
  type : Nat
  offset : Nat
  length : Nat
  digest : List Byte
  deriving DecidableEq, Repr

/-- The five entries of the table (R452). -/
def components (body : List Byte) : List Component :=
  (List.range 5).map fun i =>
    { type := numAt body (48 * i) 1, offset := numAt body (48 * i + 8) 4, length := numAt body (48 * i + 12) 4, digest := sliceOf body (48 * i + 16) 32 }

/-- Bytes of a component. -/
def Component.bytes (c : Component) (body : List Byte) : List Byte := sliceOf body c.offset c.length

/-- Chunks a cell-firmware component may have (R356): T 12, M 48, F 16. -/
def chunksAllowed (type : Nat) : Nat := if type = 3 then 12 else if type = 4 then 48 else if type = 5 then 16 else 0xFFFFFFFF

/-- Check 7 of R453: the table meets R452, every digest matches, and the cell components fit (R356). -/
def componentsOk (body : List Byte) : Bool :=
  let cs := components body
  decide (240 ≤ body.length) && cs.map (·.type) == [1, 2, 3, 4, 5] && (List.range 5).all (fun i => zeroAt body (48 * i + 1) 7) &&
  cs.all (fun c => decide (1 ≤ c.length ∧ 240 ≤ c.offset ∧ c.offset + c.length ≤ body.length)) &&
  cs.all (fun c => cs.all fun d => c.type == d.type || !overlaps c.offset c.length d.offset d.length) &&
  cs.all (fun c => sha3 (c.bytes body) == c.digest) &&
  cs.all fun c => decide ((c.length + 4095) / 4096 ≤ chunksAllowed c.type)

/-! ### A verification point (R453) -/

/-- The public key of an id that a management image's firmware carries, once its digest is the boot ROM's (R449, R452). -/
def vendorKeyIn (body : List Byte) (id : Nat) : Option (List Byte) :=
  let key := match (components body).find? fun c => c.type == 1 with
    | some c => sliceOf (c.bytes body) (Config.vendorKeyPlace id) 1312
    | none => []
  if id ≤ 3 ∧ sha3 key = romDigest id then some key else none

/-- The vendor key for an envelope: of the running management firmware, and where none runs, at S1 and in minimal mode, of the image being verified itself
(R449, R452, R454; log entry 160). -/
def State.vendorKeyFor (s : State) (e : Envelope) : Option (List Byte) :=
  vendorKeyIn (match s.boot.running with | some b => (Envelope.of b).body | none => e.body) e.keyId

/-- The checks of R453 in their order: the code of the first that fails, or the envelope. -/
def State.verify (s : State) (kind : Nat) (b : List Byte) : Code ⊕ Envelope :=
  let e := Envelope.of b
  if !envelopeForm kind b then .inl Codes.sigInvalid
  else if e.keyId < s.flash.vendorKeyMin then .inl Codes.sigInvalid
  else if sha3 e.body ≠ e.bodyDigest then .inl Codes.digestMismatch
  else if !(match s.vendorKeyFor e with
      | some k => mldsaVerify k e.digest e.vendorSig
      | none => false) then .inl Codes.sigInvalid
  else if s.flash.ownerRequired && !e.ownerSigned then .inl Codes.sigInvalid
  else if e.ownerSigned && !(match s.flash.keys.find e.slot with
      | some k => mldsaVerify k (sha3 (e.header ++ e.body ++ e.vendorSig)) e.ownerSig
      | none => false) then .inl Codes.sigInvalid
  else if kind = kindMgmt ∧ !componentsOk e.body then .inl Codes.digestMismatch
  else .inr e

/-- Operator slot of a verified envelope, if counter-signed (R457). -/
def Envelope.owner (e : Envelope) : Option Nat := if e.ownerSigned then some e.slot else none

end Sys2Proof.Machine
end

