-- ==== Sys2Proof/Machine/Loading.lean ====
section
/-!
DEFINITION. Loading, moving and releasing regions (R110, R154, R158, R164–R169, R181, R206–R209, R251, R300, R332, R500).
-/
namespace Sys2Proof.Machine

/-- GEN of a cell (R54, R154). -/
def Cell.gen (x : Cell) : Bool := bitAt x.regs.cellControl.toNat 16

/-- A cell enters EMPTY: no image, its GEN kept, its tallies (R246), and whatever its switch, its mesh side and its scratchpad hold (R169). -/
def Cell.emptied (x : Cell) : Cell :=
  if x.mode = .dead ∨ x.mode = .fenced then x
  else { Cell.reset with
    regs := { CellRegs.reset with cellControl := if x.gen then 0x14000 else 0x4000 }
    seq := { SeqState.reset with cycle := x.seq.cycle }
    tallies := x.tallies, fault := x.fault, fab := x.fab, mesh := x.mesh, pad := { PadState.reset with bytes := x.pad.bytes } }

/-- Every live cell of a rectangle enters EMPTY. -/
def State.emptyRect (s : State) (bx oy w h : Nat) : State :=
  (rectCells bx oy w h).foldl (fun (s : State) c => s.mapCell c Cell.emptied) s

/-! ### Identifiers (R166, R251, R300) -/

/-- The musters of an image are held for the region, and those it no longer declares are free. -/
def State.holdMusters (s : State) (h : Nat) (im : Image) : State :=
  let s := { s with musters := s.musters.mapVals .zero fun m u => if u.region = h ∧ m ∉ im.musters then .zero else u }
  im.musters.foldl (fun (s : State) m => s.mapMuster m fun u => { u with region := h }) s

/-- Every muster object of the region is set up for a placement (R251–R253, R301, R307). -/
def State.setMusters (s : State) (h : Nat) (im : Image) (b : List Byte) (bx oy : Nat) : State :=
  (im.musters.zip (List.range im.musters.length)).foldl (fun (s : State) e =>
    let cells := s.participants im b bx oy e.2
    let units := if e.2 = 1 then im.collectives.length else 0
    let members := if e.2 = 1 then (match im.collectives with | d :: _ => d.members | [] => []) else []
    s.mapMuster e.1 fun _ => { Muster.zero with
      region := h, cells := if e.2 = 0 then [] else cells.map Coord.key, top := im.topOf e.2 cells, units, members }) s

/-- The ring unit's slots hold the region's declarations from its LOAD on (R300): those it had are free, and the new ones take the lowest free slots. -/
def State.holdRings (s : State) (h : Nat) (im : Image) : State :=
  let s := { s with rings := s.rings.filter fun e => e.2.region != h }
  (List.range im.collectives.length).foldl (fun (s : State) i =>
    match (List.range 16).find? fun k => (s.rings.find k).isNone with
    | some k => { s with rings := s.rings.put k { RingSlot.zero with region := h, decl := i } }
    | none => s) s

/-- A region's flocks leave every table. -/
def State.freeFlocks (s : State) (r : Region) : State := r.trees.foldl (fun (s : State) f => s.clearFlock f.1) s

/-- Is a generation sweep of the region open (R154)? -/
def Region.sweeps (r : Region) : Bool := r.starting.isSome || (match r.load with | some j => j.sweeping | none => false)

/-- Everything a handle holds is freed and the handle names no region (R159, R171). -/
def State.release (s : State) (h : Nat) : State :=
  match s.regions.find h with
  | none => s
  | some r =>
    let s := (s.dropTransfers h).freeFlocks r
    let s := (s.abortDma r true).emptyRect r.bx r.oy r.w r.h
    let s := match r.load with
      | some j =>
        let s := s.emptyRect j.bx j.oy (numAt j.body 8 1) (numAt j.body 9 1)
        (match j.kind with | .relocate ox oo => s.emptyRect ox oo r.w r.h | _ => s)
      | none => s
    { s with
      musters := s.musters.mapVals .zero fun _ u => if u.region = h then .zero else u
      rings := s.rings.filter fun e => e.2.region != h
      regions := s.regions.erase h }

/-- Regions that name a handle as PEER in a fix-up or a flock member (R500). -/
def State.referrers (s : State) (h : Nat) : List Nat :=
  (s.regions.filter fun e =>
    let im := Image.ofBody e.2.body
    e.1 != h && e.2.mode != .empty &&
    (im.fixups.any (fun f => f.kind == 2 && f.peer == h) || im.flocks.any fun f => f.members.any fun m => m.kind == 2 && m.peer == h)).map (·.1)

/-- Every referrer of a region that moves has its placement still to take (R181). -/
def State.tellReferrers (s : State) (h : Nat) : State :=
  (s.referrers h).foldl (fun (s : State) k => s.mapRegion k fun r => { r with peersMoved := addOnce r.peersMoved h }) s

/-- No region has a placement of the handle still to take. -/
def State.untellReferrers (s : State) (h : Nat) : State :=
  { s with regions := s.regions.map fun e => (e.1, { e.2 with peersMoved := e.2.peersMoved.filter fun m => m != h }) }

/-! ### Staging (R169, R357) -/

/-- Fields that hold recorded cells of a placement. -/
def Image.fields (im : Image) (bx oy : Nat) : List Nat := (im.cells.map fun r => (placed bx oy r.rx r.ry).field).dedup

/-- The transfers of one field: one for each section that its cells refer to (R169 steps 1 and 2). -/
def State.fieldTransfers (s : State) (h : Nat) (im : Image) (b : List Byte) (bx oy f : Nat) : List Transfer :=
  (upFrom 1 im.sections.length).filterMap fun n =>
    let members := (im.cells.filter fun r => decide (n ∈ r.refs)).filterMap fun r =>
      let c := placed bx oy r.rx r.ry
      if c.field = f ∧ !s.cellOut c then some c.key else none
    if members.isEmpty then none else some (Transfer.fresh (.section_ h n) (im.bytes b n) members)

/-- Sections are staged in the hubs of the fields that need them. -/
def State.stage (s : State) (h : Nat) (j : LoadJob) : State :=
  let im := Image.ofBody j.body
  (im.fields j.bx j.oy).foldl (fun (s : State) f =>
    let ts := s.fieldTransfers h im j.body j.bx j.oy f
    s.mapHub f fun x => { x with transfers := x.transfers ++ ts }) s

/-- A region that waits to load enters LOADING once its DMA channels are idle; staging begins once no routing flip is in hand (R154, R169, R332). -/
def State.stageTry (s : State) (h : Nat) : State :=
  match s.regions.find h with
  | none => s
  | some r => match r.load with
    | none => s
    | some j =>
      if !j.waitIdle || r.releasing then s
      else if !s.regionIdle r then s
      else
        let s :=
          if r.mode = .loading then s
          else match j.kind with
            | .reload _ =>
              let s := (s.freeFlocks r).emptyRect r.bx r.oy r.w r.h
              s.mapRegion h fun r => { r with
                mode := .loading, bx := j.bx, oy := j.oy, w := numAt j.body 8 1, h := numAt j.body 9 1, trees := [] }
            | _ => s.mapRegion h fun r => { r with mode := .loading }
        if s.flipPending || s.oldValid then s
        else (s.mapRegion h fun r => { r with load := some { j with waitIdle := false } }).stage h j

/-! ### Installing (R110, R165, R167, R169 steps 5–7) -/

/-- One cell of a placement takes its bytes: image, patches for step n, fix-ups (R110, R165, R167). What its switch and mesh side hold stays. -/
def State.installCell (s : State) (h : Nat) (im : Image) (b : List Byte) (n bx oy : Nat) (c : Coord) : State :=
  let x := s.cell c
  if x.mode = .dead ∨ x.mode = .fenced then s
  else
    let rx := c.x - 8 * bx
    let ry := c.y - 8 * oy
    let new := im.cell b rx ry x.gen
    let new : Cell := { new with
      fault := { x.fault with parityLine := x.fault.parityLine.map fun (l, _) => (l, true) }, fab := x.fab, seq := { new.seq with cycle := x.seq.cycle }
      mesh := { x.mesh with windows := x.mesh.windows.map fun v => { v with closed := true } } }
    s.setCell c (im.settle n (s.fixTarget h bx oy) rx ry new)

/-- The members of a region's flocks, resolved at a placement (R165, R166). -/
def State.resolveFlocks (s : State) (h : Nat) (im : Image) (bx oy : Nat) : List (Nat × List Coord) :=
  im.flocks.map fun f => (f.flock, s.flockCells h bx oy f)

/-- Musters, flocks and collectives of a region as they stand at its placement. -/
def State.settleRegion (s : State) (h : Nat) : State :=
  match s.regions.find h with
  | none => s
  | some r =>
    let im := Image.ofBody r.body
    let s := s.setMusters h im r.body r.bx r.oy
    let s := (s.freeFlocks r).mapRegion h fun r => { r with trees := s.resolveFlocks h im r.bx r.oy }
    s.buildFlocks h

/-- Steps 5–7 of R169 at the target: cells installed, identifiers settled, the sweep opened (R154). -/
def State.install (s : State) (h : Nat) (j : LoadJob) : State :=
  let im := Image.ofBody j.body
  let s := s.mapRegion h fun r => { r with bx := j.bx, oy := j.oy, load := some { j with installed := true, sweeping := true } }
  match s.regions.find h with
  | none => s
  | some r =>
    let s := (r.cells).foldl (fun (s : State) c => s.installCell h im j.body (j.step + 1) j.bx j.oy c) s
    let s := match j.kind with | .relocate _ _ => s.tellReferrers h | _ => s
    (((s.settleRegion h).abortDma r false).startSweep r)

/-- The first thing that keeps a load's target from LOADED: FW_MISS, a cell out of service, a link down (R169, R332). -/
def State.targetFault (s : State) (j : LoadJob) : Option Code :=
  let im := Image.ofBody j.body
  let cells := im.cells.map fun r => placed j.bx j.oy r.rx r.ry
  if cells.any fun c => (s.cell c).mode == .fenced && s.defects.causes.find c.key == some 3 then some Codes.fwMiss
  else if s.recordOut im j.bx j.oy then some Codes.cellDead
  else if s.linkOut im j.body j.bx j.oy then some Codes.configInvalid
  else none

/-- A load ends without reaching LOADED: its target is released; a relocated region stays at its old placement, any other handle is EMPTY
(R169, R181, R332). -/
def State.loadFails (s : State) (h : Nat) (j : LoadJob) (code : Code) : State :=
  match j.kind with
  | .relocate ox oo =>
    let s := (s.dropTransfers h).emptyRect j.bx j.oy (numAt j.body 8 1) (numAt j.body 9 1)
    let s := s.mapRegion h fun r => { r with mode := j.back, bx := ox, oy := oo, load := none }
    let s := if j.installed then s.settleRegion h else s
    s.finish j.cmd h outFault code 0
  | _ => (s.release h).finish j.cmd h outFault code 0

/-- Every section is delivered: the target is installed, or the load fails. -/
def State.deliveredNow (s : State) (h : Nat) : State :=
  match s.regions.find h with
  | none => s
  | some r => match r.load with
    | none => s
    | some j =>
      if j.waitIdle || j.installed || r.releasing || !s.delivered h then s
      else match s.targetFault j with
        | some code => s.loadFails h j code
        | none => s.install h j

/-! ### Relocation (R181 steps 4–6) -/

/-- The PEER words and flock members of a region that name a moved one take its new placement (R181); a peer-lost region keeps its words (R500). -/
def State.rewritePeers (s : State) (k moved : Nat) : State :=
  let s := s.mapRegion k fun r => { r with peersMoved := r.peersMoved.filter fun m => m != moved }
  match s.regions.find k with
  | none => s
  | some r =>
    if r.peerLost then s
    else
      let im := Image.ofBody r.body
      let s := (im.fixups.filter fun f => f.kind == 2 && f.peer == moved).foldl (fun (s : State) f =>
        let c := placed r.bx r.oy f.rx f.ry
        match s.fixTarget k r.bx r.oy f with
        | some t => if s.cellOut c then s else s.mapCell c fun x => x.putWord f.offset (putCoord (x.fixWord f.offset) f.bit t)
        | none => s) s
      if im.flocks.any fun f => f.members.any fun m => m.kind == 2 && m.peer == moved then
        ((s.freeFlocks r).mapRegion k fun r => { r with trees := s.resolveFlocks k im r.bx r.oy }).buildFlocks k
      else s

/-- Does a region still have to take a moved one's placement? -/
def State.peersWait (s : State) (moved : Nat) : Bool := s.regions.any fun e => decide (moved ∈ e.2.peersMoved)

/-- Steps 5 and 6 of R181: the old cells enter EMPTY, the old rectangle is free, and the region enters LOADED. -/
def State.relocateDone (s : State) (h : Nat) : State :=
  match s.regions.find h with
  | none => s
  | some r => match r.load with
    | none => s
    | some j => match j.kind with
      | .relocate ox oo =>
        if !j.installed || j.sweeping || r.releasing || s.peersWait h then s
        else match s.targetFault j with
          | some code =>
            (s.loadFails h j code).tellReferrers h
          | none =>
            let s := s.emptyRect ox oo r.w r.h
            (s.mapRegion h fun r => { r with mode := .loaded, load := none, pendingStep := none }).finish j.cmd h outOk 0 0
      | _ => s

/-- Once none of them runs, the referrers of a moved region take its placement (R181 step 4). -/
def State.peerRewrite (s : State) (h : Nat) : State :=
  if (match s.regions.find h with | some r => (match r.load with | some j => j.sweeping | none => false) | none => false) then s
  else
  let told := s.regions.filter fun e => decide (h ∈ e.2.peersMoved)
  if told.any fun e => e.2.mode == .running || e.2.mode == .aborting then s
  else (told.foldl (fun (s : State) e => s.rewritePeers e.1 h) s).relocateDone h

/-! ### The end of a sweep (R154, R156, R169, R174, R181) -/

/-- The window of a load closes: a LOAD is over; a relocation goes on to its referrers. -/
def State.loadSwept (s : State) (h : Nat) (r : Region) (j : LoadJob) : State :=
  let s := s.endSweep r
  match s.targetFault j with
  | some code => (s.untellReferrers h).loadFails h j code
  | none =>
    let count := s.staleTotal r
    match j.kind with
    | .relocate _ _ =>
      let s := s.mapRegion h fun r => { r with load := some { j with sweeping := false } }
      s.relocateDone h
    | .reload true =>
      let s := s.mapRegion h fun r => { r with mode := .loaded, load := none }
      if count = 0 then s.finish j.cmd h outOk 0 0
      else (s.note recFault Codes.staleToken h noPlace (leBytes 4 count)).finish j.cmd h outFault Codes.staleToken count
    | _ => (s.mapRegion h fun r => { r with mode := .loaded, load := none }).finish j.cmd h outOk 0 count

/-- The window of a START of a HALTED region closes (R174). -/
def State.startSwept (s : State) (h : Nat) (r : Region) (c : CmdRef) : State :=
  let s := s.endSweep r
  let s := (s.setModes r .loaded).mapRegion h fun r => { r with mode := .ready, starting := none }
  s.finish c h outOk 0 (s.staleTotal r)

/-- A sweep window closes. -/
def State.sweepClose (s : State) (h : Nat) : State :=
  match s.regions.find h with
  | none => s
  | some r => if r.releasing then s else match r.load, r.starting with
    | some j, _ => if j.sweeping then s.loadSwept h r j else s
    | none, some c => s.startSwept h r c
    | none, none => s

end Sys2Proof.Machine
end

