-- ==== Sys2Proof/Machine/RunControl.lean ====
section
/-!
DEFINITION. Run control (R170–R181, R322, R500): the HCP commands, the start and end of a step, the forced boundary's end, and what the hubs report.
-/
namespace Sys2Proof.Machine

/-! ### Gateways whose router is lost (R282, R320, R330) -/

/-- A privileged unit's record (R338, R460): KIND of R336, logical and physical number, STATE 1 REMAPPED or 2 FENCED. -/
def State.noteUnit (s : State) (kind logical physical st : Nat) : State :=
  s.note recNote 4 0 noPlace (leBytes 1 kind ++ leBytes 2 logical ++ leBytes 2 physical ++ leBytes 1 st)

/-- A privileged unit failed: the defect history keeps it (R338). -/
def State.unitFailed (s : State) (kind number : Nat) : State :=
  { s with defects := { s.defects with history := s.defects.history ++ [(s.flash.powerCycle, HistoryUnit.unit kind number)] } }

/-- Does a gateway serve another home's slots? -/
def State.gateTaken (s : State) (g : Nat) : Bool := s.relend.movedGates.any fun e => e.2 == g

/-- M-cells whose channels have their home at a gateway: four vaults' worth (R282). -/
def gateCells (home : Nat) : List Coord := (upFrom (4 * home) 4).map vaultCell

/-- One home gateway that is lost, none of whose M-cells is in a RUNNING region: its slots move to the lowest free spare gateway, or it is FENCED
(R282, R320, R330). -/
def State.moveGate (s : State) (home : Nat) : State :=
  if 16320 ≤ home ∨ (s.gateServing home).isSome ∨ s.defects.gatePlace.find home = some .fenced ∨
      s.regions.any (fun e => e.2.mode == .running && (gateCells home).any e.2.holds) then s
  else match (upFrom 16320 64).find? fun g => !(s.gate g).lost && !s.gateTaken g with
    | some g =>
      let s := { s with
        relend := { s.relend with movedGates := s.relend.movedGates.put home g }
        defects := { s.defects with gatePlace := s.defects.gatePlace.put home (.remapped g) } }
      ((s.mapGate g fun x => { x with records := [] }).noteUnit 5 home g 1).mapChanged
    | none =>
      (({ s with defects := { s.defects with gatePlace := s.defects.gatePlace.put home .fenced } } : State).noteUnit 5 home 0 2).mapChanged

/-- Every lost home gateway that can move now moves. -/
def State.moveGates (s : State) : State :=
  (s.relend.gateways.filter fun e => e.2.lost).foldl (fun (s : State) e =>
    let s := s.moveGate e.1
    (s.relend.movedGates.filter fun m => m.2 == e.1).foldl (fun (s : State) m => s.moveGate m.1) s) s

/-- The spare node that takes a row node's or the apex's place: the West row spare, then the East one; the apex spare. Its number is 9, 10 or 11 (log entry
31). -/
def DefectState.takeNodeSpare (d : DefectState) (n : Nat) : Option (Nat × DefectState) :=
  let (w, e, a) := d.nodeSpares
  if n = 8 then (if a then some (11, { d with nodeSpares := (w, e, false) }) else none)
  else if w then some (9, { d with nodeSpares := (false, e, a) })
  else if e then some (10, { d with nodeSpares := (w, false, a) })
  else none

/-- A failed row node or apex gets its spare, its logical number kept, or is FENCED (R254). -/
def State.placeNode (s : State) (n : Nat) : State :=
  let kind := if n = 8 then 3 else 2
  match s.defects.takeNodeSpare n with
  | some (k, d) => (({ s with defects := { d with nodePlace := d.nodePlace.put n (.remapped k) } } : State).noteUnit kind n k 1).mapChanged
  | none => (({ s with defects := { s.defects with nodePlace := s.defects.nodePlace.put n .fenced } } : State).noteUnit kind n 0 2).mapChanged

/-- A region is at its boundary: the lost nodes that wait for no other region now have their places taken (R254, R320). -/
def State.placeNodes (s : State) (h : Nat) : State :=
  let waits := s.defects.nodeWaits.map fun e => (e.1, e.2.filter (· != h))
  let s := { s with defects := { s.defects with nodeWaits := waits.filter fun e => !e.2.isEmpty } }
  (waits.filter fun e => e.2.isEmpty).foldl (fun (s : State) e => s.placeNode e.1) s

/-! ### Commands as they arrive (R171–R173, R344, R476) -/

/-- How a command is answered. -/
def refOf (m : HcpMsg) : CmdRef := { src := m.src, seq := m.seq, opcode := m.opcode }

/-- OPCODE (R172). -/
def opLoad : Nat := 1
def opLoadData : Nat := 2
def opStart : Nat := 3
def opStep : Nat := 4
def opHalt : Nat := 5
def opAbort : Nat := 6
def opRelocate : Nat := 7
def opCommit : Nat := 8

/-- Are the header's fields as R172 gives them for the opcode? -/
def headerFits (m : HcpMsg) : Bool :=
  m.version == 1 && decide (1 ≤ m.region ∧ m.region < 65536) &&
  (m.opcode == opLoad && decide (m.flags ≤ 1) || m.opcode == opStep && decide (m.flags ≤ 1) || m.flags == 0) &&
  (m.opcode == opLoad || m.opcode == opStep || m.opcode == opCommit || m.step == 0) &&
  (m.opcode == opLoad || m.opcode == opRelocate || (m.bx == 0 && m.oy == 0)) &&
  (m.opcode == opLoad || m.length == 0) && m.dataOffset == 0

/-- Does the 800GbE port answer HCP, if only to refuse (R343, R344, R364)? -/
def State.hcpServed (s : State) : Bool := s.boot.refclk && !s.boot.minimal

/-- The record of a source's SEQ (R173). -/
def HcpState.record (h : HcpState) (src : Source) (seq : Nat) : Option CmdRecord :=
  (h.records.find? fun e => e.1 == src).bind fun e => e.2.find? fun r => r.seq == seq

/-- A source's command is kept among its last 64 (R173). -/
def HcpState.keep (h : HcpState) (src : Source) (seq : Nat) : HcpState :=
  let new : CmdRecord := { seq, done := none }
  let old := ((h.records.find? fun e => e.1 == src).map (·.2)).getD []
  let all := old ++ [new]
  { h with records := (h.records.filter fun e => e.1 != src) ++ [(src, all.drop (all.length - 64))] }

/-- Is a command of the region in progress (R171)? -/
def State.busy (s : State) (h : Nat) : Bool :=
  s.hcp.loads.any (fun l => l.msg.region == h && !decide (l.msg ∈ s.hcp.waiting)) ||
  (match s.regions.find h with
   | some r => r.load.isSome || r.starting.isSome || r.run.isSome || !r.aborts.isEmpty || r.heldStep.isSome || (r.mode == .halted && !r.suspects.isEmpty)
   | none => false)

/-- Must a command of the region wait: one is in progress, or waits already? -/
def State.mustQueue (s : State) (h : Nat) : Bool := s.busy h || s.hcp.waiting.any fun m => m.region == h

/-! ### LOAD (R168, R169, R173) -/

/-- Byte i of an envelope: the first piece that brought it (R173). -/
def pieceByte (ps : List (Nat × List Byte)) (i : Nat) : Option Byte := ps.findSome? fun p => if p.1 ≤ i then p.2[i - p.1]? else none

/-- The envelope, once every byte has arrived. -/
def PendingLoad.envelope (l : PendingLoad) : Option (List Byte) := (List.range l.msg.length).mapM (pieceByte l.pieces)

/-- The envelope that a LOAD brings. -/
def HcpState.loadOf (h : HcpState) (src : Source) (seq : Nat) : Option PendingLoad := h.loads.find? fun l => l.cmd.src == src && l.cmd.seq == seq

/-- A LOAD's envelope is no longer kept. -/
def State.dropLoad (s : State) (src : Source) (seq : Nat) : State :=
  { s with hcp := { s.hcp with
      loads := s.hcp.loads.filter fun l => !(l.cmd.src == src && l.cmd.seq == seq)
      waiting := s.hcp.waiting.filter fun m => !(m.src == src && m.seq == seq) } }

/-- A region whose handle was EMPTY. -/
def Region.fresh (m : HcpMsg) (w h : Nat) : Region :=
  { mode := .loading, bx := m.bx, oy := m.oy, w, h, musters := [], body := [], digest := [], slot := none, committed := m.step,
    pendingStep := none, run := none, halts := [], aborts := [], forced := none, forcedBy := none, faults := [], load := none, starting := none,
    releasing := false, peerLost := false, heldStep := none, peersMoved := [], trees := [], suspects := [] }

/-- An accepted image: the region holds it, its identifiers are held, and its loading begins (R168, R169). -/
def State.acceptLoad (s : State) (m : HcpMsg) (e : Envelope) : State :=
  let h := m.region
  let im := Image.ofBody e.body
  let old := s.regions.find h
  let job : LoadJob :=
    { cmd := refOf m, kind := if old.isSome then .reload (bitAt m.flags 0) else .new, body := e.body, step := m.step, bx := m.bx, oy := m.oy,
      waitIdle := true, installed := false, sweeping := false, back := (old.map (·.mode)).getD .empty }
  let r : Region := old.getD (Region.fresh m im.w im.h)
  let r : Region := { r with
    musters := im.musters, body := e.body, digest := e.digest, slot := e.owner, committed := m.step, pendingStep := none,
    peerLost := false, peersMoved := [], load := some job }
  let s := { s with regions := s.regions.put h r }
  (((s.holdMusters h im).holdRings h im).stageTry h).deliveredNow h

/-- A region cannot run where its image stands: a recorded cell is out of service, or a route drives a link marked down (R323). -/
def State.condemned (s : State) (r : Region) : Option Code :=
  let routes := (s.liveCells r).any fun c =>
    let g := (s.cell c).regs
    g.folds.any fun f => (List.range 56).any fun o =>
      g.routeKind f o != 0 && decide (edgeNetwork c (trackDir o) (networkOf o) ∈ s.defects.fabricDown)
  if s.recordOut (Image.ofBody r.body) r.bx r.oy then some Codes.cellDead
  else if routes then some Codes.configInvalid
  else none

/-- The same where the region holds an image and no step is in progress: a cell that died there condemns it whatever its state (R323, R332). -/
def State.condemnedAt (s : State) (r : Region) : Option Code :=
  if r.mode = .loaded ∨ r.mode = .ready ∨ r.mode = .halted then s.condemned r else none

/-- A LOAD's turn: refused by the region's state (R171, R323), or checked once its envelope is whole (R168). -/
def State.loadTurn (s : State) (m : HcpMsg) : State :=
  let refuse := fun (code : Code) => (s.dropLoad m.src m.seq).refuse (refOf m) m.region code
  let mode := s.modeOf m.region
  if mode ≠ .empty ∧ mode ≠ .loaded ∧ mode ≠ .halted then refuse Codes.configInvalid
  else match (s.regions.find m.region).bind s.condemned with
  | some code => refuse code
  | none => match (s.hcp.loadOf m.src m.seq).bind PendingLoad.envelope with
    | none => s
    | some b => match s.verify kindRegion b with
      | .inl code => refuse code
      | .inr e => match s.checkImage m.region m.bx m.oy true e.body with
        | some code => refuse code
        | none => (s.dropLoad m.src m.seq).acceptLoad m e

/-! ### START (R174) -/

/-- Do windows together cover the bytes from `lo` up to `hi`? `fuel` is their number. -/
def windowsOver (ws : List Window) : Nat → Nat → Nat → Bool
  | 0, lo, hi => decide (hi ≤ lo)
  | fuel + 1, lo, hi =>
    decide (hi ≤ lo) || (match ws.find? fun w => w.covers 0 lo 1 with
      | some w => windowsOver ws fuel (w.base + w.size) hi
      | none => false)

/-- The windows that R302 asks for are open: with WRITE, together over each area, in the form of its address (R277). -/
def State.windowsOpen (s : State) (im : Image) : Bool :=
  let ws := (s.relend.windows.map (·.2)).filter fun w => w.mode == .open_ && w.write
  im.collectives.all fun d => decide (d.members.length ≤ 1) || (d.areas.drop 1).all fun a => windowsOver ws ws.length a.1 (a.1 + a.2)

/-- What a boundary abandoned in a region's musters is cleared (R257). -/
def State.mustersAbandon (s : State) (r : Region) : State :=
  r.musters.foldl (fun (s : State) m => s.mapMuster m Muster.abandon) s

/-- Every tally takes its INIT value, every latched fault clears and so does the state of the cell's musters (R174, R257). -/
def State.startCells (s : State) (r : Region) : State :=
  let im := Image.ofBody r.body
  (s.liveCells r).foldl (fun (s : State) c => s.mapCell c fun x => { x with
    tallies := match im.record (c.x - 8 * r.bx) (c.y - 8 * r.oy) with
      | some q => talliesOf (im.bytes r.body (q.refs.getD 3 0))
      | none => []
    fault := { x.fault with first := none }
    must := CellMusters.reset
    fab := x.fab.waitsCleared }) s

/-- The CHECK areas of a region's declarations are written with zeros (R309). -/
def State.clearChecks (s : State) (h : Nat) : State :=
  (s.rings.filter fun e => e.2.region == h).foldl (fun (s : State) e => s.clearCheck e.1) s

/-- A cell of the region lies in a field whose core runs on REFCLK direct (R382). -/
def State.coreOnRef (s : State) (r : Region) : Bool := (List.range fieldCount).any fun f => s.clk.active.get false (4 * f) && r.inField f

/-- START (R174, R323, R382, R500). -/
def State.startTurn (s : State) (m : HcpMsg) : State :=
  let h := m.region
  match s.regions.find h with
  | none => s.refuse (refOf m) h Codes.configInvalid
  | some r =>
    match s.condemnedAt r with
    | some code => s.refuse (refOf m) h code
    | none =>
      if (r.mode ≠ .loaded ∧ r.mode ≠ .halted) ∨ r.peerLost then s.refuse (refOf m) h Codes.configInvalid
      else if !((s.liveCells r).all fun c => (s.cell c).regs.startable) || !s.windowsOpen (Image.ofBody r.body) then
        s.refuse (refOf m) h Codes.configInvalid
      else if s.coreOnRef r then s.refuse (refOf m) h Codes.clkNotReady
      else
        let s := (((s.startCells r).mustersAbandon r).abortDma r false).clearChecks h
        if r.mode = .halted then (s.startSweep r).mapRegion h fun r => { r with starting := some (refOf m) }
        else ((s.creditsStart r).mapRegion h fun r => { r with mode := .ready }).finish (refOf m) h outOk 0 0

/-! ### STEP (R175, R178, R181) -/

/-- The bank patches of step n take force, each followed by the fix-ups of its word (R165, R167). -/
def State.patchStep (s : State) (h : Nat) (r : Region) (n : Nat) : State :=
  let im := Image.ofBody r.body
  im.patches.foldl (fun (s : State) p =>
    let c := placed r.bx r.oy p.rx p.ry
    if s.cellOut c then s
    else
      let s := s.mapCell c fun x => x.putWord p.offset (if n % 2 = 0 then p.even else p.odd)
      (im.fixups.filter fun f => f.rx == p.rx && f.ry == p.ry && f.offset == p.offset).foldl (fun (s : State) f =>
        match s.fixTarget h r.bx r.oy f with
        | some t => s.mapCell c fun x => x.putWord f.offset (putCoord (x.fixWord f.offset) f.bit t)
        | none => s) s) s

/-- A STEP that is not held: refused, or its patches apply and the region enters RUNNING (R175, R323, R500). -/
def State.stepNow (s : State) (m : HcpMsg) : State :=
  let h := m.region
  match s.regions.find h with
  | none => s.refuse (refOf m) h Codes.configInvalid
  | some r =>
    let hostCommit := bitAt m.flags 0
    match s.condemnedAt r with
    | some code => s.refuse (refOf m) h code
    | none =>
      if r.mode ≠ .ready ∨ r.peerLost ∨ m.step ≠ r.committed + 1 ∨ 0xFFFFFFFF ≤ r.committed ∨
          (hostCommit ∧ (Image.ofBody r.body).collectives ≠ []) then s.refuse (refOf m) h Codes.configInvalid
      else (s.patchStep h r m.step).mapRegion h fun r => { r with
        mode := .running, pendingStep := none, forced := none, forcedBy := none, faults := [], suspects := []
        run := some { cmd := refOf m, step := m.step, hostCommit, released := false, ended := none } }

/-- STEP: held while the region has a moved peer's placement still to take (R181). -/
def State.stepTurn (s : State) (m : HcpMsg) : State :=
  match s.regions.find m.region with
  | some r =>
    if r.mode = .ready ∧ r.peersMoved ≠ [] then s.mapRegion m.region fun r => { r with heldStep := some m } else s.stepNow m
  | none => s.stepNow m

/-- Held STEPs whose region has taken every placement, or is READY no more, go on. -/
def State.runHeld (s : State) : State :=
  s.regions.foldl (fun (s : State) e => match s.regions.find e.1 with
    | some r => match r.heldStep with
      | some m => if r.peersMoved = [] ∨ r.mode ≠ .ready then (s.mapRegion e.1 fun r => { r with heldStep := none }).stepNow m else s
      | none => s
    | none => s) s

/-! ### RELOCATE and COMMIT (R178, R180, R181) -/

/-- RELOCATE: rules 7 and 8 at the new placement, apart from the present one (R180, R341). -/
def State.relocateTurn (s : State) (m : HcpMsg) : State :=
  let h := m.region
  match s.regions.find h with
  | none => s.refuse (refOf m) h Codes.configInvalid
  | some r =>
    let im := Image.ofBody r.body
    if (r.mode ≠ .loaded ∧ r.mode ≠ .halted) ∨ r.peerLost ∨ rectsMeet r.bx r.oy r.w r.h m.bx m.oy r.w r.h ∨
        !s.linksOk h m.bx m.oy im r.body ∨ !s.placeOk h m.bx m.oy false im r.body then s.refuse (refOf m) h Codes.configInvalid
    else
      let job : LoadJob :=
        { cmd := refOf m, kind := .relocate r.bx r.oy, body := r.body, step := r.committed, bx := m.bx, oy := m.oy, waitIdle := true,
          installed := false, sweeping := false, back := r.mode }
      ((s.mapRegion h fun r => { r with load := some job }).stageTry h).deliveredNow h

/-- COMMIT n (R178, R323). -/
def State.commitTurn (s : State) (m : HcpMsg) : State :=
  let h := m.region
  match s.regions.find h with
  | none => s.refuse (refOf m) h Codes.configInvalid
  | some r =>
    if (r.mode ≠ .ready ∧ r.mode ≠ .halted) ∨ r.pendingStep ≠ some m.step then s.refuse (refOf m) h Codes.configInvalid
    else match s.condemned r with
    | some code => s.refuse (refOf m) h code
    | none => (s.mapRegion h fun r => { r with committed := m.step, pendingStep := none }).finish (refOf m) h outOk 0 0

/-! ### Turns (R171) -/

/-- A command that waits for its region takes its turn. -/
def State.turn (s : State) (m : HcpMsg) : State :=
  if m.opcode = opLoad then s.loadTurn m
  else if m.opcode = opStart then s.startTurn m
  else if m.opcode = opStep then s.stepTurn m
  else if m.opcode = opRelocate then s.relocateTurn m
  else s.commitTurn m

/-- Commands that wait take their turns, in their order, where their region has none in progress. -/
def State.runWaiting (s : State) : State :=
  let s := s.runHeld
  s.hcp.waiting.foldl (fun (s : State) m =>
    if m ∈ s.hcp.waiting ∧ !s.busy m.region ∧ (s.hcp.waiting.find? fun q => q.region == m.region) = some m then
      ({ s with hcp := { s.hcp with waiting := s.hcp.waiting.erase m } } : State).turn m
    else s) s

/-- A command enters: discarded on the field-network port (R476), unserved without a full image (R364), answered again when repeated (R173), refused
before bring-up is complete (R344); then `act` runs. -/
def State.hcpEnter (s : State) (m : HcpMsg) (op : Nat) (act : State → State) : State :=
  if m.opcode ≠ op then s
  else if m.src.port = .field then { s with eth := { s.eth with fieldDiscards := s.eth.fieldDiscards + 1 } }
  else if !s.hcpServed then s
  else match s.hcp.record m.src m.seq with
  | some r => match r.done with
    | some b => { s with completions := s.completions ++ [(m.src, b)] }
    | none => s
  | none =>
    let s := { s with hcp := s.hcp.keep m.src m.seq }
    if s.boot.stage ≠ some 9 ∨ !headerFits m then s.refuse (refOf m) m.region Codes.configInvalid else (act s).runWaiting

/-- A command that takes its turn among those of its region. -/
def State.queued (s : State) (m : HcpMsg) : State :=
  if s.mustQueue m.region then { s with hcp := { s.hcp with waiting := s.hcp.waiting ++ [m] } } else s.turn m

/-- LOAD (R168, R169, R173). -/
def execLoad (m : HcpMsg) (s : State) : Answer :=
  .next (s.hcpEnter m opLoad fun s =>
    let new : PendingLoad := { cmd := refOf m, msg := m, pieces := [], last := s.clock }
    let waits := s.mustQueue m.region
    let s := { s with hcp := { s.hcp with loads := s.hcp.loads ++ [new], waiting := if waits then s.hcp.waiting ++ [m] else s.hcp.waiting } }
    if waits then s else s.loadTurn m)

/-- LOAD_DATA: a piece of the envelope of the LOAD with its SEQ (R173). -/
def State.loadPiece (s : State) (m : HcpMsg) : State :=
  match s.hcp.loadOf m.src m.seq with
  | none => s
  | some l =>
    if m.payload.length ≠ m.length ∨ m.length < 1 ∨ 8192 < m.length ∨ l.msg.length < m.dataOffset + m.length then s
    else
      let new : PendingLoad := { l with pieces := l.pieces ++ [(m.dataOffset, m.payload)], last := s.clock }
      let s := { s with hcp := { s.hcp with loads := s.hcp.loads.map fun q => if q.cmd = l.cmd then new else q } }
      if l.msg ∈ s.hcp.waiting ∨ new.envelope.isNone then s else (s.loadTurn l.msg).runWaiting

/-- LOAD_DATA (R173). -/
def execLoadData (m : HcpMsg) (s : State) : Answer :=
  .next (if m.opcode ≠ opLoadData then s
    else if m.src.port = .field then { s with eth := { s.eth with fieldDiscards := s.eth.fieldDiscards + 1 } }
    else if !s.hcpServed || m.version ≠ 1 then s
    else s.loadPiece m)

/-- LOAD_TIMEOUT src seq (R173). -/
def execLoadTimeout (src : Source) (seq : Nat) (s : State) : Answer :=
  .next (match s.hcp.loadOf src seq with
    | none => s
    | some l =>
      if l.envelope.isSome then s
      else (((s.advanceTo (l.last + 1000000)).dropLoad src seq).refuse l.cmd l.msg.region Codes.configInvalid).runWaiting)

/-- START (R174). -/
def execStart (m : HcpMsg) (s : State) : Answer := .next (s.hcpEnter m opStart fun s => s.queued m)

/-- STEP (R175). -/
def execStep (m : HcpMsg) (s : State) : Answer := .next (s.hcpEnter m opStep fun s => s.queued m)

/-- RELOCATE (R180, R181). -/
def execRelocate (m : HcpMsg) (s : State) : Answer := .next (s.hcpEnter m opRelocate fun s => s.queued m)

/-- COMMIT (R178). -/
def execCommit (m : HcpMsg) (s : State) : Answer := .next (s.hcpEnter m opCommit fun s => s.queued m)

/-- HALT (R171, R175, R176). -/
def State.haltNow (s : State) (m : HcpMsg) : State :=
  let h := m.region
  match s.regions.find h with
  | none => s.refuse (refOf m) h Codes.configInvalid
  | some r => match r.mode with
    | .empty | .loading => s.refuse (refOf m) h Codes.configInvalid
    | .loaded | .halted => s.finish (refOf m) h outOk 0 0
    | .ready => ((s.setModes r .halted).mapRegion h fun r => { r with mode := .halted }).finish (refOf m) h outOk 0 0
    | .running | .aborting => s.mapRegion h fun r => { r with halts := r.halts ++ [refOf m] }

/-- HALT (R171). -/
def execHalt (m : HcpMsg) (s : State) : Answer := .next (s.hcpEnter m opHalt fun s => s.haltNow m)

/-! ### ABORT (R171, R176, R316, R500) -/

/-- Is any referrer of a region RUNNING (R500)? -/
def State.referrerRuns (s : State) (h : Nat) : Bool := (s.referrers h).any fun k => s.modeOf k == .running

/-- A region that waits to be freed is freed, and its ABORTs complete (R500). -/
def State.releaseFree (s : State) (h : Nat) : State :=
  match s.regions.find h with
  | none => s
  | some r =>
    if !r.releasing || s.referrerRuns h then s
    else r.aborts.foldl (fun (s : State) c => s.finish c h outOk 0 0) (s.release h)

/-- The commands that an ABORT cuts short: a LOAD whose envelope or loading is in hand, a RELOCATE, a START. -/
def State.cutShort (s : State) (h : Nat) (r : Region) : List CmdRef :=
  ((s.hcp.loads.filter fun l => l.msg.region == h && !decide (l.msg ∈ s.hcp.waiting)).map (·.cmd)) ++
  ((r.load.map (·.cmd)).toList ++ r.starting.toList)

/-- ABORT of a region that is LOADING, LOADED or HALTED: the command in hand is cut short, referrers are peer-lost, and the rectangle is freed once none
runs. -/
def State.abortRelease (s : State) (m : HcpMsg) (r : Region) : State :=
  let h := m.region
  let cut := s.cutShort h r
  let s := { s with hcp := { s.hcp with loads := s.hcp.loads.filter fun l => !decide (l.cmd ∈ cut) } }
  let s := ((s.referrers h).foldl (fun (s : State) k => s.mapRegion k fun r => { r with peerLost := true }) s).untellReferrers h
  let s := if r.sweeps then s.endSweep r else s
  let s := s.mapRegion h fun r => { r with
    mode := .empty, releasing := true, aborts := r.aborts ++ [refOf m], starting := none, suspects := []
    load := r.load.map fun j => { j with sweeping := false } }
  let s := cut.foldl (fun (s : State) c => s.finish c h outFault Codes.aborted 0) s
  s.releaseFree h

/-- An HCP ABORT ends the wait of a region that has posted for the leader's release, without commit (R316). -/
def State.endDoubt (s : State) (h : Nat) (r : Region) : State :=
  if !s.hasPosted h r then s
  else
    let s := match r.musters[1]? with
      | some m => s.mapMuster m fun u => { u with waiting := none }
      | none => s
    (s.mapRegion h fun r => { r with forced := some Codes.collectiveAbort, forcedBy := none }).stopRings h 6 true

/-- ABORT of a READY or RUNNING region: ABORTING; a collective in doubt ends without commit (R176, R316). -/
def State.abortRunning (s : State) (m : HcpMsg) (r : Region) : State :=
  let h := m.region
  if r.mode = .running then
    let s := ((s.endDoubt h r).stopRings h 6).force h Codes.aborted
    s.mapRegion h fun r => { r with aborts := r.aborts ++ [refOf m] }
  else
    let s := (s.setModes r .halted).abortDma r true
    s.mapRegion h fun r => { r with mode := .aborting, faults := [], suspects := [], aborts := r.aborts ++ [refOf m] }

/-- ABORT (R171, R176). -/
def State.abortNow (s : State) (m : HcpMsg) : State :=
  let h := m.region
  match s.regions.find h with
  | none => s.refuse (refOf m) h Codes.configInvalid
  | some r => match r.mode with
    | .empty => s.refuse (refOf m) h Codes.configInvalid
    | .loading | .loaded | .halted => s.abortRelease m r
    | .ready | .running => s.abortRunning m r
    | .aborting => (s.endDoubt h r).finish (refOf m) h outOk 0 0

/-- ABORT (R176). -/
def execAbort (m : HcpMsg) (s : State) : Answer := .next (s.hcpEnter m opAbort fun s => s.abortNow m)

/-- PEER_RELEASE_FREE h (R500). -/
def execPeerReleaseFree (h : Nat) (s : State) : Answer := .next (s.releaseFree h).runWaiting

/-- PEER_FIXUP_REWRITE h (R181). -/
def execPeerFixupRewrite (h : Nat) (s : State) : Answer := .next (s.peerRewrite h).runWaiting

/-! ### Loading goes on -/

/-- DMA_CHANNELS_IDLE h (R105, R169). -/
def execDmaChannelsIdle (h : Nat) (s : State) : Answer := .next ((s.stageTry h).deliveredNow h).runWaiting

/-- Every region that waits to stage tries again (R332). -/
def State.stageAll (s : State) : State := s.regions.foldl (fun (s : State) e => (s.stageTry e.1).deliveredNow e.1) s

/-- OLD_VALID_CLEAR (R202, R332). -/
def execOldValidClear (s : State) : Answer := .next s.oldClear.stageAll

/-- A status sweep of a field (R361, R362), with the members that do not answer at all: a load whose sections are all delivered goes on (R169). -/
def State.statusSweep (s : State) (f : Nat) (silent : List Coord) : State :=
  match s.sweepTransfer f silent with
  | none => s
  | some (t, s) => match t.use with
    | .section_ h _ => (s.deliveredNow h).runWaiting
    | .firmware _ => s

/-- STATUS_SWEEP sweep (R361). -/
def execStatusSweep (sweep : SweepAnswers) (s : State) : Answer := answerIf (decide (sweep.f < fieldCount)) (s.statusSweep sweep.f sweep.silent)

/-- SWEEP_WINDOW_CLOSE h (R154). -/
def execSweepWindowClose (h : Nat) (s : State) : Answer := .next (s.sweepClose h).runWaiting

/-! ### A step (R175, R48) -/

/-- The musters of a region begin a step: nothing in progress, entries 0 and 1 with the live cells (R251, R257). -/
def State.mustersStart (s : State) (r : Region) : State :=
  let live := (s.liveCells r).map Coord.key
  (r.musters.zip (List.range r.musters.length)).foldl (fun (s : State) e =>
    s.mapMuster e.1 fun u => { u.clear with cells := if e.2 = 1 then live else u.cells }) s

/-- The counts of R325 for one step start again on the edges of a region. -/
def State.edgesStart (s : State) (r : Region) : State :=
  let counts := s.defects.fabricCount.mapVals { step := 0, session := 0 } fun k (n : EdgeCount) =>
    let new : EdgeCount := { n with step := 0 }
    if Coord.inRect (Coord.ofKey (k / 8)) r.bx r.oy r.w r.h then new else n
  { s with defects := { s.defects with fabricCount := counts } }

/-- The step-start muster is released: every cell clears and latches, and runs (R48, R83, R90, R116, R175). -/
def State.stepRelease (s : State) (h : Nat) : State :=
  match s.regions.find h with
  | none => s
  | some r => match r.run with
    | none => s
    | some q =>
      if q.released || r.mode ≠ .running then s
      else
        let im := Image.ofBody r.body
        let s := ((s.mustersStart r).ringsStart h q.step).edgesStart r
        let s := s.mapRegion h fun r => { r with run := some { q with released := true } }
        (s.liveCells r).foldl (fun (s : State) c =>
          (s.mapCell c fun x => { x with mode := .running }).event c fun w => w.stepStart (im.accs r.body (c.x - 8 * r.bx) (c.y - 8 * r.oy))) s

/-- STEP_START_RELEASE h (R48). -/
def execStepStartRelease (h : Nat) (s : State) : Answer := .next (s.stepRelease h)

/-- HALTs that waited complete. -/
def State.haltsDone (s : State) (h : Nat) (r : Region) : State :=
  (r.halts.foldl (fun (s : State) c => s.finish c h outOk 0 0) s).mapRegion h fun r => { r with halts := [] }

/-- Has the region a cell whose latched fault no report has brought yet? A cell that its own fault made DEAD still reports (R127, R176). -/
def State.reportsDue (s : State) (r : Region) : Bool :=
  r.cells.any fun c => (!s.cellOut c || (s.defects.causes.find c.key).isNone) && !(s.cell c).fault.reports.isEmpty

/-- The code a step at its step-end muster fails with: the first reported, else a fault still latched; with a collective, COLLECTIVE_ABORT where none is
local (R175, R312). -/
def State.stepFault (s : State) (r : Region) : Code :=
  match r.faults with
  | e :: _ => e.1
  | [] => match (s.liveCells r).findSome? fun c => (s.cell c).fault.first with
    | some f => f.code
    | none => Codes.collectiveAbort

/-- The release of the step-end muster has reached the management complex (R175, R178). -/
def State.stepEnd (s : State) (h : Nat) : State :=
  match s.regions.find h with
  | none => s
  | some r => match r.run with
    | none => s
    | some q => match q.ended with
      | none => s
      | some flag =>
        let linked := !(Image.ofBody r.body).collectives.isEmpty
        let bad := flag || !r.faults.isEmpty
        if r.mode ≠ .running ∨ (bad ∧ (r.suspects ≠ [] ∨ s.reportsDue r)) then s
        else
          let code := s.stepFault r
          let s := if bad || linked then s
            else s.mapRegion h fun r =>
              if q.hostCommit then { r with pendingStep := some q.step } else { r with committed := q.step }
          let stop := bad || !r.halts.isEmpty
          let s := (s.setModes r (if stop then .halted else .loaded)).mapRegion h fun r =>
            { r with mode := if stop then .halted else .ready, run := none, faults := [] }
          let s := if bad then s.finish q.cmd h outFault code 0 else s.finish q.cmd h outOk 0 0
          ((s.haltsDone h r).leftRunning h).moveGates

/-- STEP_END_COMPLETION h (R175). -/
def execStepEndCompletion (h : Nat) (s : State) : Answer := .next (s.stepEnd h).runWaiting

/-- HUB_FAULT_REPORT f (R175). -/
def execHubFaultReport (f : Nat) (s : State) : Answer := answerIf (decide (f < fieldCount)) (s.hubReport f).runWaiting

/-! ### The end of a forced boundary (R176, R322) -/

/-- Nothing of an aborted region is outstanding: mesh requests of its live cells, their channels, its ring unit's WRITEs (R105, R176). -/
def State.drained (s : State) (h : Nat) (r : Region) : Bool :=
  (s.liveCells r).all (fun c => (s.cell c).outstanding == 0 && (c.kind != .m || s.dmaIdle c)) &&
  s.rings.all fun e => e.2.region != h || e.2.sends.all fun x => x.open_ == 0

/-- The code a STEP carries after a forced boundary (R176, R316). -/
def Region.forcedCode (r : Region) : Code :=
  match r.forced with
  | some c => if c = Codes.aborted then (match r.faults with | e :: _ => e.1 | [] => Codes.aborted) else c
  | none => Codes.aborted

/-- An ABORTING region whose requests are drained, whose faults have been reported and suspects checked, and that waits for no release of a collective, is
swept and HALTED; what waited completes (R176, R316, R322). -/
def State.abortingDone (s : State) (h : Nat) : State :=
  match s.regions.find h with
  | none => s
  | some r =>
    if r.mode ≠ .aborting ∨ !s.drained h r ∨ r.suspects ≠ [] ∨ s.reportsDue r ∨ s.inDoubt r then s
    else
      let s := ((s.startSweep r).endSweep r).setModes r .halted
      let s := s.mapRegion h fun r => { r with mode := .halted, run := none, forced := none, forcedBy := none, faults := [], aborts := [] }
      let s := match r.run with
        | some q => s.finish q.cmd h outFault r.forcedCode 0
        | none => s
      (r.aborts.foldl (fun (s : State) c => s.finish c h outOk 0 0) (s.haltsDone h r)).moveGates.placeNodes h

/-- ABORTING_COMPLETE h (R176). -/
def execAbortingComplete (h : Nat) (s : State) : Answer := .next (s.abortingDone h).runWaiting

/-- A failed suspect's own fault becomes CELL_DEAD where the step would report it (R322). -/
def Region.suspectDead (r : Region) (c : Coord) : Region :=
  { r with
    faults := r.faults.map fun e => if e.2 = some c ∧ suspectCode e.1 then (Codes.cellDead, e.2) else e
    forced := r.forced.map fun k => if r.forcedBy = some c ∧ suspectCode k then Codes.cellDead else k }

/-- The in-service cell check of a suspect ends (R321, R322). It runs at its region's boundary: in ABORTING, after the release of the step-end muster, or
in the HALTED that a fault reported in READY led to at once (R175). -/
def State.checkDone (s : State) (c : Coord) (passed : Bool) : State :=
  match (s.regions.find? fun e => decide (c ∈ e.2.suspects)) with
  | none => s
  | some (h, r) =>
    let atEnd := r.mode == .aborting || r.mode == .halted || (match r.run with | some q => q.ended.isSome | none => false)
    if !atEnd then s
    else
      let s := s.mapRegion h fun r => { r with suspects := r.suspects.erase c }
      if passed then s
      else
        let s := (s.cellLeaves c .dead 8).mapChanged
        (s.hubNote c.field recFault Codes.cellDead h (placeOf c) []).mapRegion h fun r => r.suspectDead c

/-- CELL_CHECK_DONE c passed (R322). -/
def execCellCheckDone (c : Coord) (passed : Bool) (s : State) : Answer := atCell c (s.checkDone c passed).runWaiting

end Sys2Proof.Machine
end

