-- ==== Sys2Proof/Machine/Link.lean ====
section
/-!
DEFINITION. Relend's ports and link layer (R263–R268, R272, R329): units received, replay, ports going down and coming up, lanes, and transit.
-/
namespace Sys2Proof.Machine

/-- Ports are 0–63 (R263). -/
def portOk (p : Nat) : Bool := decide (p < 64)

/-! ### A port goes down and comes up (R265, R267) -/

/-- A port loses its link: its replay buffer is discarded, with the frame it had begun to send; numbers and credits start afresh. -/
def Port.drop (p : Port) (mode : PortMode) : Port :=
  { p with
    mode, replay := [], txHeld := (if p.txPart then p.txWait.drop 1 else p.txWait) ++ p.txHeld, txWait := [], txPart := false, txSeq := 0, rxSeq := 0,
    nak := none, early := [], light := [], rxBytes := [], replayTimes := [], txUsed := .zero, rxHeld := .zero, rxFreed := .zero }

/-- The link layer gives up: the port is DOWN, which is counted and recorded (R267, R459), and trains again at once on the light that it has (R265, R267;
log entry 150). -/
def State.linkGivesUp (s : State) (p : Nat) : State :=
  (s.mapPort p fun x => (x.drop .training).count pLinkDowns 1).note recEvent Codes.linkDown 0 noPlace (leBytes 1 p)

/-- No unit has been acknowledged for 2 µs while units were unacknowledged: an UP port gives up (R267). One with nothing unacknowledged sends an idle
unit first (log entry 19). A TRAINING port whose light went or whose training failed is DOWN (R265). -/
def State.linkDown (s : State) (p : Nat) : State :=
  let x := s.port p
  match x.mode with
  | .up => (s.advanceTo ((if x.replay.isEmpty then s.clock else x.ackAt) + 2)).linkGivesUp p
  | .training => s.mapPort p fun x => { x with mode := .down }
  | _ => s

/-- LINK_DOWN p (R265, R267). -/
def execLinkDown (p : Nat) (s : State) : Answer := answerIf (portOk p) (s.linkDown p)

/-- Do ports train: S8 has begun to train them, and minimal mode, which leaves the optical engines unpowered, is not in force (R354, R364)? -/
def State.opticsOn (s : State) : Bool := s.boot.s8Tested && !s.boot.minimal

/-- LIGHT_ARRIVAL p: a DOWN port begins to train (R265). -/
def execLightArrival (p : Nat) (s : State) : Answer :=
  answerIf (portOk p) (if (s.port p).mode = .down ∧ s.opticsOn then s.mapPort p fun x => { x with mode := .training } else s)

/-- PORT_TRAINING_DONE p: all 8 active lanes are trained, and what waited is sent (R265). -/
def State.portUp (s : State) (p : Nat) : State :=
  if (s.port p).mode = .training ∧ (s.port p).laneFailed = [] ∧ s.opticsOn then
    s.mapPort p fun x => ({ x with mode := .up, ackAt := s.clock } : Port).cutAll s.clock
  else s

/-- PORT_TRAINING_DONE p (R265). -/
def execPortTrainingDone (p : Nat) (s : State) : Answer := answerIf (portOk p) (s.portUp p)

/-! ### Units (R266, R267) -/

/-- Units up to `ack` leave the replay buffer; the 2 µs of R267 start afresh. -/
def Port.acked (now : Nat) (p : Port) (ack : Nat) : Port :=
  if p.replay.any fun u => u.seq == ack then { p with replay := ((p.replay.dropWhile fun u => u.seq != ack)).drop 1, ackAt := now } else p

/-- Every whole frame of the received bytes: the port, frames kept in order; a failed CRC or an invalid KIND is dropped and counted (R285, R286). -/
def Port.parse : Nat → Port → Port
  | 0, p => p
  | fuel + 1, p =>
    let n := frameLength p.rxBytes
    if p.rxBytes.length < 32 ∨ p.rxBytes.length < n then p
    else
      let b := p.rxBytes.take n
      let f := Frame.ofBytes b
      let good := f.crc.toNat == crc32c (b.take 28 ++ [0, 0, 0, 0] ++ b.drop 32) && kindOk f.kind
      let p := { p with rxBytes := p.rxBytes.drop n }
      let p := { p with rxHeld := p.rxHeld.add f.kind }
      Port.parse fuel (if good then { p with rx := p.rx ++ [f] } else (p.count pDropCrc 1).freeRoom f.kind)

/-- The next unit in order is taken: its credits come back and its frame data join the stream. -/
def Port.inOrder (p : Port) (u : LinkUnit) : Port :=
  let p := { p with
    rxSeq := (p.rxSeq + 1) % 65536, nak := none, rxBytes := p.rxBytes ++ (if u.idle then [] else u.data)
    txUsed := { req := p.txUsed.req - u.reqCredit, resp := p.txUsed.resp - u.respCredit } }
  Port.parse (p.rxBytes.length + 1) p

/-- How far a unit's number lies ahead of the one expected. -/
def Port.ahead (p : Port) (seq : Nat) : Nat := (seq + 65536 - p.rxSeq) % 65536

/-- Units held for order follow as far as their numbers do; `fuel` bounds them. -/
def Port.follow : Nat → Port → Port
  | 0, p => p
  | fuel + 1, p =>
    match takeFirst (fun (u : LinkUnit) => u.seq == p.rxSeq) p.early with
    | some (u, rest) => Port.follow fuel (({ p with early := rest } : Port).inOrder u)
    | none => p

/-- The first missing unit is due for replay: what came after the gap is discarded (R267). -/
def Port.gap (p : Port) : Port := { p with nak := some p.rxSeq, early := [] }

/-- A unit's data (R266, R267): the expected one is taken, with those held behind it. One ahead of it may have come over a faster lane and is held while
no lane shows the expected unit lost: a lane keeps its order, and 100 ns of skew are less than 8 codewords of each lane (log entry 132). After a
gap, or uncorrectable, a unit is discarded and the missing one NAKed; an old one is ignored. -/
def Port.unitData (p : Port) (u : LinkUnit) : Port :=
  if u.decoded = .uncorrectable then p.gap
  else
    let d := p.ahead u.seq
    if d = 0 then (p.inOrder u).follow (p.early.length + 1)
    else if 32768 ≤ d ∨ p.early.any (fun v => v.seq == u.seq) then p
    else if p.nak.isSome ∨ d % 8 = 0 ∨ 64 ≤ d then p.gap
    else { p with early := p.early ++ [u] }

/-- A NAK begins a replay; a ninth within 2 µs of the first of the eight before it is one too many (R267). -/
def Port.replays (p : Port) (now : Nat) : Option Port :=
  let times := p.replayTimes ++ [now]
  if 8 < times.length ∧ now ≤ times.headD 0 + 2 then none
  else some ({ p with replayTimes := times.drop (times.length - 8) }.count pReplays 1)

/-- A link unit arrives at a port that is UP (R264, R266, R267). -/
def State.unitReceived (s : State) (p : Nat) (u : LinkUnit) : State :=
  let x := s.port p
  if x.mode ≠ .up then s
  else match u.decoded with
  | .uncorrectable => s.mapPort p fun x => ((x.count pUncorrectable 1).unitData u).speak s.clock
  | _ =>
    let x := if u.decoded = .corrected then x.count pCorrected 1 else x
    let x := (x.acked s.clock u.ack).unitData u
    match (if u.nak ∧ x.replay ≠ [] then x.replays s.clock else some x) with
    | some y => s.mapPort p fun _ => if u.nak ∧ x.replay ≠ [] then y.again else y.speak s.clock
    | none => (s.mapPort p fun _ => x).linkGivesUp p

/-- LINK_UNIT_RECEIVE p u (R267). -/
def execLinkUnitReceive (p : Nat) (u : LinkUnit) (s : State) : Answer := answerIf (portOk p) (s.unitReceived p u)

/-! ### Lanes (R263, R320, R329) -/

/-- The spare lane takes the failed lane's place: due after a step-end release, or at once while no region is RUNNING (R263, R320). -/
def State.swapLane (s : State) (p : Nat) : State :=
  match (s.port p).laneFailed with
  | l :: _ =>
    if !(s.port p).laneDue && s.regions.any (fun e => e.2.mode == .running) then s
    else (s.mapPort p fun x => { x with spareFor := some l, laneFailed := [], laneDue := false }).noteUnit 4 p 8 1
  | [] => s

/-- A lane of a port fails: it is replaced at the next step-end release, or at once where no region runs; a port with no spare left is FENCED (R263, R320,
R329). -/
def State.laneFails (s : State) (p lane : Nat) (cause : LaneCause) : State :=
  let x := s.port p
  let arises := match cause with
    | .training => decide (x.mode = .training)
    | _ => decide (x.mode = .up)
  if !arises || decide (lane ∈ x.laneFailed) || x.spareFor == some lane then s
  else if x.spareFor.isSome || !x.laneFailed.isEmpty then
    let s := s.mapPort p fun x => { x.drop .fenced with laneFailed := [], laneDue := false }
    ((s.unitFailed 4 p).noteUnit 4 p 0 2).mapChanged
  else
    (s.mapPort p fun x => { x with laneFailed := [lane], laneDue := false }).swapLane p

/-- LANE_FAILURE p lane cause (R329): lanes 0–7 and, where it is in use, the spare lane 8. -/
def execLaneFailure (p lane : Nat) (cause : LaneCause) (s : State) : Answer := answerIf (portOk p && decide (lane < 9)) (s.laneFails p lane cause)

/-- LANE_SWAP p (R320). -/
def execLaneSwap (p : Nat) (s : State) : Answer := answerIf (portOk p) (s.swapLane p)

/-! ### Transit (R271, R272) -/

/-- The first frame at a port that is for another engine goes on by the route table, one transit older, or is dropped (R272). -/
def State.transit (s : State) (p : Nat) : State :=
  match s.takeFrame p fun f => f.dst != s.relend.engineId with
  | none => s
  | some (f, s) =>
    let s := s.freeRoom p f
    if 15 ≤ f.hop + 1 then s.mapPort p fun x => x.count pDropHops 1
    else match s.egress f.dst with
      | some q => s.mapPort q fun x => x.send s.clock ({ f with hop := f.hop + 1 } : Frame).seal
      | none => s

/-- FRAME_TRANSIT p (R272). -/
def execFrameTransit (p : Nat) (s : State) : Answer := answerIf (portOk p) (s.transit p)

end Sys2Proof.Machine
end

