-- ==== Sys2Proof/Machine/Streams.lean ====
section
/-!
DEFINITION. Relend as a requester (R283, R284, R286–R291): stream records and their polls, responses, timers and tags.
-/
namespace Sys2Proof.Machine

/-! ### Stream records (R282, R283) -/

/-- Change the first descriptor of a channel that passes. -/
def State.mapDesc (s : State) (c : Coord) (ch : Nat) (p : DmaDesc → Bool) (f : DmaDesc → DmaDesc) : State :=
  s.mapChannel c ch fun x => { x with queue := mapFirst p f x.queue }

/-- A started descriptor of Relend whose record has not been PUT. -/
def DmaDesc.toPlace (d : DmaDesc) : Bool := d.started && d.desc.relend && d.placed.isNone && !d.invalid && decide (d.next < d.total)

/-- The offset of a stream record in its gateway (R281). -/
def recordOffset (slot rec_ : Nat) : Nat := 0x800000 + slot * 0x80000 + rec_ * 0x40000 + 0x3FFFF

/-- The stream record of a descriptor, with its flock root from the M-cell's sender table (R283). -/
def State.recordOf (s : State) (c : Coord) (d : DmaDesc) : Word256 :=
  streamWord d.word (if d.desc.dstKind = 3 then (s.router c).senders.find d.desc.flock else none)

/-- A channel PUTs the record of its next Relend descriptor to its slot on one of its mesh tags (R283), the other record than the last; it waits while an
earlier descriptor still uses that record (log entry 20), and sends no more once it is aborted (R105). A descriptor whose slot has no gateway ends with LINK_DOWN (R330). -/
def State.recordPut (s : State) (c : Coord) (ch : Nat) : State :=
  let x := s.channel c ch
  if x.aborted then s
  else match x.queue.find? DmaDesc.toPlace with
  | none => s
  | some d => match s.slotOf c ch with
    | none => s.mapDesc c ch DmaDesc.toPlace (DmaDesc.over (some (0, Codes.linkDown, 0)))
    | some (g, slot) =>
      let r := if x.record then 1 else 0
      if x.queue.any fun e => e.placed == some r && decide (e.next < e.total) then s
      else
        let t := (s.mapDesc c ch DmaDesc.toPlace fun d => { d with placed := some r }).mapChannel c ch fun x => { x with record := !x.record }
        s.orSame (t.lineRequest c ch 0 tPut (gateCoord g) (recordOffset slot r) 32 0 false 0 (Payload.ofNat 32 (s.recordOf c d).toNat))

/-- STREAM_RECORD_PUT c ch (R283). -/
def execStreamRecordPut (c : Coord) (ch : Nat) (s : State) : Answer := answerIf (channelOk c ch) (s.recordPut c ch)

/-! ### Polls (R284) -/

/-- A descriptor that is polled: its record has been acknowledged (R283). -/
def DmaDesc.polled (d : DmaDesc) : Bool := d.placed.isSome && d.recorded && decide (d.next < d.total)

/-- Does a channel wait for a poll's reply? -/
def Cell.polling (x : Cell) (ch : Nat) : Bool := x.mesh.out.any fun o => o.pkt.req == ch + 1 && o.pkt.toRecord && o.pkt.type == tGet

/-- A channel polls its record with a GET of 16 bytes on one of its mesh tags, one poll at a time (R283); a slot that has no gateway any more ends the
descriptor with LINK_DOWN (R330). -/
def State.poll (s : State) (c : Coord) (ch : Nat) : State :=
  match (s.channel c ch).queue.find? DmaDesc.polled with
  | none => s
  | some d => match s.slotOf c ch with
    | none => s.mapDesc c ch DmaDesc.polled (DmaDesc.over (some (0, Codes.linkDown, 0)))
    | some (g, slot) =>
      if (s.cell c).polling ch then s
      else s.orSame (s.lineRequest c ch 0 tGet (gateCoord g) (recordOffset slot (d.placed.getD 0)) 16 0 false 0 [])

/-- STREAM_POLL c ch (R284). -/
def execStreamPoll (c : Coord) (ch : Nat) (s : State) : Answer := answerIf (channelOk c ch) (s.poll c ch)

/-- A poll that a gateway holds for one of the two records of a slot: the record's key, since when, and the packet. -/
def State.heldPoll (s : State) (g slot : Nat) : Option (Nat × Nat × Packet) :=
  (List.range 2).findSome? fun r => ((s.gate g).records.find (2 * slot + r)).bind fun q => q.polledAt.map fun t => (2 * slot + r, t)

/-- A poll held for 2 µs is answered (R284). -/
def State.pollDue (s : State) (g slot : Nat) : State :=
  match s.heldPoll g slot with
  | none => s
  | some (key, t, p) =>
    let s := s.advanceTo (t + 2)
    match (s.gate g).records.find key with
    | some r => s.pollReply g key r p
    | none => s

/-- STREAM_POLL_DEFERRED g slot (R284). -/
def execStreamPollDeferred (g slot : Nat) (s : State) : Answer := answerIf (decide (g < 16384) && decide (slot < 16)) (s.pollDue g slot)

/-! ### Requests end (R286, R288, R290) -/

/-- A Relend request ended at its engine: the line of its stream, or the ring unit, takes note and moves on. -/
def State.relendEnded (s : State) (u : TagUse) (status : Code) (data : Payload) : State :=
  match u.owner with
  | .stream g slot rec_ line => (s.streamStage g (2 * slot + rec_) line (u.frame.kind != kRead) status data).streamPump g (2 * slot + rec_)
  | .ring slot segment second => s.ringEnded slot segment second status

/-- A request on a tag ends: the tag is freed or rests, and its owner is told. -/
def State.requestEnds (s : State) (p t : Nat) (u : TagUse) (status : Code) (data : Payload) : State :=
  (s.tagEnded p t).relendEnded u status data

/-- The data a RESPONSE carries (R287). -/
def Frame.data (f : Frame) : Payload := if f.poison then Payload.poison f.payload.length else f.payload.map PByte.ofData

/-- A frame that answers a tag, or is stray (R286). -/
def State.answered (s : State) (p kind : Nat) (act : State → Frame → TagUse → State) : State :=
  match s.takeKind p kind with
  | none => s
  | some (f, s) => match s.tagOf f with
    | none => s.mapPort p fun x => x.count pStray 1
    | some u => act s f u

/-- RELEND_RESPONSE p (R290). -/
def execRelendResponse (p : Nat) (s : State) : Answer :=
  answerIf (portOk p) (s.answered p kResponse fun s f u => s.requestEnds f.srcPort f.tag u f.status f.data)

/-- RELEND_NACK p (R290). -/
def execRelendNack (p : Nat) (s : State) : Answer :=
  answerIf (portOk p) (s.answered p kNack fun s f u => s.requestEnds f.srcPort f.tag u f.status [])

/-- An ACCEPT stops the attempt timer and starts the completion timer; a later one with HOLD restarts it (R288, R290). -/
def TagUse.accepts (u : TagUse) (hold : Bool) (now : Nat) : TagUse :=
  match u.phase with
  | .sent => { u with phase := .accepted, since := now }
  | .accepted => if hold then { u with since := now } else u
  | .resting => u

/-- ACCEPT p (R290). -/
def execAccept (p : Nat) (s : State) : Answer :=
  answerIf (portOk p) (s.answered p kAccept fun s f u => s.mapPort f.srcPort fun x => { x with tags := x.tags.put f.tag (u.accepts f.hold s.clock) })

/-- The attempt timer of a SENT tag expires: sent again, or given up after the last re-send (R290). -/
def State.attemptExpires (s : State) (p t : Nat) : State :=
  match (s.port p).tags.find t with
  | none => s
  | some u =>
    if u.phase ≠ .sent then s
    else
      let s := s.advanceTo (u.since + s.odp.attemptUs)
      if s.odp.resends ≤ u.frame.attempt then s.requestEnds p t u Codes.e2eGiveup []
      else match s.tagResend p t u with
        | (none, s) => s
        | (some code, s) => s.requestEnds p t u code []

/-- Is it a tag of a port (R288)? -/
def tagOk (p t : Nat) : Bool := portOk p && decide (t < 4096)

/-- ATTEMPT_TIMER_EXPIRY p tag (R290). -/
def execAttemptTimerExpiry (p tag : Nat) (s : State) : Answer := answerIf (tagOk p tag) (s.attemptExpires p tag)

/-- The completion timer of an ACCEPTED tag expires (R290). -/
def State.completionExpires (s : State) (p t : Nat) : State :=
  match (s.port p).tags.find t with
  | none => s
  | some u => if u.phase ≠ .accepted then s else (s.advanceTo (u.since + s.odp.completionUs)).requestEnds p t u Codes.e2eGiveup []

/-- COMPLETION_TIMER_EXPIRY p tag (R290). -/
def execCompletionTimerExpiry (p tag : Nat) (s : State) : Answer := answerIf (tagOk p tag) (s.completionExpires p tag)

/-- A rest of 64 µs ends (R288). -/
def State.tagRested (s : State) (p t : Nat) : State :=
  match (s.port p).tags.find t with
  | none => s
  | some u =>
    if u.phase ≠ .resting then s
    else (s.advanceTo (u.since + 64)).mapPort p fun x => { x with tags := x.tags.erase t }

/-- TAG_RESTING_END p tag (R288). -/
def execTagRestingEnd (p tag : Nat) (s : State) : Answer := answerIf (tagOk p tag) (s.tagRested p tag)

/-- A port has a FREE tag: streams that are held take it, and the ring unit's sends go on (R289). -/
def State.tagFree (s : State) (p : Nat) : State :=
  if (s.port p).freeTag.isNone then s
  else
    let s := s.relend.gateways.foldl (fun (s : State) e =>
      e.2.records.foldl (fun (s : State) r => if r.2.stalledAt.isSome then s.streamPump e.1 r.1 else s) s) s
    s.rings.foldl (fun (s : State) e => if e.2.sends.isEmpty then s else s.ringPump 4096 e.1) s

/-- TAG_AVAILABLE p (R289). -/
def execTagAvailable (p : Nat) (s : State) : Answer := answerIf (portOk p) (s.tagFree p)

/-! ### Muster arrivals of other engines (R259, R260, R295) -/

/-- A MUSTER_ARRIVE at the leader, stamped with its REFCLK cycle count. -/
def State.arriveReaches (s : State) (p refCycles : Nat) : State :=
  match s.takeKind p kMusterArrive with
  | none => s
  | some (f, s) => s.leaderCount (numAt f.payload 0 1) f.src (bitAt (numAt f.payload 1 1) 0) (bitAt (numAt f.payload 1 1) 1) refCycles

/-- MUSTER_ARRIVE p refCycles (R259). -/
def execMusterArrive (p refCycles : Nat) (s : State) : Answer := answerIf (portOk p) (s.arriveReaches p refCycles)

end Sys2Proof.Machine
end

