-- ==== Sys2Proof/Machine/Defects.lean ====
section
/-!
DEFINITION. Failures in service (R282, R320, R327–R332): a paddock off, a hub controller or a node of the muster tree lost.
-/
namespace Sys2Proof.Machine

/-! ### A paddock off (R331) -/

/-- Cells of a paddock. -/
def paddockCells (p : Nat) : List Coord := (fieldCells (p / 4)).filter fun c => c.paddock == p

/-- A cell in service becomes DEAD with a cause, its vault apart; a check of it is abandoned (R321, R331, R332). -/
def State.cellOff (s : State) (cause : Nat) (c : Coord) : State :=
  if s.cellOut c then s
  else
    let s := s.mapCell c fun x => { x with mode := .dead, seq := { x.seq with stopped := true } }
    { s with defects := { s.defects with causes := s.defects.causes.put c.key cause } }

/-- Gateways beside routers of a paddock are lost, with all they hold (R282, R331). -/
def State.loseGates (s : State) (p : Nat) : State :=
  ((List.range 16384).filter fun g => (gateCoord g).paddock == p).foldl (fun (s : State) g =>
    -- the requests it had accepted send no response: they keep no window busy (R278)
    let s := (s.gate g).inbound.foldl (fun (s : State) i => s.mapWindow i.window fun w => { w with busy := w.busy - 1 }) s
    s.mapGate g fun _ => { Gateway.zero with lost := true }) s

/-- The registers of a paddock. -/
def State.paddockRegs (s : State) (p : Nat) : PaddockRegs := s.pwr.paddocks.get .zero p

/-- Change them. -/
def State.mapPaddock (s : State) (p : Nat) (f : PaddockRegs → PaddockRegs) : State :=
  { s with pwr := { s.pwr with paddocks := s.pwr.paddocks.upd .zero p f } }

/-- Its regulator is off: no rail, nothing settled, nothing estimated (R393, R394). -/
def PaddockRegs.off (r : PaddockRegs) : PaddockRegs := { r with en := false, settled := false, stretching := false, vout := 0, iout := 0, estimate := 0 }

/-- The first map update of a paddock that went off between `old` and now: it waits for the routing version that leaves the paddock out (R331, R333). Before
version 0 there is no flip, and the map that S5 and S6 build holds the changes (R367). -/
def State.holdMap (s old : State) (p : Nat) : State :=
  if !s.boot.routed then s
  else
    let new : MapHold :=
      { paddock := p, cells := ((paddockCells p).filter fun c => !old.cellOut c).map Coord.key
        links := s.defects.meshDown.filter fun e => !decide (e ∈ old.defects.meshDown)
        spares := spares.filter fun pv => (vaultCell pv).paddock == p && old.loft.spareFree pv
        later := s.oldValid }
    { s with defects := { s.defects with unmapped := s.defects.unmapped ++ [new] } }

/-- A powered paddock is off (R331): its cells DEAD, its borders down and a flip begun, its regions at their boundary, its vaults and gateways lost. -/
def State.paddockOff (s : State) (p : Nat) (mode : PaddockMode) (cellCause : Nat) (code : Code) : State :=
  if !s.paddockLive p then s
  else
    let old := s
    let s := { (s.mapPaddock p PaddockRegs.off) with defects := { s.defects with paddocks := s.defects.paddocks.put p mode } }
    let s := ((paddockCells p).foldl (fun (s : State) c => s.cellOff cellCause c) s).dropSuspects
    let s := ((s.borderDown p).holdMap old p).flipTrigger 1
    let s := s.forceAll (fun r => r.inPaddock p) code
    let lost := ((paddockCells p).filter fun c => c.kind == .m).map cellVault
    let served := (lost.filterMap s.loft.servedBy).mergeSort
    -- together, in ascending logical order; a spare that serves none follows (R236)
    let s := (served.filterMap s.loft.server ++ lost).foldl (fun (s : State) pv => s.dropVault pv .paddockTrip) s
    let s := (s.loseGates p).moveGates
    let due := s.vaultsDue served
    (if due.isEmpty then s.mapChanged else s.awaitVaults due).sparesChosen

/-- A paddock of a field without a hub: switched off where it is powered; where it is not yet powered it is OFF_HUB, its cells DEAD, and S3 skips it
(R327, R331, R349, R350). -/
def State.paddockGone (s : State) (code : Code) (p : Nat) : State :=
  if s.paddockLive p then s.paddockOff p .offHub 9 code
  else match s.defects.paddocks.find p with
    | none | some .off =>
      let skip := fun (x : List Nat × List Nat) => (x.1.filter (· != p), x.2.filter (· != p))
      let s := { s with
        defects := { s.defects with paddocks := s.defects.paddocks.put p .offHub }
        boot := { s.boot with first := skip s.boot.first, second := skip s.boot.second } }
      (paddockCells p).foldl (fun (s : State) c => s.cellOff 9 c) s
    | _ => s

/-- The four paddocks of a field without a hub (R327, R349, R383). -/
def State.fieldOff (s : State) (f : Nat) (code : Code) : State := (List.range 4).foldl (fun (s : State) q => s.paddockGone code (4 * f + q)) s

/-- TRIP_CAUSE (R394). -/
def tripCode : TripCause → Nat
  | .overcurrent => 1 | .undervoltage => 2 | .settleTimeout => 3 | .overtemperature => 4

/-- Can a fuse open for a cause (R392)? Undervoltage trips a rail that stands SETTLED at its target, not one that rises from enable or moves to a new
target; a settle timeout trips one that has not settled. -/
def PaddockRegs.tripsBy (r : PaddockRegs) : TripCause → Bool
  | .overcurrent | .overtemperature => true
  | .undervoltage => r.settled
  | .settleTimeout => !r.settled

/-- The moment of a fuse's cause: a settle timeout falls 200 µs after the target was written (R392). -/
def State.tripTime (s : State) (p : Nat) (cause : TripCause) : State :=
  if cause = .settleTimeout then s.advanceTo ((s.paddockRegs p).targetAt + 200) else s

/-- A fuse opens (R331, R338, R392). -/
def State.trip (s : State) (p : Nat) (cause : TripCause) : State :=
  if !s.paddockLive p || !(s.paddockRegs p).tripsBy cause then s
  else
    let s := s.tripTime p cause
    let s := s.hubNote (p / 4) recFault Codes.paddockTrip 0 noPlace (leBytes 2 p ++ leBytes 1 (tripCode cause))
    let s := s.mapPaddock p fun r => { r with cause := tripCode cause }
    let s := { s with defects := { s.defects with history := s.defects.history ++ [(s.flash.powerCycle, HistoryUnit.paddock p)] } }
    s.paddockOff p .tripped 6 Codes.paddockTrip

/-- PADDOCK_TRIP p cause (R331). -/
def execPaddockTrip (p : Nat) (cause : TripCause) (s : State) : Answer := answerIf (decide (p < 272)) (s.trip p cause).runWaiting

/-! ### A hub controller (R327) -/

/-- Transfers of a hub whose staging store is empty are staged afresh. -/
def Transfer.again (t : Transfer) : Transfer := { t with number := 0, flock := 0, missing := [], round := 0, sent := false }

/-- RUNNING regions that pass a test are brought to their boundary. -/
def State.forceRunning (s : State) (p : Region → Bool) (code : Code) : State := s.forceAll (fun r => r.mode == .running && p r) code

/-- Step 3 of R327: the field root's counters are cleared. -/
def State.clearRoot (s : State) (f : Nat) : State :=
  { s with musters := s.musters.mapVals .zero fun _ u => (u.setNode (10000 + f) false 0 false).setNode (10000 + f) true 0 false }

/-- Free spare controllers of a field's half, and their number after one is taken (R327). -/
def DefectState.takeHubSpare (d : DefectState) (east : Bool) : Option DefectState :=
  if east then (if d.hubSpares.2 = 0 then none else some { d with hubSpares := (d.hubSpares.1, d.hubSpares.2 - 1) })
  else if d.hubSpares.1 = 0 then none else some { d with hubSpares := (d.hubSpares.1 - 1, d.hubSpares.2) }

/-- The number of the spare controller taken next: 68 and 69 in the West, 70 and 71 in the East (log entry 31). -/
def DefectState.hubSpareNumber (d : DefectState) (east : Bool) : Nat := if east then 72 - d.hubSpares.2 else 70 - d.hubSpares.1

/-- A hub controller has failed (R327): a spare takes its number, or the field's paddocks go off with cause 0x9. -/
def State.hubFails (s : State) (f : Nat) : State :=
  if !s.hubAlive f then s
  else
    let s := s.unitFailed 1 f
    let s := { s with defects := { s.defects with misses := s.defects.misses.set 0 f 0 } }
    let s := s.note recLost 3 0 noPlace (leBytes 4 0xFFFFFFFF)
    -- the freeze of its ring ends with it, without a note (R467)
    let s := if s.ringFrozen f then { s with recd := { s.recd with frozen := none } } else s
    let s := s.mapHub f fun h => { h with ring := { Ring.zero with seq := h.ring.seq }, holding := [], held := 0, transfers := h.transfers.map Transfer.again }
    match s.defects.takeHubSpare (fieldEast f) with
    | some d =>
      let n := s.defects.hubSpareNumber (fieldEast f)
      let s := ({ s with defects := { d with hubPlace := d.hubPlace.put f (.remapped n) } } : State).noteUnit 1 f n 1
      ((s.forceRunning (fun r => r.inField f) Codes.nodeLost).clearRoot f).mapChanged
    | none =>
      let s := ({ s with defects := { s.defects with hubPlace := s.defects.hubPlace.put f .fenced } } : State).noteUnit 1 f 0 2
      let s := ((s.forceRunning (fun r => r.inField f) Codes.nodeLost).clearRoot f).mapChanged
      s.fieldOff f Codes.nodeLost

/-- A heartbeat of a hub: answered, or missed; the third missed in a row fails it (R327). -/
def State.heartbeat (s : State) (f : Nat) (answered : Bool) : State :=
  if !s.hubAlive f then s
  else if answered then { s with defects := { s.defects with misses := s.defects.misses.set 0 f 0 } }
  else
    let n : Nat := s.defects.misses.get 0 f + 1
    if n < 3 then { s with defects := { s.defects with misses := s.defects.misses.set 0 f n } } else s.hubFails f

/-- The hub sends the round of its next transfer. One that has still to be staged comes over the hub bus first: `bad` fetches in a row show a digest or a
CHECK that does not match, and at the third the hub raises DIGEST_MISMATCH and its controller has failed; the transfer restarts on the spare (R360). -/
def State.stageAndSend (s : State) (f bad : Nat) : State :=
  match (s.hub f).transfers.find? Transfer.toSend with
  | none => s
  | some t =>
    if t.flock = 0 ∧ 3 ≤ bad then (s.hubNote f recFault Codes.digestMismatch t.handle noPlace []).hubFails f
    else s.broadcast f

/-- BROADCAST_TRANSFER send (R357, R358, R360, R362). -/
def execBroadcastTransfer (send : HubSend) (s : State) : Answer :=
  answerIf (decide (send.f < fieldCount)) (s.stageAndSend send.f send.bad).runWaiting

/-- HUB_HEARTBEAT f answered (R327). -/
def execHubHeartbeat (f : Nat) (answered : Bool) (s : State) : Answer := answerIf (decide (f < fieldCount)) (s.heartbeat f answered).runWaiting

/-- HUB_INTERNAL_PARITY_FAULT f (R327). -/
def execHubInternalParityFault (f : Nat) (s : State) : Answer := answerIf (decide (f < fieldCount)) (s.hubFails f).runWaiting

/-! ### A node of the muster tree (R253, R254, R328) -/

/-- Does a muster of the region pass through a row node (0–7) or the apex (8)? -/
def State.passesNode (s : State) (r : Region) (n : Nat) : Bool :=
  r.musters.any fun m =>
    let u := s.muster m
    let cells := u.cells.map Coord.ofKey
    decide (n ∈ nodesNeeded u.top cells)

/-- A round that passes through a row node (0–7) or the apex (8) that fails does not complete: its counters at the node are cleared, and the completions on
their way are lost with it (R254). -/
def Muster.lostAt (u : Muster) (n : Nat) : Muster :=
  if n ∈ nodesNeeded u.top (u.cells.map Coord.ofKey) then
    { (u.setNode (nodePlaceOf n) false 0 false).setNode (nodePlaceOf n) true 0 false with transit := [] }
  else u

/-- A row node or the apex fails (R254): no round through it completes, the RUNNING regions whose musters pass through it are brought to their boundary,
and its place is taken there. -/
def State.rowFails (s : State) (n : Nat) : State :=
  if s.defects.nodePlace.find n = some .fenced ∨ (s.defects.nodeWaits.any fun e => e.1 == n) then s
  else
    let s := s.unitFailed (if n = 8 then 3 else 2) n
    let through := (s.regions.filter fun e => (e.2.mode == .running || e.2.mode == .aborting) && s.passesNode e.2 n).map (·.1)
    let s := { s with musters := s.musters.mapVals .zero fun _ u => u.lostAt n }
    let s := s.forceRunning (fun r => s.passesNode r n) Codes.nodeLost
    if through.isEmpty then s.placeNode n
    else { s with defects := { s.defects with nodeWaits := s.defects.nodeWaits ++ [(n, through)] } }

/-- A block node fails: its block's cells are FENCED with cause 0x5 (R253, R321, R328). -/
def State.blockFails (s : State) (f kx ky : Nat) : State :=
  let b := 120 * f + 12 * ky + kx
  if b ∈ s.defects.blockFailed then s
  else
    let cells := (fieldCells f).filter fun c => c.kx == kx && c.ky == ky
    let s := s.forceRunning (fun r => cells.any r.holds) Codes.nodeLost
    let s := { s with defects := { s.defects with blockFailed := s.defects.blockFailed ++ [b] } }
    ((cells.foldl (fun (s : State) c => if s.cellOut c then s else s.cellLeaves c .fenced 5) s).dropSuspects).mapChanged

/-- Does the node exist? -/
def treeNodeOk (n : TreeNode) : Bool :=
  match n with
  | .block f kx ky => decide (f < fieldCount ∧ kx < 12 ∧ ky < 10)
  | .field f => decide (f < fieldCount)
  | .row r => decide (r < 8)
  | .apex => true

/-- A node is lost: a field root is its hub's controller (R327, R328). -/
def State.nodeFails (s : State) (n : TreeNode) : State :=
  match n with
  | .block f kx ky => s.blockFails f kx ky
  | .field f => s.hubFails f
  | .row r => s.rowFails r
  | .apex => s.rowFails 8

/-- NODE_LOST n (R328). -/
def execNodeLost (n : TreeNode) (s : State) : Answer := answerIf (treeNodeOk n) (s.nodeFails n).runWaiting

end Sys2Proof.Machine
end

