-- ==== Sys2Proof/Machine/Clocks.lean ====
section
/-!
DEFINITION. Clocks (R368–R389): a half's roots and their ramps, lock of a field's root, source switches, and the frequency counters.
-/
namespace Sys2Proof.Machine

/-- Change one half's roots. -/
def State.mapRoots (s : State) (east : Bool) (f : HalfClock → HalfClock) : State :=
  if east then { s with clk := { s.clk with east := f s.clk.east } } else { s with clk := { s.clk with west := f s.clk.west } }

/-- The fixed dividers of a field's domains: core, mesh, loft, hub (R371). -/
def divider (k : Nat) : Nat := [2, 2, 3, 9].getD k 2

/-- A domain's clock in kHz at a root frequency in MHz (R2, R371). -/
def domainKhz (k mhz : Nat) : Nat := mhz * 1000 / divider k

/-- The roots of a half. -/
def State.roots (s : State) (east : Bool) : HalfClock := if east then s.clk.east else s.clk.west

/-- CUR_MHZ: 40 MHz per microsecond toward the set point (R374). -/
def HalfClock.cur (h : HalfClock) (now : Nat) : Nat :=
  if !h.slewing then h.from_
  else if h.from_ ≤ h.set then min h.set (h.from_ + 40 * (now - h.at_))
  else max h.set (h.from_ - 40 * (now - h.at_))

/-- Microsecond by which a ramp has reached its set point. -/
def HalfClock.rampOver (h : HalfClock) : Nat :=
  h.at_ + ((if h.from_ ≤ h.set then h.set - h.from_ else h.from_ - h.set) + 39) / 40

/-- A set point is in range (R371). -/
def State.setOk (s : State) (mhz : Nat) : Bool := decide (1000 ≤ mhz ∧ mhz ≤ s.part.rootMax)

/-- CUR_MHZ summed from the start of a half's last ramp to a microsecond, in MHz × µs / 80 (R374, R384). -/
def HalfClock.sum (h : HalfClock) (now : Nat) : Nat :=
  let n := now - h.at_
  let up := h.set - h.from_
  let down := h.from_ - h.set
  if !h.slewing then 80 * h.from_ * n
  else if 40 * n ≤ up + down then 80 * h.from_ * n + (if h.from_ ≤ h.set then 1600 * n ^ 2 else 0) - (if h.from_ ≤ h.set then 0 else 1600 * n ^ 2)
  else 80 * h.set * n + down ^ 2 - up ^ 2

/-- The gate in hand has counted the roots up to now (R384). -/
def HalfClock.seen (h : HalfClock) (now : Nat) : HalfClock :=
  { h with area := h.area + (h.sum now - h.sum h.areaAt), areaAt := now }

/-- A gate ended: the next one has counted nothing. -/
def HalfClock.gateEnds (h : HalfClock) (now : Nat) : HalfClock := { h with area := 0, areaAt := now, moved := h.slewing, deep := h.depth }

/-- Roots that lock at the start run at their set point (R345, R372). -/
def HalfClock.lock (now : Nat) (h : HalfClock) : HalfClock :=
  if h.from_ = 0 ∧ !h.slewing then { h.seen now with from_ := h.set, at_ := now } else h

/-- Every root of a half ramps to a new set point, from where it stands (R374). -/
def State.rampTo (s : State) (east : Bool) (mhz : Nat) : State :=
  s.mapRoots east fun h =>
    { h.seen s.clock with from_ := h.cur s.clock, at_ := s.clock, set := mhz, slewing := decide (h.cur s.clock ≠ mhz), moved := true }

/-- SEAM_RATIO: the slower half's set point by the faster's, in units of 1/65,536, to nearest (R386). -/
def State.seamRatio (s : State) : Nat :=
  let a := s.clk.west.set
  let b := s.clk.east.set
  let hi := max a b
  (2 * 65536 * min a b + hi) / (2 * hi)

/-! ### Lock (R372, R383) -/

/-- The four domains of a field. -/
def fieldDomains (f : Nat) : List Nat := (List.range 4).map (4 * f + ·)

/-- What a field domain has counted in the gate in hand, up to now (R384). -/
def State.gateOf (s : State) (d : Nat) : DomainGate :=
  let h := (s.roots (fieldEast (d / 4))).seen s.clock
  let g := (s.clk.splits.find d).getD { root := 0, ref := 0, mark := 0, at_ := s.clk.gateAt, times := 0 }
  if s.clk.active.get false d then { g with ref := g.ref + (s.clock - g.at_), mark := h.area, at_ := s.clock }
  else { g with root := g.root + (h.area - g.mark), mark := h.area, at_ := s.clock }

/-- A domain's source changes: it now follows REFCLK direct, or its root (R381). -/
def State.takeSource (s : State) (d : Nat) (ref : Bool) : State :=
  let g := s.gateOf d
  { s with clk := { s.clk with
      splits := if s.clk.active.get false d = ref then s.clk.splits else s.clk.splits.put d { g with times := g.times + 1 }
      active := s.clk.active.set false d ref
      pending := s.clk.pending.filter fun e => e != d } }

/-- The four domains of a field go to REFCLK direct, without any request (R383). -/
def State.sourceNow (s : State) (f : Nat) : State :=
  let s := (fieldDomains f).foldl (fun (s : State) d => s.takeSource d true) s
  { s with clk := { s.clk with src := (fieldDomains f).foldl (fun (m : SMap Bool) d => m.set false d true) s.clk.src } }

/-- A switch is asked for: it is pending until the third rising edge of its source (R381). -/
def State.sourceAsk (s : State) (d : Nat) (ref : Bool) : State :=
  { s with clk := { s.clk with src := s.clk.src.set false d ref, pending := addOnce s.clk.pending d } }

/-- READY sets in a root whose lock detector has held for 65,536 REFCLK cycles (R372). Domains that follow it had stood still till now. -/
def State.rootLocks (s : State) (f : Nat) : State :=
  let s := s.mapRoots (fieldEast f) (HalfClock.lock s.clock)
  { s with clk := { s.clk with
      stood := if f ∈ s.clk.ready ∨ s.clk.active.get false (4 * f) then s.clk.stood else addOnce s.clk.stood f
      ready := addOnce s.clk.ready f, held := s.clk.held.set 0 f 65536 } }

/-- 5 ms without lock: the field's number is FENCED and its paddocks go off, as R349 has it for a root lost at S2 (R383). -/
def State.fieldLost (s : State) (f : Nat) : State :=
  let s := { s with clk := { s.clk with lostAt := s.clk.lostAt.erase f } }
  let s := if s.hubAlive f then
      (({ s with defects := { s.defects with hubPlace := s.defects.hubPlace.put f .fenced } } : State).noteUnit 1 f 0 2).mapChanged
    else s
  s.fieldOff f Codes.clkNotReady

/-- READY sets; a root that had lost lock in service returns where that is within 5 ms of the drop, and its domains ask for it; later its field is lost
already (R372, R383). -/
def State.rootUp (s : State) (f : Nat) : State :=
  match s.clk.lostAt.find f with
  | none => s.rootLocks f
  | some t =>
    if t + 5000 < s.clock then ((s.fieldLost f).rootLocks f).runWaiting
    else
      let s := s.rootLocks f
      let s := { s with clk := { s.clk with lostAt := s.clk.lostAt.erase f, returning := addOnce s.clk.returning f } }
      ((fieldDomains f).foldl (fun (s : State) d => s.sourceAsk d false) s).hubNote f recNote 6 0 noPlace (leBytes 1 f)

/-- ROOT_READY f (R372). -/
def execRootReady (f : Nat) (s : State) : Answer := answerIf (decide (f < fieldCount)) (if s.clk.refPresent then s.rootUp f else s)

/-- LOCK and READY clear and the hold count restarts from zero (R372). Domains of a root that drops before the engine is at work stand still with it. -/
def State.lockClears (s : State) (f : Nat) : State :=
  { s with clk := { s.clk with ready := s.clk.ready.filter fun g => g != f, held := s.clk.held.set 0 f 0, returning := s.clk.returning.filter fun g => g != f } }

/-- A root loses lock: READY clears; in service the field goes on REFCLK and its RUNNING regions to their boundary (R383). -/
def State.lockLost (s : State) (f : Nat) : State :=
  if !decide (f ∈ s.clk.ready) then s.lockClears f
  else
    let s := s.lockClears f
    if s.boot.stage ≠ some 9 then s
    else
      let s := s.sourceNow f
      let s := { s with clk := { s.clk with lostAt := s.clk.lostAt.put f s.clock } }
      let s := s.hubNote f recEvent Codes.clkNotReady 0 noPlace (leBytes 1 f)
      (s.forceRunning (fun r => r.inField f) Codes.clkNotReady).runWaiting

/-- LOCK_DROP f (R383). -/
def execLockDrop (f : Nat) (s : State) : Answer := answerIf (decide (f < fieldCount)) (s.lockLost f)

/-- 5 ms without lock (R383). -/
def State.relockFails (s : State) (f : Nat) : State :=
  match s.clk.lostAt.find f with
  | none => s
  | some t => ((s.advanceTo (t + 5000)).fieldLost f).runWaiting

/-- ROOT_RELOCK_TIMEOUT f (R383). -/
def execRootRelockTimeout (f : Nat) (s : State) : Answer := answerIf (decide (f < fieldCount)) (s.relockFails f)

/-! ### Source switches (R381, R382) -/

/-- Does a region with a cell in the field run? -/
def State.fieldRuns (s : State) (f : Nat) : Bool := s.regions.any fun e => e.2.mode == .running && e.2.inField f

/-- A field has returned to its root once none of its switches is pending (R383). -/
def State.returned (s : State) (f : Nat) : State :=
  if (fieldDomains f).any fun d => decide (d ∈ s.clk.pending) then s
  else { s with clk := { s.clk with returning := s.clk.returning.filter fun g => g != f } }

/-- A switch completes; one to a root that is not READY is abandoned and recorded; the return of a field whose root had lost lock waits until no region of
it runs (R381, R383). -/
def State.switchDone (s : State) (f k : Nat) : State :=
  let d := 4 * f + k
  if !decide (d ∈ s.clk.pending) then s
  else if s.clk.src.get false d then (s.takeSource d true).returned f
  else if !decide (f ∈ s.clk.ready) then
    let s := { s with clk := { s.clk with src := s.clk.src.set false d true, pending := s.clk.pending.filter fun e => e != d } }
    s.hubNote f recEvent Codes.clkNotReady 0 noPlace (leBytes 1 f)
  else if decide (f ∈ s.clk.returning) && s.fieldRuns f then s
  else (s.takeSource d false).returned f

/-- SOURCE_SWITCH_DONE f k (R381). -/
def execSourceSwitchDone (f k : Nat) (s : State) : Answer := answerIf (decide (f < fieldCount) && decide (k < 4)) (s.switchDone f k)

/-! ### Frequency counters (R384) -/

/-- kHz of a domain on REFCLK direct (R379). -/
def refKhz : Nat := 156250

/-- The least and the greatest factor that spread spectrum puts on the mean of a gate of 1 ms, in units of 1 / (4,000 × SSC_RATE): the gate holds
SSC_RATE / 100 modulation periods, the whole ones with their mean of 1 − depth / 2, the rest between 1 − depth and 1; with a ramp or a spread write in it
the whole gate lies between these (R376). -/
def HalfClock.spreadMean (h : HalfClock) : Nat × Nat :=
  let whole := h.rate / 10 * 10
  if h.moved then ((4000 - 2 * h.deep) * h.rate, 4000 * h.rate)
  else (whole * (4000 - h.depth) + (h.rate - whole) * (4000 - 2 * h.depth), whole * (4000 - h.depth) + (h.rate - whole) * 4000)

/-- Does a domain run for the whole gate (R384)? A field domain stands still while it follows a root that is not READY; minimal mode leaves the Relend and
Ethernet ports unpowered (R364). -/
def State.domainRuns (s : State) (d : Nat) : Bool :=
  let f := d / 4
  if d < 272 then s.clk.active.get false d || (decide (f ∈ s.clk.ready) && !decide (f ∈ s.clk.stood))
  else s.clk.refPresent && !(s.boot.minimal && decide (d < 337))

/-- The least and the greatest mean in kHz that a domain which ran for the whole gate can show (R371, R376, R379, R384, R399): a field domain follows its
root, its ramps and spread included, through its divider, or runs on REFCLK, or did both, a change of source falling somewhere in its microsecond; a
stretch at most halves core and mesh; the others run at their own rate. -/
def State.khzBounds (s : State) (d : Nat) : Nat × Nat :=
  if d < 272 then
    let h := s.roots (fieldEast (d / 4))
    let g := s.gateOf d
    let span := max 1 (s.clock - s.clk.gateAt)
    let (lo, hi) := h.spreadMean
    let unit := 80 * divider (d % 4) * (4000 * h.rate)
    let either := 2250000 * g.times
    let least := (1000 * g.root * lo / unit + refKhz * g.ref - either) / span
    let most := (1000 * g.root * hi / unit + 1 + refKhz * g.ref + either) / span + 1
    (if d % 4 < 2 ∧ d / 4 ∈ s.clk.slowed then least / 2 else least, most)
  else
    let k := if d < 336 then 1250000 else if d = 336 then 1328125 else if d = 337 then 62500 else refKhz
    (k, k)

/-- The kHz that a counter presents: 0 where its domain did not run for the whole gate, else its count within what its clock allows, where no count comes
with the command one that the model leaves open (R384; log entry 140). -/
def State.khzOf (s : State) (counts : SMap Nat) (d : Nat) : Nat :=
  let (lo, hi) := s.khzBounds d
  if !s.domainRuns d then 0
  else max lo (min hi (match counts.find d with
    | some n => n
    | none => lo + (Config.freeWord (s.freeIdx + d)).toNat % (hi - lo + 1)))

/-- The gate of 1 ms in hand ends: every counter takes its kHz, and the next gate begins (R384). -/
def State.gateDone (s : State) (counts : List (Nat × Nat)) : State :=
  let s := s.advanceTo (s.clk.gateAt + 1000)
  let given := counts.foldl (fun (m : SMap Nat) e => m.put e.1 e.2) []
  let khz := (List.range 340).foldl (fun (m : SMap Nat) d => m.set 0 d (s.khzOf given d)) []
  { s with
    freeIdx := s.freeIdx + 340
    clk := { s.clk with
      khz, gates := (s.clk.gates + 1) % 65536, gateAt := s.clock, splits := [], stood := []
      slowed := if s.pwr.bankStretch then List.range fieldCount else s.pwr.stretched
      west := s.clk.west.gateEnds s.clock, east := s.clk.east.gateEnds s.clock } }

/-- FREQ_COUNTER_GATE (R384). -/
def execFreqCounterGate (counts : List (Nat × Nat)) (s : State) : Answer := .next (if s.clk.refPresent then s.gateDone counts else s)

end Sys2Proof.Machine
end

