-- ==== Sys2Proof/Machine/Power.lean ====
section
/-!
DEFINITION. Power (R390–R411) and PACE (R296): operating points, the DVFS sequencers, adaptive voltage, droop, the estimate and the averaged cap,
temperature, and pace following.
-/
namespace Sys2Proof.Machine

/-! ### Operating points (R395) -/

/-- Root frequency of a point in MHz. -/
def opRoot (op : Nat) : Nat := [4500, 4250, 4000, 3700, 3400, 3100, 2800, 2500, 2200, 1900, 1600, 1000].getD op 1000

/-- VNOM_MV of a point. -/
def opVnom (op : Nat) : Nat := [800, 780, 760, 735, 710, 690, 670, 650, 630, 615, 600, 580].getD op 580

/-- Core clock of a point in kHz. -/
def opKhz (op : Nat) : Nat := domainKhz 0 (opRoot op)

/-- One half's sequencer. -/
def State.dvfs (s : State) (east : Bool) : HalfPower := if east then s.pwr.east else s.pwr.west

/-- Change one half's sequencer. -/
def State.mapDvfs (s : State) (east : Bool) (f : HalfPower → HalfPower) : State :=
  if east then { s with pwr := { s.pwr with east := f s.pwr.east } } else { s with pwr := { s.pwr with west := f s.pwr.west } }

/-- Does the power controller govern: from the start of S3 (R345)? -/
def State.powered (s : State) : Bool := match s.boot.stage with | some n => decide (3 ≤ n) | none => false

/-! ### What the controller asks for (R404, R408, R409, R411) -/

/-- Does a member's PACE count (R408)? -/
def PaceHeard.counts (h : PaceHeard) (now : Nat) : Bool := h.reason != 3 && decide (now < h.at_ + 3000)

/-- The follow point: the highest available point whose core clock is no higher than the lowest counting CORE_KHZ, else the lowest (R408). -/
def State.followPoint (s : State) : Nat :=
  let khz := (s.relend.paceGroup.filterMap fun e => s.relend.heard.find e).filter fun h => h.counts s.clock
  match khz with
  | [] => s.part.highest
  | h :: rest =>
    let low := rest.foldl (fun m g => min m g.khz) h.khz
    ((upFrom s.part.highest (12 - s.part.highest)).find? fun op => decide (opKhz op ≤ low)).getD 11

/-- Points below the highest at which measures hold a half: the lowest of those in force and of what the ended ones have left (R411). -/
def HalfPower.held (h : HalfPower) : Nat := max (max h.hold h.throttle) (max h.hot h.bank)

/-- The lower of the controller's own choice and what holds the half (R407, R408, R411). -/
def State.ownPoint (s : State) (east : Bool) : Nat := min 11 (max s.pwr.own (s.part.highest + (s.dvfs east).held))

/-- The point the controller wants a half at: a follower takes the lower of its own and the follow point, and its skew steps below that (R408, R409). -/
def State.wish (s : State) (east : Bool) : Nat :=
  if s.pwr.follow then min 11 (max (s.ownPoint east) s.followPoint + s.pwr.skewSteps) else s.ownPoint east

/-! ### PACE (R296) -/

/-- Is the operating point lowered by the controller itself? -/
def State.lowered (s : State) : Bool := decide (s.part.highest < s.ownPoint false ∨ s.part.highest < s.ownPoint true)

/-- PACE goes to every member of the pace group, with the core clock of the slower half as it runs now. -/
def State.sendPace (s : State) (reason : Nat) : State :=
  let khz := domainKhz 0 (min ((s.roots false).cur s.clock) ((s.roots true).cur s.clock))
  let s := { s with relend := { s.relend with paceAt := s.clock } }
  let payload := leBytes 4 khz ++ leBytes 1 reason ++ leBytes 1 0 ++ leBytes 2 s.relend.paceSeq ++ List.replicate 8 0
  (s.relend.paceGroup.filter fun e => e != s.relend.engineId).foldl (fun (s : State) e =>
    (s.sendFrame { Frame.plain kPace e s.relend.engineId with len := 16, payload }).2) s

/-- The controller's own point changed, for a reason: PACE is sent while it is lowered, and once as it returns. -/
def State.paceChange (s : State) (reason : Nat) : State :=
  let was := s.relend.paceReason
  let s := { s with relend := { s.relend with paceSeq := (s.relend.paceSeq + 1) % 65536, paceReason := if s.lowered then some reason else none } }
  if s.lowered then s.sendPace reason else if was.isSome then s.sendPace 3 else s

/-- PACE_RESEND: 1 ms after the last PACE while lowered (R296). -/
def execPaceResend (s : State) : Answer :=
  .next (match s.relend.paceReason with
    | some r => (s.advanceTo (s.relend.paceAt + 1000)).sendPace r
    | none => s)

/-- A PACE that is newer than what is kept, or repeats it, is kept (R296, R408). -/
def State.paceReaches (s : State) (p : Nat) : State :=
  match s.takeKind p kPace with
  | none => s
  | some (f, s) =>
    let reason := numAt f.payload 4 1
    let seq := numAt f.payload 6 2
    let newer := match s.relend.heard.find f.src with
      | none => true
      | some h => decide ((seq + 65536 - h.seq) % 65536 < 32768)
    if 4 < reason ∨ !newer then s
    else
      let new : PaceHeard := { khz := numAt f.payload 0 4, reason, seq, at_ := s.clock }
      { s with relend := { s.relend with heard := s.relend.heard.put f.src new } }

/-- PACE p (R408). -/
def execPace (p : Nat) (s : State) : Answer := answerIf (portOk p) (s.paceReaches p)

/-- PACE_TIMEOUT engine: 3 ms after its last PACE a member stops counting (R408). -/
def execPaceTimeout (engine : Nat) (s : State) : Answer :=
  answerIf (decide (engine < 4096)) (match s.relend.heard.find engine with
    | some h => s.advanceTo (h.at_ + 3000)
    | none => s)

/-- A MUSTER_RELEASE reaches a member (R259, R295, R409): the first of its round also moves a follower. -/
def State.releaseArrives (s : State) (p : Nat) : State :=
  match s.takeKind p kMusterRelease with
  | none => s
  | some (f, s) =>
    let m := numAt f.payload 0 1
    let parity := bitAt (numAt f.payload 1 1) 0
    let skew := numAt f.payload 4 4
    let slowest := numAt f.payload 2 2 % 4096
    let fresh := ((s.muster m).lastRelease.find (if parity then 1 else 0)).isNone
    let s := s.releaseReaches m parity (bitAt (numAt f.payload 1 1) 1) slowest skew
    if fresh && (s.muster m).isLinked then s.skewStep slowest skew else s

/-- MUSTER_RELEASE p (R259). -/
def execMusterRelease (p : Nat) (s : State) : Answer := answerIf (portOk p) (s.releaseArrives p).runWaiting

/-! ### The DVFS sequencer (R396, R397) -/

/-- Powered paddocks of a half. -/
def State.halfPaddocks (s : State) (east : Bool) : List Nat := (List.range 272).filter fun p => paddockEast p == east && s.paddockLive p

/-- The learned offset of a paddock at a point, within the register's range (R398). -/
def PaddockRegs.offsetAt (r : PaddockRegs) (p op : Nat) : Int := max (-20) (min 10 ((r.learned.find op).getD (Config.factoryAvs p op)))

/-- VTARGET_MV: VNOM_MV and an offset in steps of 2.5 mV, its half millivolt rounded either way (R350, R394, R395). -/
def railTarget (p op : Nat) (off : Int) : Nat := ((2 * (opVnom op : Int) + 5 * off + (Config.railRound p off % 2 : Nat)) / 2).toNat

/-- A point's VTARGET_MV is written to every powered paddock of a half, with its learned offset (R396, R398). -/
def State.writeTargets (s : State) (east : Bool) (op : Nat) : State :=
  (s.halfPaddocks east).foldl (fun (s : State) p =>
    s.mapPaddock p fun r => { r with vtarget := railTarget p op (r.offsetAt p op), avs := r.offsetAt p op, settled := false, targetAt := s.clock }) s

/-- A sequence starts from IDLE toward the half's target (R396). -/
def State.dvfsStart (s : State) (east : Bool) : State :=
  let h := s.dvfs east
  if h.target < h.op then (s.mapDvfs east fun h => { h with state := .vRaise, toward := h.target }).writeTargets east h.target
  else if h.op < h.target then s.mapDvfs east fun h => { h with state := .fRampDown, toward := h.target }
  else s.mapDvfs east fun h => { h with state := .idle }

/-- A new target reaches a sequencer (R397). -/
def State.dvfsTarget (s : State) (east : Bool) (op : Nat) : State :=
  let h := s.dvfs east
  let s := s.mapDvfs east fun h => { h with target := op }
  match h.state with
  | .idle => s.dvfsStart east
  | .vRaise =>
    if op < h.op then (s.mapDvfs east fun h => { h with toward := op }).writeTargets east op
    else if op = h.op then (s.mapDvfs east fun h => { h with state := .vLower, toward := op }).writeTargets east op
    else s.mapDvfs east fun h => { h with state := .fRampDown, toward := op }
  | .fRampUp =>
    if op ≤ h.toward then s
    else if opRoot op ≤ (s.roots east).cur s.clock then s.mapDvfs east fun h => { h with state := .fRampDown, toward := op }
    else s.mapDvfs east fun h => { h with toward := op }
  | .fRampDown | .vLower => if h.toward < op then s.mapDvfs east fun h => { h with state := .fRampDown, toward := op } else s

/-- Is a half where its sequencer writes, or has written, the root of the point it goes to (R396)? -/
def HalfPower.ramping (h : HalfPower) : Bool := h.state == .fRampUp || h.state == .fRampDown

/-- SLEWING is clear at the root of the point a half goes to: the sequencer goes on (R396). -/
def State.rampDone (s : State) (east : Bool) : State :=
  let h := s.dvfs east
  if (s.roots east).slewing ∨ (s.roots east).set ≠ opRoot h.toward then s
  else match h.state with
  | .fRampUp => (s.mapDvfs east fun h => { h with op := h.toward, state := .idle }).dvfsStart east
  | .fRampDown => (s.mapDvfs east fun h => { h with op := h.toward, state := .vLower }).writeTargets east h.toward
  | _ => s

/-- Does a thermal emergency hold a half (R407)? -/
def PowerState.emergency (w : PowerState) : Bool := w.westHotAt.isSome || w.eastHotAt.isSome

/-- The point that the controller wants reaches a half's sequencer (R397); where that leaves no ramp to make, the sequence goes on at once (R396). -/
def State.takeTarget (s : State) (east : Bool) : State :=
  if s.wish east = (s.dvfs east).target then s else (s.dvfsTarget east (s.wish east)).rampDone east

/-- DVFS_TARGET east op: the point that the controller wants reaches the half's sequencer, and in the same REFCLK cycle the other half's, except in a
thermal emergency (R375, R397, R408). -/
def execDvfsTarget (east : Bool) (op : Nat) (s : State) : Answer :=
  .next (if s.powered ∧ op = s.wish east then (if s.pwr.emergency then s.takeTarget east else (s.takeTarget east).takeTarget !east) else s)

/-- A set-point change that leaves the halves at different set points is recorded and counted (R375, R460). -/
def State.noteHalves (s : State) : State :=
  if s.clk.west.set = s.clk.east.set then s
  else
    let s := { s with clk := { s.clk with singleHalf := satAdd 0xFFFFFFFF s.clk.singleHalf 1 } }
    s.note recNote 1 0 noPlace (leBytes 2 s.clk.west.set ++ leBytes 2 s.clk.east.set ++ leBytes 1 (s.relend.paceReason.getD 1))

/-- A half that ramps to the point `mhz`, its root not yet set to it (R396). -/
def State.awaitsRoot (s : State) (east : Bool) (mhz : Nat) : Bool :=
  (s.dvfs east).ramping && decide (mhz = opRoot (s.dvfs east).toward ∧ mhz ≠ (s.roots east).set)

/-- Will the other half write the same set point, its target being the point that this one ramps to, but is not there yet (R375)? -/
def State.otherLater (s : State) (east : Bool) : Bool :=
  let o := s.dvfs (!east)
  !s.pwr.emergency && decide (o.target = (s.dvfs east).toward ∧ (s.roots (!east)).set ≠ opRoot (s.dvfs east).toward) &&
    !s.awaitsRoot (!east) (opRoot (s.dvfs east).toward)

/-- A sequencer writes the set point of the point it goes to; both halves write it in the same REFCLK cycle where both go there, the first waiting for
the other (R374, R375). -/
def State.writeRoot (s : State) (east : Bool) (mhz : Nat) : State :=
  if s.otherLater east then s
  else
    let both := !s.pwr.emergency && s.awaitsRoot (!east) mhz
    let s := s.rampTo east mhz
    (if both then s.rampTo (!east) mhz else s).noteHalves

/-- SET_POINT_WRITE east mhz: one out of range is refused with CONFIG_INVALID; a sequencer that ramps writes the root of the point it goes to, and goes on
where that root stands there already (R371, R374, R396). -/
def execSetPointWrite (east : Bool) (mhz : Nat) (s : State) : Answer :=
  .next (
    if !s.setOk mhz then { s with clk := { s.clk with setAnswer := Codes.configInvalid } }
    else if s.awaitsRoot east mhz then ({ s with clk := { s.clk with setAnswer := Codes.ok } } : State).writeRoot east mhz
    else s.rampDone east)

/-- A bank limit's step has been taken in both halves: each stands at or below its point, its ramp ended (R391). -/
def State.bankStepDone (s : State) : Bool :=
  [false, true].all fun e => decide (min 11 (s.part.highest + (s.dvfs e).bank) ≤ (s.dvfs e).op) && !(s.roots e).slewing

/-- A measure of a half is over: what it held the half at remains, for R404 to restore (R407). -/
def HalfPower.bankOver (h : HalfPower) : HalfPower := { h with hold := max h.hold h.bank, bank := 0 }

/-- The stretch for a bank limit ends when its step's ramp has ended and the averages are below 90 % of the limits (R391). -/
def State.bankEnds (s : State) : State :=
  if s.pwr.bankStretch && s.bankStepDone && s.pwr.bankLow then
    { s with pwr := { s.pwr with bankStretch := false, west := s.pwr.west.bankOver, east := s.pwr.east.bankOver } }
  else s

/-- A ramp reaches its set point: SLEWING clears and the sequencer goes on (R374, R391, R396). -/
def State.rampEnds (s : State) (east : Bool) : State :=
  let r := s.roots east
  if !r.slewing then s.rampDone east
  else
    let s := s.advanceTo r.rampOver
    ((s.mapRoots east fun r => { r.seen s.clock with from_ := r.set, slewing := false }).rampDone east).bankEnds

/-- RAMP_END east (R374). -/
def execRampEnd (east : Bool) (s : State) : Answer := .next (s.rampEnds east)

/-- Every powered paddock of a half is SETTLED: V_RAISE goes to F_RAMP_UP, V_LOWER to IDLE (R396). -/
def State.paddocksSettle (s : State) (east : Bool) : State :=
  let h := s.dvfs east
  let s := if h.state = .vRaise ∨ h.state = .vLower then (s.halfPaddocks east).foldl (fun (s : State) p => s.mapPaddock p fun r => { r with settled := true }) s else s
  match h.state with
  | .vRaise => s.mapDvfs east fun h => { h with state := .fRampUp }
  | .vLower => (s.mapDvfs east fun h => { h with state := .idle }).dvfsStart east
  | _ => s

/-- PADDOCKS_SETTLED east (R396). -/
def execPaddocksSettled (east : Bool) (s : State) : Answer := .next (s.paddocksSettle east)

/-! ### Steps down (R391, R401, R407) -/

/-- Points below the highest that lie `n` under the current point of a half (R391, R401, R407). -/
def State.below (s : State) (east : Bool) (n : Nat) : Nat := min 11 ((s.dvfs east).op + n) - s.part.highest

/-- The droop rule holds a half one point down, no lower than OP_FLOOR (R395, R401). -/
def State.holdToFloor (s : State) (east : Bool) : State :=
  s.mapDvfs east fun h => { h with hold := max h.hold (min s.pwr.opFloor (h.op + 1) - s.part.highest) }

/-- Has a bank's 20 µs average, in tenths of an ampere, reached 95 % of its limit (R391)? -/
def State.bankAt95 (s : State) (west east : Nat) : Bool := decide (950 * s.pwr.westLimit ≤ 100 * west ∨ 950 * s.pwr.eastLimit ≤ 100 * east)

/-- A bank limit starts a step of both halves down by one point from the current one, ending a raise in hand (R391, R411). -/
def State.bankSteps (s : State) : State :=
  let s := { s with
    pwr := { s.pwr with bankStretch := true }
    clk := { s.clk with slowed := List.range fieldCount } }
  ((s.mapDvfs false fun h => { h with bank := s.below false 1 }).mapDvfs true fun h => { h with bank := s.below true 1 }).paceChange 4

/-- BANK_CURRENT_SAMPLE: 20 µs averages in tenths of an ampere against 95 % and 90 % of the limits (R391). -/
def State.bankSample (s : State) (west east : Nat) : State :=
  let low := decide (100 * west < 900 * s.pwr.westLimit ∧ 100 * east < 900 * s.pwr.eastLimit)
  let s := { s with pwr := { s.pwr with bankLow := low } }
  if s.bankAt95 west east ∧ (!s.pwr.bankStretch || s.bankStepDone) then s.bankSteps else s.bankEnds

/-- BANK_CURRENT_SAMPLE (R391), from the start of S3 on (R345); a limit that trips in S3 fails the start (R348). -/
def execBankCurrentSample (westAvgDa eastAvgDa : Nat) (s : State) : Answer :=
  .next (if !s.powered then s
    else if s.boot.stage = some 3 then (if s.bankAt95 westAvgDa eastAvgDa then s.stageFails 3 Codes.inputLoss s.stageMs (s.stageDetail 3) else s)
    else s.bankSample westAvgDa eastAvgDa)

/-! ### Adaptive voltage and droop (R398–R401) -/

/-- One paddock's offset moves by its slack (R398). -/
def State.avsStep (s : State) (p : Nat) (slack : Slack) : State :=
  let east := paddockEast p
  let h := s.dvfs east
  let r := s.paddockRegs p
  if !s.paddockLive p ∨ h.state ≠ .idle then s
  else
    let set := fun (v : Int) => s.mapPaddock p fun r => { r with avs := v, vtarget := railTarget p h.op v, learned := r.learned.put h.op v }
    match slack with
    | .inside => s
    | .above => set (max (-20) (r.avs - 1))
    | .below => if 10 ≤ r.avs then s.hubNote (p / 4) recEvent Codes.droop 0 noPlace (leBytes 2 p) else set (r.avs + 1)

/-- AVS_LOOP (R398). -/
def execAvsLoop (slacks : List (Nat × Slack)) (s : State) : Answer :=
  answerIf (slacks.all fun e => e.1 < 272) (slacks.foldl (fun (s : State) e => s.avsStep e.1 e.2) s)

/-- The droop threshold of a paddock in quarters of a millivolt: VTARGET_MV, which holds the AVS offset, less DROOP_MARGIN (R394, R395, R399). -/
def PaddockRegs.threshold (r : PaddockRegs) : Nat := 4 * r.vtarget - 10 * r.margin

/-- A paddock's rail as its hub samples it, in quarters of a millivolt (R394). -/
def State.railAt (s : State) (p quarterMv : Nat) : State := s.mapPaddock p fun r => { r with vout := quarterMv / 4 % 4096 }

/-- Too many stretches of a paddock in a millisecond lower both halves by one point (R401). -/
def State.droopRate (s : State) (p : Nat) : State :=
  if (s.paddockRegs p).recent.length < s.pwr.droopLimit then s
  else
    let s := (s.mapPaddock p fun r => { r with recent := [] }).note recEvent Codes.droop 0 noPlace (leBytes 2 p)
    ((s.holdToFloor false).holdToFloor true).paceChange 2

/-- A droop of a paddock's rail: the field stretches, and the stretch counts (R399). -/
def State.droops (s : State) (p : Nat) : State :=
  let f := p / 4
  if !s.paddockLive p || (s.paddockRegs p).stretching then s
  else
    let s := s.mapPaddock p fun r => { r with
      stretching := true, stretches := satAdd 0xFFFFFFFF r.stretches 1
      recent := (r.recent.filter fun t => decide (s.clock < t + 1000)) ++ [s.clock] }
    ({ s with
      pwr := { s.pwr with stretched := addOnce s.pwr.stretched f }
      clk := { s.clk with slowed := addOnce s.clk.slowed f } } : State).droopRate p

/-- A rail's sample: below the threshold it droops (R399). -/
def State.railSample (s : State) (x : RailSample) : State :=
  if !s.paddockLive x.paddock then s
  else if x.quarterMv < (s.paddockRegs x.paddock).threshold then (s.railAt x.paddock x.quarterMv).droops x.paddock
  else s.railAt x.paddock x.quarterMv

/-- DROOP_DETECT rail (R399). -/
def execDroopDetect (x : RailSample) (s : State) : Answer := answerIf (decide (x.paddock < 272)) (s.railSample x)

/-- Have 32 stretched cycles passed, and is every powered paddock of the field back at least 10 mV above its threshold (R399)? -/
def State.recovered (s : State) (x : FieldRails) : Bool :=
  decide (32 ≤ x.cycles) && (List.range 4).all fun q =>
    !s.paddockLive (4 * x.field + q) || decide ((s.paddockRegs (4 * x.field + q)).threshold + 40 ≤ x.rails.getD q 0)

/-- A field's clocks are stretched no longer. -/
def State.unstretch (s : State) (f : Nat) : State :=
  let s := (List.range 4).foldl (fun (s : State) q => s.mapPaddock (4 * f + q) fun r => { r with stretching := false }) s
  { s with pwr := { s.pwr with stretched := s.pwr.stretched.filter fun g => g != f } }

/-- The rails of a stretched field's paddocks are sampled, and its stretch ends where they have recovered (R399). -/
def State.stretchEnds (s : State) (x : FieldRails) : State :=
  let t := (List.range 4).foldl (fun (s : State) q =>
    if s.paddockLive (4 * x.field + q) then s.railAt (4 * x.field + q) (x.rails.getD q 0) else s) s
  if s.recovered x then t.unstretch x.field else t

/-- STRETCH_END rails (R399). -/
def execStretchEnd (x : FieldRails) (s : State) : Answer := answerIf (decide (x.field < fieldCount)) (s.stretchEnds x)

/-- DROOP_MARGIN for a noise in quarters of a millivolt: 10 mV more, up to a step of 2.5 mV, within 20–60 mV (R400). -/
def marginFor (noise : Nat) : Nat := max 8 (min 24 ((noise + 40 + 9) / 10))

/-- DROOP_MARGIN_LOOP (R400). -/
def execDroopMarginLoop (noiseQuarterMv : List (Nat × Nat)) (s : State) : Answer :=
  answerIf (noiseQuarterMv.all fun e => e.1 < 272) (noiseQuarterMv.foldl (fun (s : State) e =>
    if s.paddockLive e.1 then s.mapPaddock e.1 fun r => { r with margin := marginFor e.2 } else s) s)

/-! ### The estimate (R402, R403) -/

/-- COEFF_FACTORY, LEAK_FACTORY and FIXED_W (R410). -/
def coeffFactory (k : Nat) : Nat := Config.factoryNat 0x4010 k 0
def leakFactory (p : Nat) : Nat := Config.factoryNat 0x4012 1 p
def fixedW : Nat := Config.factoryNat 0x4014 1 0

/-- 2^(32 + k / 20) for k from 0 to 19, rounded down. -/
def twentieths : List Nat :=
  [4294967296, 4446428990, 4603231970, 4765564595, 4933621867, 5107605667, 5287724991, 5474196211, 5667243323, 5867098227, 6074000999,
   6288200182, 6509953083, 6739526082, 6977194956, 7223245205, 7477972397, 7741682524, 8014692369, 8297329885]

/-- The leakage factor 2^((TJ − 85 °C) / 20 K) as a fraction, its mantissa exact to 32 bits (R402; log entry 64). -/
def leakGrowth (tjC : Int) : Nat × Nat :=
  let n := tjC - 85
  (twentieths.getD (n % 20).toNat 0 * 2 ^ (n / 20).toNat, 2 ^ (32 + (-(n / 20)).toNat))

/-- The estimate of a paddock in milliwatts as a fraction: dynamic and leakage terms (R402). -/
def PowerState.estimateOf (w : PowerState) (a : PaddockActivity) : Int × Nat :=
  let coeffs := (List.range 10).map fun k => (coeffFactory (k + 1) : Int) + (w.coeffTrim.find (k + 1)).getD 0
  let dyn : Int := ((a.counts.zip coeffs).map fun e => (e.1 : Int) * e.2).sum
  let g := leakGrowth a.tjC
  let leak : Int := ((leakFactory a.paddock : Int) + (w.leakTrim.find a.paddock).getD 0) * (g.1 : Int)
  let v : Int := a.railMv
  -- dyn v² / (640000 · 10⁷) + leak v³ / (g.2 · 512000000)
  (dyn * v ^ 2 * (g.2 * 512000000 : Nat) + leak * v ^ 3 * (640000 * 10000000), 640000 * 10000000 * g.2 * 512000000)

/-- A paddock's estimate, its last unit rounded one way or the other, with the rail, the current and the temperature that its hub has sampled (R394,
R402). -/
def State.estimate (s : State) (a : PaddockActivity) : State :=
  if !s.paddockLive a.paddock then s.mapPaddock a.paddock fun r => { r with estimate := 0 }
  else
    let (num, den) := s.pwr.estimateOf a
    let up := (Config.freeWord s.freeIdx).getLsbD 0
    let mw := (num / den).toNat + (if up then 1 else 0)
    { (s.mapPaddock a.paddock fun r => { r with
        estimate := mw, vout := a.railMv % 4096, iout := a.currentDa % 4096, tj := min 255 a.tjC.toNat }) with freeIdx := s.freeIdx + 1 }

/-- Input power in milliwatts: the paddocks' estimates and FIXED_W over the efficiency at that load (R402). -/
def State.inputMw (s : State) : Nat :=
  let load := (s.pwr.paddocks.map fun e => e.2.estimate).sum + 1000 * fixedW
  load * 65536 / Config.efficiency load

/-- A sample is kept while a reading may still need it: 1 s of interval that ended 10 ms before its READING (R403, R417). -/
def keptSample (now : Nat) (e : Nat × Nat) : Bool := decide (now < e.1 + 1100000)

/-- A sample of the input power over 10 µs, which ends now, is added (R402). -/
def State.addSample (s : State) : State :=
  let nj := 10 * s.inputMw
  { s with pwr := { s.pwr with
      accruing := s.pwr.accruing + nj, sampledAt := s.clock, samples := (s.clock, nj) :: s.pwr.samples.filter (keptSample s.clock) } }

/-- POWER_ESTIMATE: a sample of 10 µs (R402). -/
def execPowerEstimate (acts : List PaddockActivity) (s : State) : Answer :=
  answerIf (acts.all fun a => a.paddock < 272) (acts.foldl (fun (s : State) a => s.estimate a) (s.advanceTo (s.pwr.sampledAt + 10))).addSample

/-- The engine's own unscaled input energy over an interval of microseconds: of the samples that end in it (R403, R417). -/
def PowerState.energyOver (w : PowerState) (from_ to_ : Nat) : Nat :=
  ((w.samples.filter fun e => decide (from_ < e.1 ∧ e.1 ≤ to_)).map (·.2)).sum

/-- SCALE × E_meter / E_est in units of 1/65,536, before its clamp (R403). -/
def scaleRatio (scale meterNj estNj : Nat) : Nat := scale * meterNj / estNj

/-- A reading's energy over its interval of so many REFCLK cycles, which ended 1,562,500 cycles before its start delimiter arrived, scales the estimate; a
clamped result is recorded (R403, R417, R460). -/
def State.meterEnergy (s : State) (meterNj cycles : Nat) : State :=
  let est := s.pwr.energyOver (s.clock - 10000 - 4 * cycles / 625) (s.clock - 10000)
  if est = 0 then s
  else
    let raw := scaleRatio s.pwr.scale meterNj est
    let lo := 62260
    let hi := 68812
    let v := min (max raw lo) hi
    let s := { s with pwr := { s.pwr with scale := v } }
    if raw < lo ∨ hi < raw then s.note recNote 2 0 noPlace (leBytes 4 (min raw 0xFFFFFFFF)) else s

/-! ### The averaged cap (R404–R406) -/

/-- The priority order of the classes: 0 compute, 1 memory, 2 links (R405). -/
def priorityOrder (p : Nat) : List Nat :=
  match p with
  | 0 => [2, 1, 0]
  | 1 => [2, 0, 1]
  | 2 => [1, 2, 0]
  | 3 => [1, 0, 2]
  | 4 => [0, 2, 1]
  | _ => [0, 1, 2]

/-- Is a knob above its floor (R404)? -/
def PowerState.canLower (w : PowerState) (k : Nat) : Bool :=
  match k with
  | 0 => decide (w.own < w.opFloor)
  | 1 => decide (2 < w.memDuty)
  | _ => decide (2 < w.linkDuty)

/-- Do thermal measures hold a half (R407)? -/
def PowerState.hot (w : PowerState) : Bool := w.throttling || w.westHotAt.isSome || w.eastHotAt.isSome || w.bankStretch

/-- Is a knob below its ceiling? -/
def State.canRaise (s : State) (k : Nat) : Bool :=
  match k with
  | 0 => decide (s.part.highest < s.pwr.own) || (!s.pwr.hot && decide (0 < s.pwr.west.hold ∨ 0 < s.pwr.east.hold))
  | 1 => decide (s.pwr.memDuty < 16)
  | _ => decide (s.pwr.linkDuty < 16)

/-- One step down of a knob. -/
def State.lower (s : State) (k : Nat) : State :=
  match k with
  | 0 => ({ s with pwr := { s.pwr with own := s.pwr.own + 1 } } : State).paceChange 0
  | 1 => { s with pwr := { s.pwr with memDuty := s.pwr.memDuty - 1 } }
  | _ => { s with pwr := { s.pwr with linkDuty := s.pwr.linkDuty - 1 } }

/-- One step up of a knob: of compute, for the own choice and for what thermal, bank and droop measures still hold (R404, R407). -/
def State.raise (s : State) (k : Nat) : State :=
  match k with
  | 0 =>
    let ease := fun (h : HalfPower) => if s.pwr.hot then h else { h with hold := h.hold - 1 }
    ({ s with pwr := { s.pwr with
        own := if s.part.highest < s.pwr.own then s.pwr.own - 1 else s.pwr.own
        west := ease s.pwr.west, east := ease s.pwr.east } } : State).paceChange (s.relend.paceReason.getD 0)
  | 1 => { s with pwr := { s.pwr with memDuty := s.pwr.memDuty + 1 } }
  | _ => { s with pwr := { s.pwr with linkDuty := s.pwr.linkDuty + 1 } }

/-- Position of a knob, for its gain (R404). -/
def PowerState.knobAt (w : PowerState) (k : Nat) : Nat := match k with | 0 => w.own | 1 => w.memDuty | _ => w.linkDuty

/-- One decision of the cap controller, energies in nanojoules (R404, R406). -/
def State.capDecide (s : State) : State :=
  let w := s.pwr
  let p := w.accruing * w.scale / 65536
  let n := 1000 * w.windowS
  let prev := (w.energy.take (n - 1)).sum
  let capMs := w.capW * 1000000
  let allow : Int := min ((capMs * n : Nat) - (prev : Int)) (11 * (capMs / 10) : Nat)
  let s := { s with pwr := { s.pwr with accruing := 0, energy := (p :: w.energy).take 60000, sinceDown := w.sinceDown + 1 } }
  let order := priorityOrder w.priority
  if allow < p then
    match order.reverse.find? w.canLower with
    | some k => ({ s with pwr := { s.pwr with sinceDown := 0 } } : State).lower k
    | none =>
      let above := decide (capMs * n < p + prev)
      let due := match w.exceededAt with | some t => decide (t + 1000000 * w.windowS ≤ s.clock) | none => true
      if above && due then ({ s with pwr := { s.pwr with exceededAt := some s.clock } } : State).note recEvent Codes.capExceeded 0 noPlace []
      else s
  else match order.find? s.canRaise with
    | some k =>
      let need : Int := p * Config.knobGain k (w.knobAt k) / 65536
      if w.raiseHold ≤ s.pwr.sinceDown ∧ need ≤ min allow capMs then s.raise k else s
    | none => s

/-- CAP_DECISION (R404), from the start of S3 on (R345). -/
def execCapDecision (s : State) : Answer := .next (if s.powered then s.capDecide else s)

/-! ### Temperature (R407) -/

/-- A hub's ring goes to the module log in the hold-up, or waits for its thaw (R390, R466). -/
def State.flushOrWait (s : State) (f : Nat) : State :=
  if s.logFrozen then s.mapHub f fun h => { h with ring := { h.ring with due := true } } else s.flushRing f

/-- Every hub's ring does (R390). -/
def State.flushAll (s : State) : State := (List.range fieldCount).foldl State.flushOrWait s

/-- OVERTEMP: every region at its boundary, every paddock off, the rings flushed, the bypasses closed; the engine waits for a RESTART (R390, R407). -/
def State.overheats (s : State) : State :=
  let s := s.note recFault Codes.overtemp 0 noPlace []
  let s := s.forceAll (fun _ => true) Codes.overtemp
  let s := (List.range 272).foldl (fun (s : State) p =>
    if s.paddockLive p then
      ({ (s.mapPaddock p PaddockRegs.off) with defects := { s.defects with paddocks := s.defects.paddocks.put p .off } } : State).mapChanged
    else s) s
  let s := { s with
    cells := s.cells.mapVals .reset fun _ x => { x with seq := { x.seq with stopped := true } }
    pwr := { s.pwr with overtemp := true } }
  ((List.range 8).foldl (fun (s : State) p => s.mapPort p fun x => x.drop .bypassed) s.flushAll).runWaiting

/-- The points of a measure that steps again: `n` below what it asks for, and at first below the current point (R407). -/
def State.further (s : State) (east : Bool) (points n : Nat) : Nat := if points = 0 then s.below east n else min (11 - s.part.highest) (points + n)

/-- The throttle lowers both halves by one point (R407). -/
def State.throttles (s : State) : State :=
  let s := { s with pwr := { s.pwr with throttling := true, throttleAt := some s.clock } }
  ((s.mapDvfs false fun h => { h with throttle := s.further false h.throttle 1 }).mapDvfs true fun h =>
    { h with throttle := s.further true h.throttle 1 }).paceChange 1

/-- The throttle is over: what it held remains, for R404 to restore (R407). -/
def State.unthrottle (s : State) : State :=
  let ended := fun (h : HalfPower) => { h with hold := max h.hold h.throttle, throttle := 0 }
  { s with pwr := { s.pwr with throttling := false, throttleAt := none, west := ended s.pwr.west, east := ended s.pwr.east } }

/-- The microsecond of a half's last emergency step. -/
def PowerState.hotAt (w : PowerState) (east : Bool) : Option Nat := if east then w.eastHotAt else w.westHotAt

/-- Set it. -/
def PowerState.setHotAt (w : PowerState) (east : Bool) (v : Option Nat) : PowerState :=
  if east then { w with eastHotAt := v } else { w with westHotAt := v }

/-- A thermal emergency lowers the hot half by two points (R407). -/
def State.emergencySteps (s : State) (east : Bool) : State :=
  (({ s with pwr := s.pwr.setHotAt east (some s.clock) } : State).mapDvfs east fun h => { h with hot := s.further east h.hot 2 }).paceChange 1

/-- One half's emergency begins, goes on or ends (R407). -/
def State.emergency (s : State) (east hot : Bool) : State :=
  match s.pwr.hotAt east, hot with
  | none, true => s.emergencySteps east
  | some _, false => ({ s with pwr := s.pwr.setHotAt east none } : State).mapDvfs east fun h => { h with hold := max h.hold h.hot, hot := 0 }
  | _, _ => s

/-- A paddock whose junction, as last read, passes a test. -/
def PowerState.junction (w : PowerState) (test : Nat → Nat → Bool) : Bool := w.paddocks.any fun e => test e.1 e.2.tj

/-- Does every sensor read below 70 °C, the coolant's in tenths of a kelvin (R407)? -/
def PowerState.allCool (w : PowerState) (west east : Coolant) : Bool :=
  (w.paddocks.all fun e => decide (e.2.tj < 70 ∧ e.2.tloft < 70)) && [west, east].all fun c => decide (c.inlet < 700 ∧ c.outlet < 700)

/-- Is any junction at 115 °C or any loft sensor at 105 °C (R407)? -/
def PowerState.tooHot (w : PowerState) : Bool := w.paddocks.any fun e => decide (115 ≤ e.2.tj ∨ 105 ≤ e.2.tloft)

/-- Is a half in a thermal emergency: a junction at 105 °C, or a coolant rise of 25 K (R407)? -/
def PowerState.halfHot (w : PowerState) (east : Bool) (c : Coolant) : Bool :=
  (w.junction fun p t => paddockEast p == east && decide (105 ≤ t)) || decide (c.inlet + 250 ≤ c.outlet)

/-- The sensors read in a scan; one not named keeps its last reading (R394, R407). -/
def State.sense (s : State) (temps : List PaddockTemp) : State :=
  temps.foldl (fun (s : State) t => s.mapPaddock t.paddock fun r => { r with tj := min 255 t.junction, tloft := min 255 t.loft }) s

/-- The measures that a scan starts and ends (R407). -/
def State.measured (s : State) (west east : Coolant) : State :=
  let s := (s.emergency false (s.pwr.halfHot false west)).emergency true (s.pwr.halfHot true east)
  if (s.pwr.junction fun _ t => decide (s.pwr.tThrottle ≤ t)) && !s.pwr.throttling then s.throttles
  else if s.pwr.throttling && !s.pwr.junction fun _ t => decide (s.pwr.tThrottle < t + 3) then s.unthrottle
  else s

/-- A scan of every sensor (R394, R407). -/
def State.scan (s : State) (temps : List PaddockTemp) (west east : Coolant) : State :=
  let s := s.sense temps
  let s := { s with pwr := { s.pwr with cool := s.pwr.allCool west east, overScans := if s.pwr.tooHot then s.pwr.overScans + 1 else 0 } }
  if s.pwr.overtemp then s else if 2 ≤ s.pwr.overScans then s.overheats else s.measured west east

/-- TEMPERATURE_SCAN (R407), in service and in bring-up alike (R411). -/
def execTemperatureScan (temps : List PaddockTemp) (west east : Coolant) (s : State) : Answer :=
  answerIf (temps.all fun t => t.paddock < 272) (s.scan temps west east)

/-- Thermal measures in force: 0 throttle, 1 West and 2 East emergency, with the microsecond of their last step. -/
def PowerState.measures (w : PowerState) : List (Nat × Nat) :=
  (w.throttleAt.map fun t => (0, t)).toList ++ (w.westHotAt.map fun t => (1, t)).toList ++ (w.eastHotAt.map fun t => (2, t)).toList

/-- A measure steps again: one point for both halves, or two for the hot half. -/
def State.measureStep (s : State) (m : Nat) : State :=
  match m with
  | 0 => s.throttles
  | 1 => s.emergencySteps false
  | _ => s.emergencySteps true

/-- 10 ms after its last step, a thermal measure in force steps again (R407). -/
def State.thermalSteps (s : State) : State :=
  match s.pwr.measures with
  | [] => s
  | m :: rest =>
    let due := rest.foldl (fun d e => min d e.2) m.2 + 10000
    let s := s.advanceTo due
    (s.pwr.measures.filter fun e => decide (e.2 + 10000 ≤ s.clock)).foldl (fun (s : State) e => s.measureStep e.1) s

/-- THERMAL_STEP (R407). -/
def execThermalStep (s : State) : Answer := .next s.thermalSteps

end Sys2Proof.Machine
end

