-- ==== Sys2Proof/Machine/Meter.lean ====
section
/-!
DEFINITION. The sealed meter as the engine sees it (R403, R415–R425): its frames, what they are used for, and METER_SEAL.
-/
namespace Sys2Proof.Machine

/-- A METER_SEAL cause is recorded once per power session (R423, R460). -/
def State.meterSeal (s : State) (cause received : Nat) : State :=
  if cause ∈ s.meter.causes then s
  else
    ({ s with meter := { s.meter with causes := s.meter.causes ++ [cause] } } : State).note recEvent Codes.meterSeal 0 noPlace
      (leBytes 1 cause ++ leBytes 8 s.flash.meterSerial ++ leBytes 8 received)

/-- METER_STATE while frames arrive: a broken seal for the life of the board, a failed self-check for the session (R419, R420, R424). -/
def State.meterShows (s : State) : Nat := if s.board.sealBroken ∨ 1 ∈ s.meter.causes then 1 else if 2 ∈ s.meter.causes then 2 else 0

/-- The board whose frames arrive, by its serial number: another board starts from its own registers and seal (R418, R425). -/
def MeterBoard.of (b : MeterBoard) (serial : Nat) : MeterBoard := if serial = b.serial then b else { MeterBoard.reset with serial }

/-- The cumulative registers as a READING tells them at the end of its interval: they never decrease (R418). -/
def MeterBoard.saves (b : MeterBoard) (west east : Nat) : MeterBoard :=
  let west := max b.toldWest west
  let east := max b.toldEast east
  { b with west, east, toldWest := west, toldEast := east }

/-- The registers save energy that no READING has told yet, of an interval whose frame was lost or of one that input loss cut short (R418). -/
def MeterBoard.saveUnread (b : MeterBoard) (west east : Nat) : MeterBoard := { b with west := b.west + west, east := b.east + east }

/-- That energy is measured and not told: 32 free bits for each bank, as wide as a READING gives it (R416; log entry 157). -/
def State.saveUnread (s : State) : State :=
  let free := fun (k : Nat) => (Config.freeWord (s.freeIdx + k)).toNat % 2 ^ 32
  { s with board := s.board.saveUnread (free 0) (free 1), freeIdx := s.freeIdx + 2 }

/-- FLAGS of a STATUS or READING: SEAL_BROKEN and SELF_CHECK_FAIL are causes (R423). -/
def State.meterFlags (s : State) (b : List Byte) : State :=
  let flags := numAt b 1 1
  let s := if bitAt flags 0 then ({ s with board := { s.board with sealBroken := true } } : State).meterSeal 1 s.meter.serial else s
  if bitAt flags 1 then s.meterSeal 2 s.meter.serial else s

/-- A valid frame has arrived now. -/
def State.meterHeard (s : State) : State := { s with meter := { s.meter with lastAt := s.clock, state := s.meterShows } }

/-- Does a frame end with the CRC-32C of what stands before it (R415)? -/
def frameSound (b : List Byte) : Bool := decide (4 ≤ b.length) && crc32c (b.take (b.length - 4)) == numAt b (b.length - 4) 4

/-- A frame of a kind and length: one whose CRC fails is discarded and counted whatever it is, and its interval's energy stays in the meter's registers
(R415, R416, R418). -/
def State.meterFrame (s : State) (kind len : Nat) (b : List Byte) (act : State → State) : State :=
  if !s.boot.refclk then s
  else if !frameSound b then
    ({ s with meter := { s.meter with frameErrors := satAdd 0xFFFFFFFF s.meter.frameErrors 1 } } : State).saveUnread
  else if b.length ≠ len ∨ numAt b 0 1 ≠ kind then s
  else (act s).meterHeard

/-- A STATUS: serial, version, digest (R416, R423). -/
def State.meterStatus (s : State) (b : List Byte) : State :=
  let serial := numAt b 8 8
  let s := { s with meter := { s.meter with serial, version := numAt b 16 4, digest := sliceOf b 20 32, gotStatus := true }, board := s.board.of serial }
  (if serial = s.flash.meterSerial then s else s.meterSeal 5 serial).meterFlags b

/-- METER_STATUS_FRAME bytes (R416). -/
def execMeterStatusFrame (bytes : List Byte) (s : State) : Answer := .next (s.meterFrame 1 64 bytes fun s => s.meterStatus bytes)

/-- Did a reading's number skip (R424)? -/
def MeterState.skips (m : MeterState) (seq : Nat) : Bool := m.gotReading && decide (numAt m.reading 4 4 + 1 < seq)

/-- Does a bank stay within its ratings by its mean voltage, in units of 10 mV, and mean current, in mA, its current at least I_min and at most I_max? Where
it does not, the meter has set OVERRANGE (R413; log entry 158). -/
def bankRated (volts milliamps : Nat) : Bool := decide (4400 ≤ volts ∧ volts ≤ 6000 ∧ 3200 ≤ milliamps ∧ milliamps ≤ 400000)

/-- Does nothing stand against a reading: no flag, in this frame or latched by the board or for the session, and both banks within their ratings
(R413, R419, R420, R422)? -/
def State.usable (s : State) (b : List Byte) : Bool :=
  decide (numAt b 1 1 % 16 = 0) && !s.board.sealBroken && !decide (2 ∈ s.meter.causes) && bankRated (numAt b 28 2) (numAt b 32 4) &&
    bankRated (numAt b 30 2) (numAt b 36 4)

/-- A READING: presented, and used for SCALE where no flag stands against it (R403, R421, R422). -/
def State.meterReading (s : State) (b : List Byte) : State :=
  let seq := numAt b 4 4
  let gaps := if s.meter.skips seq then satAdd 0xFFFFFFFF s.meter.seqGaps 1 else s.meter.seqGaps
  let meter : MeterState :=
    { s.meter with seqGaps := gaps, reading := b, gotReading := true, candidates := if seq % 900 = 0 then [b] else s.meter.candidates }
  let s := { s with meter, board := s.board.saves (numAt b 40 8) (numAt b 48 8) }
  let s := s.meterFlags b
  if s.usable b then s.meterEnergy ((numAt b 20 4 + numAt b 24 4) * 1000000) (numAt b 16 4) else s

/-- READING bytes (R403, R416). -/
def execReading (bytes : List Byte) (s : State) : Answer := .next (s.meterFrame 2 64 bytes fun s => s.meterReading bytes)

/-- A SIGNATURE: verified under the key of the last KEY frame over the READING it names (R416, R423). -/
def State.meterSignature (s : State) (b : List Byte) : State :=
  let sig := sliceOf b 8 2420
  match s.meter.candidates.find? fun r => numAt r 4 4 == numAt b 4 4 with
  | none => s
  | some r =>
    if mldsaVerify s.meter.key (sha3 r) sig then { s with meter := { s.meter with signed := r ++ sig } }
    else s.meterSeal 4 s.meter.serial

/-- SIGNATURE bytes (R416). -/
def execSignature (bytes : List Byte) (s : State) : Answer := .next (s.meterFrame 3 2432 bytes fun s => s.meterSignature bytes)

/-- KEY bytes (R416). -/
def execKey (bytes : List Byte) (s : State) : Answer :=
  .next (s.meterFrame 4 1328 bytes fun s => { s with meter := { s.meter with key := sliceOf bytes 8 1312 } })

/-- METER_SILENCE: 3 s without a valid frame (R403, R423). -/
def execMeterSilence (s : State) : Answer :=
  .next (if !s.boot.refclk then s
    else
      let s := s.advanceTo (s.meter.lastAt + 3000000)
      ({ s with meter := { s.meter with state := 3 } } : State).meterSeal 3 s.meter.serial)

end Sys2Proof.Machine
end

