-- ==== Sys2Proof/Machine/Boot.lean ====
section
/-!
DEFINITION. Bring-up (R342–R367): how a power session and a cold bring-up begin and end, the stages, failed starts and minimal mode.
-/
namespace Sys2Proof.Machine

/-! ### Sessions and cold bring-ups (R339, R342, R343, R369, R390) -/

/-- Flash as a session that ends leaves it: an image being rewritten is left broken (R366). -/
def State.flashLeft (s : State) : FlashState := if s.boot.writing.isSome then { s.flash with image := [] } else s.flash

/-- The engine with every register at its reset value, its flash, defect history and fuses as they are. -/
def State.blank (s : State) : State := State.fresh s.part s.flashLeft s.board s.defects.history s.clock s.freeIdx s.pending

/-- The power session ends; `powered` says whether the banks are still applied. -/
def State.sessionOver (s : State) (powered refLost : Bool) : State :=
  { s.blank with boot := { BootState.reset with powered, refLost } }

/-- A cell's state when a cold bring-up begins in a power session: reset, but for the line of its last PARITY_SPAD (R127). -/
def Cell.again (c : Cell) : Cell := { Cell.reset with fault := { FaultState.reset with parityLine := c.fault.parityLine } }

/-- What a cold bring-up in a session keeps: the recorder, the rings, the meter's side of the line, the module in the cage, and the line that each cell
remembers of its last PARITY_SPAD (R127); settings, tables and counters return to their defaults (R339, R440, R442). -/
def State.again (s : State) : State :=
  let t := s.blank
  { t with
    cells := s.cells.mapVals .reset fun _ c => c.again
    recd := s.recd
    hubs := s.hubs.mapVals .zero fun _ h => { Hub.zero with ring := h.ring, holding := h.holding, held := h.held }
    meter := { s.meter with frameErrors := 0, seqGaps := 0 }
    odp := { t.odp with reportSeq := s.odp.reportSeq, tally := s.odp.tally }
    eth := { t.eth with up := s.eth.up, module_ := s.eth.module_ }
    clk := { t.clk with refPresent := true, gateAt := s.clock }
    boot := { BootState.reset with powered := true, refclk := true } }

/-- Transfers of cell firmware that a hub runs at S7: T, M and F (R357). -/
def State.firmwareTransfers (s : State) (f : Nat) : List Transfer :=
  let body := (Envelope.of (s.boot.running.getD [])).body
  [(3, CellKind.t), (4, CellKind.m), (5, CellKind.f)].map fun e =>
    let members := (fieldCells f).filter fun c => c.kind == e.2 && !s.cellOut c
    Transfer.fresh (.firmware e.2) (match (components body).find? fun c => c.type == e.1 with | some c => c.bytes body | none => []) (members.map Coord.key)

/-- S8 leaves its wait: from now on ENGINE_ID stands (R270, R354). -/
def State.s8Leaves (s : State) : State :=
  { s with
    boot := { s.boot with s8Left := some s.clock, stageAt := s.clock }
    relend := { s.relend with idLocked := true } }

/-- Stage n begins: its RESULT is RUNNING (R342, R346). S3 lists the paddocks of each half (R350), S7 fills the hubs' staging stores (R357), S8 waits
for ENGINE_ID (R354). -/
def State.stageBegins (s : State) (n : Nat) : State :=
  let s := { s with boot := { s.boot with
    reports := s.boot.reports.put n (reportWord resultRunning 0 0 0), stage := some n, state := n, stageAt := s.clock, losses := s.lossCount } }
  match n with
  | 3 =>
    let todo := fun (east : Bool) => (List.range 272).filter fun p => paddockEast p == east && s.defects.paddocks.find p != some .offHub
    { s with boot := { s.boot with first := (todo false, todo true), second := ([], []) } }
  | 7 => ((List.range fieldCount).filter s.hubAlive).foldl (fun (s : State) f =>
      let new := s.firmwareTransfers f
      s.mapHub f fun h => { h with transfers := new, rounds := 0 }) s
  | 8 => if s.relend.idWritten then s.s8Leaves else s
  | _ => s

/-- Has the stage in hand lost a unit (R346, R348)? -/
def State.stageLost (s : State) : Bool := decide (s.boot.losses < s.lossCount)

/-- Stage n ends without a failure, DEGRADED where it lost anything; the next begins (R342, R346). -/
def State.stageEnds (s : State) (n : Nat) (degraded : Bool) (elapsed detail : Nat) : State :=
  (s.stageReports n (if degraded || s.stageLost then resultDegraded else resultPassed) 0 elapsed detail).stageBegins (n + 1)

/-- Stage n comes to its end after so many milliseconds; past its limit it reports FAILED with STAGE_TIMEOUT instead (R348). -/
def State.stageCome (s : State) (n elapsed : Nat) (act : State → State) (late : State → Nat := fun s => s.stageDetail n) : State :=
  if !s.stageRuns n then s
  else match stageLimit n with
    | some limit =>
      if limit < elapsed then (s.advanceTo (s.boot.stageAt + 1000 * limit)).stageFails n Codes.stageTimeout limit (late s)
      else act (s.advanceTo (s.boot.stageAt + 1000 * elapsed))
    | none => s

/-- Records of the module log's newest erase block whose CRC fails (R465; log entry 159). -/
def FlashState.badRecords (f : FlashState) : Nat :=
  ((f.log.drop ((f.log.length - 1) / 2048 * 2048)).filter fun r => r.torn.isSome).length

/-- The scan of the module log at each start: records whose CRC fails are counted and skipped (R465). -/
def FlashState.scanned (f : FlashState) : FlashState := { f with logCrcFail := satAdd 0xFFFFFFFF f.logCrcFail f.badRecords }

/-- Operating time resumes from the latest of what the management complex holds, what was saved, and the newest valid record of the log, which is scanned (R461, R465). -/
def State.resumeTime (s : State) : State :=
  let later := fun (a b : Nat × Nat) => if a.1 < b.1 ∨ (a.1 = b.1 ∧ a.2 < b.2) then b else a
  let newest := (s.flash.log.filter fun r => r.torn.isNone).foldl (fun a (r : Record) => later a (3600 * r.hours + r.seconds, r.micros)) (later (s.recd.opSeconds, s.recd.opMicros) (s.flash.opSeconds, 0))
  { s with flash := s.flash.scanned, recd := { s.recd with opSeconds := newest.1, opMicros := newest.2 } }

/-- A cold bring-up starts S0 with every report word NOT_RUN (R342). -/
def State.coldStart (s : State) : State := s.again.resumeTime.stageBegins 0

/-- Minimal mode: served by the boot ROM alone, the report words those of the last failed start (R364, R365). Unpowered hubs hold nothing. -/
def State.minimalMode (s : State) : State :=
  let t := s.again
  let t := { t with
    hubs := [], eth := EthState.reset
    recd := { t.recd with frozen := match t.recd.frozen with | some (_ + 1, _) => none | x => x } }
  { t with boot := { t.boot with
      reports := t.flash.reports, state := 0xA, minimal := true
      reason := t.flash.failure.1.toNat + 2 ^ 16 * t.flash.failure.2 } }

/-- POWER_ON: both banks are applied, and the engine holds in reset until REFCLK is there (R342, R343). -/
def execPowerOn (s : State) : Answer :=
  .next (if s.boot.powered then s else { s.sessionOver true false with meter := { MeterState.reset with lastAt := s.clock } })

/-- REFCLK has been there for 65,536 cycles (R343, R369): the session's records begin, with what the last one lost; then S0, or minimal mode. -/
def State.refclkThere (s : State) : State :=
  if !s.boot.powered || s.boot.refclk then s
  else
    let lost := !s.flash.savedAtEnd
    let refLost := s.boot.refLost
    let minimal := decide (3 ≤ s.flash.failedStarts)
    let s := { s with
      boot := { s.boot with refclk := true, refLost := false }
      clk := { s.clk with refPresent := true, gateAt := s.clock }
      flash := { s.flash with savedAtEnd := false, powerCycle := if minimal then s.flash.powerCycle else (s.flash.powerCycle + 1) % 2 ^ 32 } }
    let s := s.resumeTime
    let s := if refLost then s.note recEvent Codes.clkNotReady 0 noPlace [] else s
    let s := if lost then s.note recLost 4 0 noPlace (leBytes 4 0xFFFFFFFF) else s
    if minimal then s.minimalMode else s.stageBegins 0

/-- REFCLK_PRESENT (R343). -/
def execRefclkPresent (s : State) : Answer := .next s.refclkThere

/-- REFCLK_LOSS: no edge for 64 ns ends the session; what the rings had not flushed is lost (R369). -/
def execRefclkLoss (s : State) : Answer :=
  .next (if s.boot.powered && s.boot.refclk then { s.sessionOver true true with meter := { MeterState.reset with lastAt := s.clock } } else s)

/-- The work of the hold-up in its order: INPUT_LOSS recorded and every freeze ended, the rings of fields 0–67 flushed, the operating time saved
(R390, R464). -/
def State.lossStep (s : State) (n : Nat) : State :=
  if n = 0 then (s.note recFault Codes.inputLoss 0 noPlace []).thaw
  else if n ≤ fieldCount then s.flushOrWait (n - 1)
  else { s with flash := { s.flash with opSeconds := s.recd.opSeconds, savedAtEnd := true } }

/-- Steps of that work. -/
def lossSteps : Nat := fieldCount + 2

/-- The hold-up lasts for so many steps of the work; one that collapses before the end may leave a torn record in the log (R464). -/
def State.holdUp (s : State) (n : Nat) (torn : Option Nat) : State :=
  let t := (List.range (min n lossSteps)).foldl State.lossStep s
  match decide (n < lossSteps), torn with
  | true, some v => { t with flash := t.flash.append { t.stamp 0 t.recd.seq 0 0 0 noPlace [] with torn := some v } }
  | _, _ => t

/-- How long the hold-up lasts, 20 ms or less, and whether its collapse leaves a torn record, the spec leaves open: free values (R390, R464; log entry
80). -/
def State.holdUpFree (s : State) : Nat × Option Nat :=
  let v := (Config.freeWord s.freeIdx).toNat
  (v / 2 % (lossSteps + 1), if bitAt v 0 then some ((Config.freeWord (s.freeIdx + 1)).toNat + 2 ^ 256 * (Config.freeWord (s.freeIdx + 2)).toNat) else none)

/-- A bank left its range for 1 ms (R390, R418, R464): recorded, thawed, the rings flushed, the time saved for as long as the hold-up lasts; the meter
saves its registers; then the session is over. -/
def State.powerLost (s : State) : State :=
  if !s.boot.powered then s
  else if !s.boot.refclk then s.sessionOver false false
  else
    let (n, torn) := s.holdUpFree
    ((({ s with freeIdx := s.freeIdx + 3 } : State).holdUp n torn).saveUnread).sessionOver false false

/-- INPUT_LOSS (R390). -/
def execInputLoss (s : State) : Answer := .next s.powerLost

/-- COLD_BRING_UP_START: 10 ms after a RESTART's completion was sent (R365). -/
def execColdBringUpStart (s : State) : Answer :=
  .next (match s.boot.restartAt with
    | none => s
    | some t =>
      let s := s.advanceTo t
      ({ s with flash := { s.flash with failedStarts := 0 } } : State).coldStart)

/-! ### Failed starts (R363) -/

/-- The start that failed is counted, and its report words kept; at the third, START_LIMIT and minimal mode, else a cold bring-up at once (R346,
R363, R364). -/
def State.startFails (s : State) : State :=
  match s.boot.stage with
  | none => s
  | some n =>
    if n ≥ 9 || !s.boot.refclk || s.pwr.overtemp || s.resultOf n != resultFailed then s
    else
      let code : Code := BitVec.ofNat 16 (bits (s.boot.reports.get 0 n).toNat 4 16)
      let s := { s with flash := { s.flash with failedStarts := s.flash.failedStarts + 1, failure := (code, n), reports := s.boot.reports } }
      let restartAt := s.boot.restartAt
      let t := if 3 ≤ s.flash.failedStarts then (s.note recFault Codes.startLimit 0 noPlace []).minimalMode else s.coldStart
      -- a RESTART that was accepted is still due (R365)
      { t with boot := { t.boot with restartAt } }

/-- FAILED_START (R363). -/
def execFailedStart (s : State) : Answer := .next s.startFails

/-- DETAIL of a stage that overran its limit: at S0 the bank voltages, which nothing tells the model, are free values (R347). -/
def State.overrunDetail (s : State) (n : Nat) : Nat × State :=
  if n = 0 then
    (s.bankDetail (Config.freeWord s.freeIdx).toNat (Config.freeWord (s.freeIdx + 1)).toNat, { s with freeIdx := s.freeIdx + 2 })
  else (s.stageDetail n, s)

/-- STAGE_TIMEOUT: the stage in hand overran its limit (R348). -/
def execStageTimeout (s : State) : Answer :=
  .next (match s.boot.stage with
    | none => s
    | some n => match stageLimit n with
      | none => s
      | some limit =>
        if !s.stageRuns n then s
        else
          let (detail, s) := s.overrunDetail n
          (s.advanceTo (s.boot.stageAt + 1000 * limit)).stageFails n Codes.stageTimeout limit detail)

/-- Milliseconds of the stage in hand that its report counts: S8 counts none while it waits (R354). -/
def State.stageElapsed (s : State) (n : Nat) : Nat := if n = 8 ∧ s.boot.s8Left.isNone then 0 else s.stageMs

/-- MGMT_WATCHDOG_RESET: the firmware is reset by its own watchdog before bring-up is complete (R363). -/
def execMgmtWatchdogReset (s : State) : Answer :=
  .next (match s.boot.stage with
    | none => s
    | some n => if s.stageRuns n && s.boot.running.isSome then s.stageFails n Codes.stageTimeout (s.stageElapsed n) (s.stageDetail n) else s)

/-! ### S0 and S1 (R348, R355) -/

/-- Does S0 wait still: for the meter's status up to 1 s, for both banks in range up to 2 s (R348, R470)? -/
def State.s0Waits (s : State) (banksInRange : Bool) (elapsed : Nat) : Bool :=
  (!s.meter.gotStatus && decide (elapsed < 1000)) || (s.meterPassed && !banksInRange && decide (elapsed < 2000))

/-- The millisecond at which S0 ends: at 1 s without a status, at 2 s without both banks (R348, R470). -/
def State.s0Ends (s : State) (banksInRange : Bool) (elapsed : Nat) : Nat :=
  if !s.meter.gotStatus then min elapsed 1000 else if !banksInRange then min elapsed 2000 else elapsed

/-- S0: the meter's status, then the banks; a new meter's serial number is taken (R348, R423, R470). -/
def State.s0 (s : State) (westDv eastDv : Nat) (banksInRange : Bool) (elapsed : Nat) : State :=
  let detail := s.bankDetail westDv eastDv
  if s.s0Waits banksInRange elapsed then s
  else if !s.meterPassed then s.stageFails 0 Codes.meterSeal elapsed detail
  else if !banksInRange then s.stageFails 0 Codes.inputLoss elapsed detail
  else if s.meter.serial = s.flash.meterSerial then s.stageEnds 0 false elapsed detail
  else ({ s with flash := { s.flash with meterSerial := s.meter.serial } } : State).stageEnds 0 true elapsed detail

/-- STAGE_S0 (R348). -/
def execStageS0 (westDv eastDv : Nat) (banksInRange : Bool) (elapsedMs : Nat) (s : State) : Answer :=
  let ms := s.s0Ends banksInRange elapsedMs
  .next (s.stageCome 0 ms (fun s => s.s0 westDv eastDv banksInRange ms) fun s => s.bankDetail westDv eastDv)

/-- S1: the management image is verified and started (R355, R453). -/
def State.s1 (s : State) (elapsed : Nat) : State :=
  let detail := s.stageDetail 1
  match s.verify kindMgmt s.flash.image with
  | .inl code => s.stageFails 1 code elapsed detail
  | .inr _ => ({ s with boot := { s.boot with running := some s.flash.image } } : State).stageEnds 1 false elapsed detail

/-- STAGE_S1 (R355). -/
def execStageS1 (elapsedMs : Nat) (s : State) : Answer := .next (s.stageCome 1 elapsedMs fun s => s.s1 elapsedMs)

/-! ### S2 and S3 (R349, R350) -/

/-- A cell is out of service before the engine is at work. -/
def State.cellBarred (s : State) (mode : CellMode) (cause : Nat) (c : Coord) : State :=
  if s.cellOut c then s
  else { (s.mapCell c fun x => { x with mode }) with defects := { s.defects with causes := s.defects.causes.put c.key cause } }

/-- A field without a hub (R349): its number FENCED, its paddocks OFF_HUB, its cells DEAD with CAUSE 0x9. -/
def State.fieldBarred (s : State) (f : Nat) : State :=
  let s := { s with defects := { s.defects with
    hubPlace := s.defects.hubPlace.put f .fenced
    paddocks := (List.range 4).foldl (fun (m : SMap PaddockMode) q => m.put (4 * f + q) .offHub) s.defects.paddocks } }
  ((fieldCells f).foldl (fun (s : State) c => s.cellBarred .dead 9 c) s).noteUnit 1 f 0 2

/-- A controller that failed at S2 (R349): a spare of its half, or the field is barred. -/
def State.controllerBarred (s : State) (f : Nat) : State :=
  if !s.hubAlive f then s else
  let s := s.unitFailed 1 f
  match s.defects.takeHubSpare (fieldEast f) with
  | some d =>
    let n := s.defects.hubSpareNumber (fieldEast f)
    ({ s with defects := { d with hubPlace := d.hubPlace.put f (.remapped n) } } : State).noteUnit 1 f n 1
  | none => s.fieldBarred f

/-- S2: roots that are READY, and the hub controllers; a field is named once for each controller that failed there, its own and then each spare (R349). -/
def State.s2 (s : State) (notReady bad : List Nat) (elapsed : Nat) : State :=
  let fields := List.range fieldCount
  let up := fields.filter fun f => !decide (f ∈ notReady)
  let s := (fields.filter fun f => decide (f ∈ notReady)).foldl State.lockClears s
  let s := up.foldl State.rootLocks s
  let s := (fields.filter fun f => decide (f ∈ notReady) && s.hubAlive f).foldl State.fieldBarred s
  if up.isEmpty then s.stageFails 2 Codes.clkNotReady elapsed (s.stageDetail 2)
  else
    let s := (up.flatMap fun f => List.replicate (bad.count f) f).foldl State.controllerBarred s
    let s := (fields.filter s.hubAlive).foldl (fun (s : State) f => s.mapHub f fun h => { h with loaded := true }) s
    s.stageEnds 2 (!s.defects.hubPlace.isEmpty) elapsed (s.stageDetail 2)

/-- STAGE_S2 (R349). -/
def execStageS2 (notReady badControllers : List Nat) (elapsedMs : Nat) (s : State) : Answer :=
  .next (s.stageCome 2 elapsedMs fun s => s.s2 notReady badControllers elapsedMs)

/-- A paddock's regulator is settled at its first target: its rail lies within 5 mV of it (R350, R395). -/
def State.paddockOn (s : State) (p : Nat) : State :=
  let off := (PaddockRegs.zero).offsetAt p s.part.highest
  let target := railTarget p s.part.highest off
  let vout := target - 5 + (Config.freeWord s.freeIdx).toNat % 11
  let s := { s with freeIdx := s.freeIdx + 1, defects := { s.defects with paddocks := s.defects.paddocks.put p .powered } }
  s.mapPaddock p fun r => { r with en := true, settled := true, targetAt := s.clock, vtarget := target, avs := off, vout, cause := 0 }

/-- An attempt whose fuse opened, of a cause that is not told; a rail that rises from enable does not trip on undervoltage (R350, R392). -/
def State.attemptFails (s : State) (p : Nat) : State :=
  let cause := [1, 3, 4].getD ((Config.freeWord s.freeIdx).toNat % 3) 1
  let s := ({ s with freeIdx := s.freeIdx + 1 } : State).hubNote (p / 4) recFault Codes.paddockTrip 0 noPlace (leBytes 2 p ++ leBytes 1 cause)
  let s := { s with defects := { s.defects with history := s.defects.history ++ [(s.flash.powerCycle, HistoryUnit.paddock p)] } }
  s.mapPaddock p fun r => { r.off with cause }

/-- The next attempt of a half (R350): first attempts in ascending order, then one more for each that failed. -/
def State.enableNext (s : State) (east settled : Bool) : State :=
  let half := fun (x : List Nat × List Nat) => if east then x.2 else x.1
  let put := fun (x : List Nat × List Nat) (l : List Nat) => if east then (x.1, l) else (l, x.2)
  match half s.boot.first, half s.boot.second with
  | p :: rest, again =>
    let s := { s with boot := { s.boot with first := put s.boot.first rest, second := if settled then s.boot.second else put s.boot.second (again ++ [p]) } }
    if settled then s.paddockOn p else s.attemptFails p
  | [], p :: rest =>
    let s := { s with
      boot := { s.boot with second := put s.boot.second rest }
      defects := { s.defects with retried := addOnce s.defects.retried p } }
    if settled then s.paddockOn p
    else
      let s := s.attemptFails p
      let s := { s with defects := { s.defects with paddocks := s.defects.paddocks.put p .failedS3 } }
      (paddockCells p).foldl (fun (s : State) c => s.cellBarred .dead 6 c) s
  | [], [] => s

/-- PADDOCK_ENABLE east settled (R350). -/
def execPaddockEnable (east settled : Bool) (s : State) : Answer := .next (if s.stageRuns 3 then s.enableNext east settled else s)

/-- Gateways beside routers of paddocks that S3 leaves without power are lost, and their slots move to spares (R282, R331). -/
def State.gatesBarred (s : State) : State := (((List.range 272).filter fun p => !s.paddockLive p).foldl State.loseGates s).moveGates

/-- STAGE_S3: every paddock has had its attempts (R350). -/
def execStageS3 (elapsedMs : Nat) (s : State) : Answer :=
  .next (if s.boot.first = ([], []) ∧ s.boot.second = ([], []) then
      s.stageCome 3 elapsedMs fun s => s.gatesBarred.stageEnds 3 ((List.range 272).any fun p => !s.paddockLive p) elapsedMs (s.stageDetail 3)
    else s)

/-! ### S4 to S6 (R351–R353) -/

/-- A unit of the defect history of the last two power sessions, or of this one (R338). -/
def State.recentHistory (s : State) : List HistoryUnit :=
  (s.defects.history.filter fun e => decide (s.flash.powerCycle ≤ e.1 + 2)).map (·.2)

/-- A row node or the apex that failed its test: a spare, or FENCED (R351). -/
def State.nodeBarred (s : State) (n : Nat) : State :=
  let kind := if n = 8 then 3 else 2
  let s := s.unitFailed kind n
  match s.defects.takeNodeSpare n with
  | some (k, d) => ({ s with defects := { d with nodePlace := d.nodePlace.put n (.remapped k) } } : State).noteUnit kind n k 1
  | none => ({ s with defects := { s.defects with nodePlace := s.defects.nodePlace.put n .fenced } } : State).noteUnit kind n 0 2

/-- S4: cells of the history, cells and nodes that failed their test (R351). -/
def State.s4 (s : State) (cells : List Coord) (blocks : List (Nat × Nat × Nat)) (rows : List Nat) (apexBad : Bool) (elapsed : Nat) : State :=
  let listed := s.recentHistory.filterMap fun u => match u with | .cell c _ => some c | _ => none
  let s := listed.foldl (fun (s : State) c => s.cellBarred .fenced 2 c) s
  let s := (cells.filter Coord.present).foldl (fun (s : State) c => s.cellBarred .fenced 1 c) s
  let s := blocks.foldl (fun (s : State) b =>
    let s := { s with defects := { s.defects with blockFailed := addOnce s.defects.blockFailed (120 * b.1 + 12 * b.2.2 + b.2.1) } }
    ((fieldCells b.1).filter fun c => c.kx == b.2.1 && c.ky == b.2.2).foldl (fun (s : State) c => s.cellBarred .fenced 5 c) s) s
  let s := ((List.range 8).filter fun n => decide (n ∈ rows)).foldl State.nodeBarred s
  let s := if apexBad then s.nodeBarred 8 else s
  let fenced := s.defects.causes.any fun e => e.2 == 1 || e.2 == 2 || e.2 == 5
  s.stageEnds 4 (fenced || !s.defects.nodePlace.isEmpty) elapsed (s.stageDetail 4)

/-- STAGE_S4 (R351): failed cells, failed block nodes (field, kx, ky), failed row nodes, and whether the apex failed. -/
def execStageS4 (cells : List Coord) (blocks : List (Nat × Nat × Nat)) (rows : List Nat) (apexBad : Bool) (elapsedMs : Nat) (s : State) : Answer :=
  answerIf (cells.all Coord.present && blocks.all (fun b => decide (b.1 < fieldCount ∧ b.2.1 < 12 ∧ b.2.2 < 10)) && rows.all fun r => decide (r < 8))
    (s.stageCome 4 elapsedMs fun s => s.s4 cells blocks rows apexBad elapsedMs)

/-- A failed test of a link between live cells (R324): failures within the spares are steered to them, others mark the link down. -/
def State.edgeTest (s : State) (e : EdgeFail) : State :=
  let d := if e.south then 2 else 1
  match e.cell.neighbour d with
  | none => s
  | some n =>
    if s.cellOut e.cell || s.cellOut n || e.failed == 0 then s
    else
      let spare := if e.unit_ = 0 then 2 else 1
      if e.failed ≤ spare then { s with defects := { s.defects with spareUsed := addOnce s.defects.spareUsed (2 * e.cell.key + (if e.south then 1 else 0)) } }
      else if e.unit_ = 0 then s.meshLinkDown e.cell d
      else { s with defects := { s.defects with
        fabricDown := addOnce s.defects.fabricDown (8 * e.cell.key + 4 * (if e.south then 1 else 0) + (e.unit_ - 1)) } }

/-- The trees of the firmware flocks, one per field (R352). -/
def State.firmwareTrees (s : State) : State :=
  ((List.range fieldCount).filter s.hubAlive).foldl (fun (s : State) f =>
    (s.firmwareTransfers f).foldl (fun (s : State) t =>
      match t.use with
      | .firmware k => s.transferTree f { t with flock := firmwareFlock k }
      | .section_ _ _ => s) s) s

/-- S5: link tests, routing version 0 as the firmware computed it (log entry 33), checked against R200 and not installed where it does not meet it, firmware
flocks (R352). -/
def State.s5 (s : State) (fails : List EdgeFail) (entries : List RouteEntry) (elapsed : Nat) : State :=
  let t := fails.foldl State.edgeTest s
  let linkLost := !t.defects.meshDown.isEmpty
  let t := ((List.range 272).filter fun p => !t.paddockLive p).foldl State.borderDown t
  let t := t.writeVersion false entries
  if !t.versionMeets false then s else
  let t := t.fenceUnreachable false
  let t := ({ t with epoch := false, boot := { t.boot with routed := true } } : State).firmwareTrees
  let d := t.defects
  t.stageEnds 5 (linkLost || !d.fabricDown.isEmpty || !d.spareUsed.isEmpty || d.causes.any fun e => e.2 == 4) elapsed (t.stageDetail 5)

/-- STAGE_S5 (R352). -/
def execStageS5 (fails : List EdgeFail) (entries : List RouteEntry) (elapsedMs : Nat) (s : State) : Answer :=
  answerIf (fails.all (fun e => e.cell.present && decide (e.unit_ < 4)) && entries.all fun e => e.at_.present && decide (e.paddock < 272))
    (s.stageCome 5 elapsedMs fun s => s.s5 fails entries elapsedMs)

/-- A physical vault that S6 may not use: it failed its test, the history lists it, or its cell or paddock is out (R236, R353). -/
def State.vaultBad (s : State) (failed : List Nat) (listed : List HistoryUnit) (pv : Nat) : Bool :=
  decide (pv ∈ failed) || decide (HistoryUnit.vault pv ∈ listed) || (s.vault pv).lost || s.cellOut (vaultCell pv) || !s.paddockLive (vaultCell pv).paddock

/-- The vault map that S6 builds (R233): a spare for each logical vault whose home is bad, in ascending order. -/
def State.mapVaults (s : State) : State :=
  (List.range logicalVaults).foldl (fun (s : State) lv =>
    let home := vaultHome lv
    if !(s.vault home).lost && !(s.vault home).failedTest then s
    else match s.loft.chooseSpare s.paddockLive home with
      | some sp => { s with loft := { s.loft with map := s.loft.map.put lv (.remapped sp), assigned := s.loft.assigned.put sp lv } }
      | none => { s with loft := { s.loft with map := s.loft.map.put lv .fenced } }) s

/-- Vaults that S6 may not use are marked, and every line of the others is written (R233, R353). -/
def State.vaultsTested (s : State) (failed : List Nat) (listed : List HistoryUnit) : State :=
  let bad := (List.range physicalVaults).filter (s.vaultBad failed listed)
  let s := bad.foldl (fun (s : State) pv => s.mapVault pv fun v =>
    if decide (pv ∈ failed) || decide (HistoryUnit.vault pv ∈ listed) then { v with failedTest := true } else { v with lost := true }) s
  { s with loft := { s.loft with vaults := s.loft.vaults.mapVals .zero fun _ v => { v with lines := [], fill := .data } } }

/-- S6: vaults tested, the map built, GENERATION 0 (R353). A map of more than 4,096 entries fails the start. -/
def State.s6 (s : State) (failed : List Nat) (elapsed : Nat) : State :=
  let s := s.vaultsTested failed s.recentHistory
  let t := s.mapVaults
  let defects : DefectState :=
    { t.defects with generation := 0, vaultsChanging := [], wasAway := [], unmapped := [], s6Short := t.loft.map.any fun e => e.2 == VaultEntry.fenced }
  let degraded := t.loft.vaults.any fun e => e.2.lost || e.2.failedTest
  if t.loft.map.length ≤ 4096 then ({ t with defects } : State).stageEnds 6 degraded elapsed (t.stageDetail 6)
  else ({ s with defects } : State).stageFails 6 Codes.loftLost elapsed (t.stageDetail 6)

/-- STAGE_S6 (R353): physical vaults that failed their test. -/
def execStageS6 (failed : List Nat) (elapsedMs : Nat) (s : State) : Answer :=
  answerIf (failed.all fun pv => decide (pv < physicalVaults)) (s.stageCome 6 elapsedMs fun s => s.s6 failed elapsedMs)

/-! ### S7 and S8 (R354, R357) -/

/-- Has every live hub ended its firmware transfers? -/
def State.firmwareDone (s : State) : Bool :=
  ((List.range fieldCount).filter s.hubAlive).all fun f => (s.hub f).transfers.isEmpty

/-- STAGE_S7: the transfers of every field have ended (R357, R362). -/
def execStageS7 (elapsedMs : Nat) (s : State) : Answer :=
  .next (if s.firmwareDone then
      s.stageCome 7 elapsedMs fun s => s.stageEnds 7 (s.defects.causes.any fun e => e.2 == 3) elapsedMs (s.stageDetail 7)
    else s)

/-- S8 after its wait (R354): pairs whose loopback passed open their bypass, and ports that receive light train. -/
def State.s8 (s : State) (loopbackOk light : List Nat) : State :=
  let pairs := (List.range 4).filter fun k => decide (k ∈ loopbackOk)
  let s := (pairs.flatMap fun k => [2 * k, 2 * k + 1]).foldl (fun (s : State) p =>
    if (s.port p).mode = .bypassed then s.mapPort p fun x => { x with mode := .down } else s) s
  let s := ((List.range 64).filter fun p => decide (p ∈ light)).foldl (fun (s : State) p =>
    if (s.port p).mode = .down then s.mapPort p fun x => { x with mode := .training } else s) s
  { s with boot := { s.boot with s8Tested := true, bypassOpen := pairs } }

/-- STAGE_S8 (R354). -/
def execStageS8 (loopbackOk light : List Nat) (s : State) : Answer :=
  .next (if s.stageRuns 8 && s.boot.s8Left.isSome && !s.boot.s8Tested then s.s8 loopbackOk light else s)

/-- S8 ends 500 ms after its wait: ports not UP, BYPASSED or FENCED are DOWN, and bring-up is complete (R344, R354). -/
def State.s8Ends (s : State) (left : Nat) : State :=
  let s := s.advanceTo (left + 500000)
  let s := (List.range 64).foldl (fun (s : State) p =>
    match (s.port p).mode with
    | .training => s.mapPort p fun x => x.drop .down
    | _ => s) s
  let ports := (List.range 64).map s.port
  let degraded := ports.any (fun p => p.mode == .fenced || p.spareFor.isSome) || s.boot.bypassOpen.length != 4 || s.stageLost
  let s := s.stageReports 8 (if degraded then resultDegraded else resultPassed) 0 500 (s.stageDetail 8)
  { s with
    boot := { s.boot with stage := some 9, state := 9 }
    flash := { s.flash with failedStarts := 0 } }

/-- S8_PORT_TIMEOUT (R354). -/
def execS8PortTimeout (s : State) : Answer :=
  .next (match s.boot.s8Left with
    | some t => if s.stageRuns 8 && s.boot.s8Tested then s.s8Ends t else s
    | none => s)

end Sys2Proof.Machine
end

