-- ==== Sys2Proof/Machine/OdpCatalog.lean ====
section
/-!
DEFINITION. The catalogue of the object dictionary (R431, R443, R444) and what a read of each entry gives: the entries of R5, R346, R365, R388,
R410, R424, R441, R445, R489, the defect map (R333–R341), the records of R261, R262, R276, R298, R318, R465 and R481.
-/
namespace Sys2Proof.Machine

/-! ### Types, access, catalogue (R431, R443) -/

/-- Type codes (R431). -/
def tyU8 : Nat := 1
def tyU16 : Nat := 2
def tyU32 : Nat := 3
def tyU64 : Nat := 4
def tyI32 : Nat := 5
def tyStr : Nat := 7
def tyDomain : Nat := 8

/-- Access codes (R431). -/
def acConst : Nat := 1
def acRo : Nat := 2
def acRw : Nat := 3
def acWo : Nat := 4
def acRws : Nat := 5

/-- An entry: type, access, and the least and greatest length of its value. -/
structure OdpEntry where
  type : Nat
  access : Nat
  min_ : Nat
  max_ : Nat
  deriving DecidableEq, Repr

/-- Bytes of a number type (R431). -/
def tyBytes (t : Nat) : Nat := if t = tyU8 then 1 else if t = tyU16 then 2 else if t = tyU64 then 8 else 4

/-- A number entry. -/
def numEntry (type access : Nat) : OdpEntry := { type, access, min_ := tyBytes type, max_ := tyBytes type }

/-- A DOMAIN entry. -/
def domEntry (access min_ max_ : Nat) : OdpEntry := { type := tyDomain, access, min_, max_ }

/-- Bytes that may be staged in all (R435). -/
def stageRoom : Nat := 67108864

/-- Entries of one subindex each, or of a few: index, subindex, entry. -/
def catalogueRows : List (Nat × Nat × OdpEntry) :=
  let str := fun (a : Nat) => ({ type := tyStr, access := a, min_ := 0, max_ := 64 } : OdpEntry)
  let n := numEntry
  [(0x1001, 1, str acConst), (0x1001, 2, n tyU32 acConst), (0x1001, 3, n tyU32 acConst),
   (0x1002, 1, str acConst), (0x1002, 2, n tyU32 acRo), (0x1002, 3, n tyU32 acRo),
   (0x2010, 1, n tyU32 acRo), (0x2010, 2, n tyU8 acRo), (0x2010, 3, n tyU8 acRws), (0x2010, 4, n tyU8 acRo),
   (0x2011, 1, domEntry acRws 1 0xFFFFFFFF),
   (0x3001, 1, n tyU16 acRo), (0x3001, 2, n tyU16 acRo),
   (0x3002, 1, n tyU8 acRw), (0x3002, 2, n tyU16 acRw), (0x3002, 3, n tyU8 acRw), (0x3002, 4, n tyU16 acRw),
   (0x3010, 1, n tyU32 acRo), (0x3010, 2, n tyU32 acRo)] ++
  [(0x4001, 1, n tyU32 acRw), (0x4001, 2, n tyU8 acRw), (0x4001, 3, n tyU8 acRw), (0x4001, 4, n tyU8 acRw), (0x4001, 5, n tyU16 acRw),
   (0x4002, 1, n tyU16 acRw), (0x4002, 2, n tyU16 acRw), (0x4003, 1, n tyU8 acRw), (0x4003, 2, n tyU16 acRw),
   (0x4004, 1, n tyU8 acRw), (0x4004, 2, n tyU32 acRw),
   (0x4012, 1, domEntry acConst 1088 1088), (0x4013, 1, domEntry acRw 1088 1088), (0x4014, 1, n tyU32 acConst),
   (0x4020, 1, n tyU32 acRo), (0x4020, 2, n tyU32 acRo), (0x4020, 3, n tyU32 acRo), (0x4020, 4, n tyU8 acRo), (0x4020, 5, n tyU8 acRo),
   (0x4020, 6, n tyU16 acRo), (0x4020, 7, n tyU8 acRo), (0x4021, 1, domEntry acRo 2176 2176)] ++
  [(0x5001, 1, n tyU64 acRo), (0x5001, 2, n tyU32 acRo), (0x5001, 3, domEntry acRo 32 32), (0x5001, 4, domEntry acRo 1312 1312), (0x5001, 5, n tyU8 acRo),
   (0x5010, 1, domEntry acRo 64 64), (0x5010, 2, n tyU64 acRo), (0x5010, 3, n tyU64 acRo), (0x5020, 1, domEntry acRo 2484 2484),
   (0x5030, 1, n tyU32 acRo), (0x5030, 2, n tyU32 acRo)] ++
  [(0x6001, 1, n tyU16 acRw), (0x6002, 1, domEntry acConst 65536 65536), (0x6003, 1, domEntry acRw 16384 16384), (0x6005, 1, domEntry acRw 0 128),
   (0x6010, 1, n tyU16 acRw), (0x6010, 2, n tyU8 acRw), (0x6010, 3, n tyU16 acRw), (0x6010, 4, n tyU32 acRo),
   (0x6120, 1, n tyU32 acWo), (0x6121, 1, domEntry acRo 32768 32768),
   (0x6300, 1, n tyU64 acConst), (0x6300, 2, domEntry acRw 16 16), (0x6300, 3, n tyU32 acRw), (0x6310, 1, n tyU64 acConst)] ++
  [(0x7000, 1, domEntry acRo 0 2097152), (0x7000, 2, n tyU32 acRo),
   (0x7010, 1, n tyU16 acRw), (0x7010, 2, n tyU16 acRw), (0x7010, 3, n tyU16 acRw),
   (0x7012, 1, domEntry acRo 0 522240), (0x7011, 1, n tyU16 acRw), (0x7011, 2, n tyU16 acRw), (0x7011, 3, n tyU16 acRw),
   (0x7021, 1, n tyU32 acRo), (0x7021, 2, n tyU32 acRo), (0x7021, 3, n tyU32 acRo),
   (0x7030, 1, domEntry acRo 0 2097152), (0x7030, 2, n tyU8 acRws), (0x7040, 1, n tyU8 acRo), (0x7040, 2, n tyU32 acRo)] ++
  [(0x8001, 1, domEntry acRo 0 268435456), (0x8001, 2, n tyU32 acRo), (0x8001, 3, n tyU32 acRo), (0x8001, 4, n tyU32 acRo),
   (0x8010, 1, n tyU8 acWo), (0x8010, 2, n tyU32 acRo)] ++
  [(0x9001, 1, domEntry acRo 1312 1312), (0x9001, 2, domEntry acConst 2524 2524), (0x9002, 1, domEntry acWo 32 32), (0x9002, 2, domEntry acRo 0 394356),
   (0x9003, 1, n tyU8 acRo), (0x9003, 2, n tyU8 acRws), (0x9004, 1, n tyU8 acRws),
   (0x9010, 1, domEntry acRo 32 32), (0x9010, 2, domEntry acWo 2468 2468), (0x9010, 3, n tyU32 acWo), (0x9010, 4, n tyU8 acRo)] ++
  [(0xA001, 1, domEntry acRo 0 97920), (0xA010, 1, domEntry acRo 4096 4096), (0xA011, 1, n tyU8 acWo), (0xA011, 2, domEntry acRo 0 2088960),
   (0xA011, 3, domEntry acRo 0 32768), (0xA020, 1, domEntry acRo 256 256), (0xA030, 1, n tyU32 acRw), (0xA031, 1, domEntry acRo 18800640 18800640),
   (0xA040, 1, n tyU32 acWo), (0xA040, 2, domEntry acRo 384 384)]

/-- Entries that an index holds many of: first and last index, highest subindex of the last one, entry. All but the last index have 128. -/
def catalogueRuns : List (Nat × Nat × Nat × OdpEntry) :=
  [(0x2000, 0x2000, 9, numEntry tyU64 acRo), (0x3020, 0x3022, 84, numEntry tyU32 acRo), (0x3030, 0x3030, 68, numEntry tyU8 acRw),
   (0x3031, 0x3031, 68, numEntry tyU64 acRo), (0x4010, 0x4010, 10, numEntry tyU32 acConst), (0x4011, 0x4011, 10, numEntry tyI32 acRw),
   (0x6100, 0x611F, 128, domEntry acRw 16 16), (0x6200, 0x6200, 64, numEntry tyU64 acRo), (0x6201, 0x6201, 64, domEntry acRo 36 36),
   (0x6301, 0x6301, 7, numEntry tyU32 acRo), (0x6320, 0x6320, 64, domEntry acRw 32 32), (0x7020, 0x7020, 64, numEntry tyU64 acRw),
   (0x8002, 0x8002, 68, domEntry acRo 0 65536), (0x8003, 0x8003, 68, numEntry tyU64 acRo), (0x9020, 0x9020, 4, domEntry acRws 1312 1312),
   (0x9021, 0x9021, 4, numEntry tyU8 acRws)]

/-- The highest subindex of an index, none where the catalogue has no such index (R432). -/
def highestSub (index : Nat) : Option Nat :=
  match catalogueRuns.find? fun r => decide (r.1 ≤ index ∧ index ≤ r.2.1) with
  | some r => some (if index = r.2.1 then r.2.2.1 else 128)
  | none => match (catalogueRows.filter fun r => r.1 == index).map (·.2.1) with
    | [] => none
    | a :: l => some (l.foldl max a)

/-- The entry at an index and subindex (R432, R443). -/
def odpEntry (index sub : Nat) : Option OdpEntry :=
  match highestSub index with
  | none => none
  | some top =>
    if sub = 0 then some (numEntry tyU8 acConst)
    else if top < sub then none
    else match catalogueRuns.find? fun r => decide (r.1 ≤ index ∧ index ≤ r.2.1) with
      | some r => some r.2.2.2
      | none => (catalogueRows.find? fun r => r.1 == index && r.2.1 == sub).map (·.2.2)

/-- Entries served in minimal mode (R364): identity (R5), bring-up, the recorder, and what a session needs. -/
def servedMinimal (index sub : Nat) : Bool :=
  index == 0x1001 || index == 0x2000 || index == 0x2010 || index == 0x2011 || decide (0x8000 ≤ index ∧ index < 0x9000) ||
  (index == 0x9001 && sub != 2) || index == 0x9010 || index == 0x9020

/-! ### Records as bytes -/

/-- PART_NUMBER (R5). -/
def Part.name : Part → String
  | .w32 => "SV7-W32"
  | .w26 => "SV7-W26"
  | .w20 => "SV7-W20"

/-- One bit as a number. -/
def bitNat (b : Bool) : Nat := if b then 1 else 0

/-- A coordinate as X [9:0], Y [19:10]. -/
def coordWord (c : Coord) : Nat := c.x % 1024 + 1024 * (c.y % 1024)

/-- Cell i of the order of R334. -/
def cellAt (i : Nat) : Coord :=
  let f := i / 7680
  let b := i / 64 % 120
  let o := fieldOrigin f
  { x := o.x + 8 * (b % 12) + i % 8, y := o.y + 8 * (b / 12) + i / 8 % 8 }

/-- STATE of a window (R276). -/
def WindowMode.code : WindowMode → Nat
  | .closed => 0
  | .open_ => 1
  | .closing => 2

/-- The 16 bytes of a window record (R276). -/
def Window.bytes (w : Window) : List Byte :=
  leBytes 16 (w.base + 2 ^ 48 * w.space + 2 ^ 52 * bitNat w.read + 2 ^ 53 * bitNat w.write + 2 ^ 54 * bitNat w.inc + 2 ^ 55 * bitNat w.arrivalEn +
    2 ^ 56 * w.arrivalTally + 2 ^ 62 * w.mode.code + 2 ^ 64 * w.size + 2 ^ 105 * w.arrivalX + 2 ^ 115 * w.arrivalY + 2 ^ 125 * w.resv)

/-- STATE of a port (R298). -/
def PortMode.code : PortMode → Nat
  | .down => 0
  | .training => 1
  | .up => 2
  | .bypassed => 3
  | .fenced => 4

/-- PORT_STATUS (R298). -/
def State.portStatus (s : State) (p : Nat) : Nat :=
  let x := s.port p
  x.mode.code + 2 ^ 3 * bitNat x.spareFor.isSome + 2 ^ 4 * (x.spareFor.getD 0) + 2 ^ 8 * bitNat (decide (p < 8)) + 2 ^ 9 * x.tags.length

/-- The 16 bytes of a muster's status record, zeros where no region holds it (R261, R444). -/
def State.musterRecord (s : State) (m : Nat) : List Byte :=
  let u := s.muster m
  if u.cells.isEmpty then leBytes 16 0
  else leBytes 16 (m + 2 ^ 8 * u.top + 2 ^ 10 * bitNat (!u.members.isEmpty) + 2 ^ 11 * bitNat u.oldest + 2 ^ 12 * u.cells.length +
    2 ^ 32 * min u.arrived.1 0xFFFFF + 2 ^ 52 * min u.arrived.2 0xFFFFF + 2 ^ 72 * u.region + 2 ^ 88 * u.rounds + 2 ^ 120 * bitNat u.lastFlag)

/-- Participants of a muster that have not posted its oldest unreleased round (R261). A region's step-start muster has no arrivals of cells. -/
def State.laggards (s : State) (m : Nat) : List Coord :=
  let u := s.muster m
  let part := fun (c : Coord) => ((s.cell c).must.parts.get { nextParity := false, pending := [] } m : CellMuster)
  let listed := match s.regions.find u.region with | some r => r.musters | none => []
  let late := fun (c : Coord) =>
    if listed.head? = some m then false
    else if listed[1]? = some m then u.rounds == 0 && !(s.cell c).must.stepEnd
    else match (part c).pending.length with
      | 0 => true
      | 1 => (part c).nextParity == u.oldest
      | _ => false
  (u.cells.map Coord.ofKey).filter late

/-- Member records of a linked muster at its leader, 8 bytes each (R262). -/
def State.memberRecords (s : State) (m : Nat) : List Byte :=
  let u := s.muster m
  if u.members.isEmpty || u.leader != s.relend.engineId then []
  else u.members.flatMap fun e =>
    leBytes 8 (e + 2 ^ 12 * bitNat (e == u.leader) + 2 ^ 13 * bitNat (u.linked.any fun a => a.1 == e && a.2.1 == u.oldest) +
      2 ^ 14 * min 0xFFFFFFFF (u.skews.get 0 e))

/-- STATE of a declaration (R318). DESIGN CHOICE (log entry 135): a slot that has posted FLAG 1 is not in doubt (R316) and reads DISTRIBUTE until the
release. -/
def RingSlot.stateCode (t : RingSlot) : Nat :=
  match t.phase with
  | .gathering => 1
  | .reducing => 2
  | .distributing => 3
  | .posted => if t.postedFlag = some true then 3 else 4
  | .aborted => 7
  | .idle => match t.outcome with
    | some true => 5
    | some false => 6
    | none => 0

/-- The 16 bytes of a slot's collective record (R318). -/
def State.collectiveRecord (s : State) (k : Nat) : List Byte :=
  match s.declOf k, s.rings.find k with
  | some (_, _, d), some t =>
    let seg := match t.failure with | some (n, second, _) => (n, second) | none => t.hand
    let status : Code := match t.failure with | some (_, _, c) => c | none => 0
    leBytes 16 (k + 2 ^ 4 * t.region + 2 ^ 20 * t.stateCode + 2 ^ 23 * t.cause + 2 ^ 27 * t.step + 2 ^ 59 * (s.ringIndex d % 1024) +
      2 ^ 69 * (seg.1 % 1024) + 2 ^ 79 * bitNat seg.2 + 2 ^ 80 * status.toNat + 2 ^ 96 * d.deadline)
  | _, _ => List.replicate 16 0

/-- The 12 bytes of a region in REGION_LIST (R444). -/
def regionRecord (e : Nat × Region) : List Byte :=
  leBytes 2 e.1 ++ leBytes 1 e.2.mode.code ++ leBytes 1 0 ++ leBytes 1 e.2.bx ++ leBytes 1 e.2.oy ++ leBytes 1 e.2.w ++ leBytes 1 e.2.h ++ leBytes 4 e.2.committed

/-- STATE of a queue pair (R481). -/
def QpMode.code : QpMode → Nat
  | .reset => 0
  | .rts => 1
  | .error => 2

/-- The 32 bytes of a queue pair (R481). -/
def QueuePair.bytes (q : QueuePair) : List Byte :=
  leBytes 1 q.mode.code ++ leBytes 1 q.family ++ leBytes 2 0 ++ leBytes 4 q.peer ++ leBytes 4 q.start ++ leBytes 4 0 ++ fitBytes 16 q.addr

/-- RING_STATUS (R465). -/
def State.ringStatus (s : State) (f : Nat) : Nat :=
  let h := s.hub f
  h.ring.held.length + 2 ^ 11 * h.ring.unflushed + 2 ^ 22 * bitNat (s.ringFrozen f) +
  2 ^ 23 * bitNat (h.ring.due && !s.logFrozen) + 2 ^ 32 * h.ring.dropped + 2 ^ 48 * h.holding.length

/-- ROOT_STATUS (R387). -/
def State.rootStatus (s : State) (f : Nat) : Nat :=
  let h := s.roots (fieldEast f)
  let held := s.clk.held.get 0 f
  bitNat (decide (0 < held)) + 2 * bitNat (decide (f ∈ s.clk.ready)) + 2 ^ 2 * bitNat h.slewing + 2 ^ 3 * bitNat s.clk.refPresent +
  2 ^ 4 * held + 2 ^ 21 * h.cur s.clock

/-- STATE of a paddock (R335); what it reads while OVERTEMP has switched the paddock off is not told. -/
def State.paddockCode (s : State) (p : Nat) : Nat :=
  match s.defects.paddocks.find p with
  | some .tripped => 1
  | some .failedS3 => 2
  | some .offHub => 3
  | _ => if s.pwr.overtemp then (Config.freeWord s.freeIdx).toNat % 4 else 0

/-- PADDOCK_STATUS (R394). -/
def State.paddockStatus (s : State) (p : Nat) : Nat :=
  let r := s.paddockRegs p
  s.paddockCode p + 2 ^ 2 * bitNat r.settled + 2 ^ 3 * bitNat r.stretching + 2 ^ 4 * (r.vout % 4096) + 2 ^ 16 * (r.iout % 4096) + 2 ^ 28 * (r.tj % 256) +
  2 ^ 36 * (r.tloft % 256) + 2 ^ 44 * (r.cause % 16)

/-- FIELD_SOURCE: the sources asked for (R388). -/
def State.fieldSource (s : State) (f : Nat) : Nat :=
  bitNat (s.clk.src.get false (4 * f)) + 2 * bitNat (s.clk.src.get false (4 * f + 1)) + 4 * bitNat (s.clk.src.get false (4 * f + 2))

/-- DVFS_STATE of one half (R410). -/
def DvfsState.code : DvfsState → Nat
  | .idle => 0
  | .vRaise => 1
  | .fRampUp => 2
  | .fRampDown => 3
  | .vLower => 4

/-- WORST (R441). -/
def OdpState.worst (o : OdpState) : Nat := o.attemptUs * (o.resends + 1) + o.completionUs

/-! ### The defect map (R333–R341) -/

/-- Cells out of service in a mode. -/
def State.cellsIn (s : State) (m : CellMode) : Nat := countOf (fun (e : Nat × Nat) => (s.cells.get .reset e.1).mode == m) s.defects.causes

/-- Healthy, unassigned spare vaults of some paddocks. -/
def State.sparesFree (s : State) (p : Nat → Bool) : Nat :=
  countOf (fun pv => p (vaultCell pv).paddock && s.paddockLive (vaultCell pv).paddock && s.loft.spareFree pv) spares

/-- Logical vaults that are FENCED. -/
def State.vaultsFenced (s : State) : Nat := countOf (fun (e : Nat × VaultEntry) => e.2 == VaultEntry.fenced) s.loft.map

/-- Paddocks that are off. -/
def State.paddocksOff (s : State) : Nat := countOf (fun p => !s.paddockLive p) (List.range 272)

/-- Ports that are FENCED. -/
def State.portsFenced (s : State) : Nat := countOf (fun p => (s.port p).mode == PortMode.fenced) (List.range 64)

/-- NODE_SPARES_FREE (R333). -/
def DefectState.nodeSpareBits (d : DefectState) : Nat := bitNat d.nodeSpares.1 + 2 * bitNat d.nodeSpares.2.1 + 4 * bitNat d.nodeSpares.2.2

/-- The engine as the defect map shows it: the cells, paddocks, links and lifetime trips of a paddock that went off stand as before until its first update
is made (R331, R333). -/
def State.mapView (s : State) : State :=
  s.defects.unmapped.foldl (fun (s : State) h =>
    let s := h.cells.foldl (fun (s : State) k => s.mapCell (Coord.ofKey k) fun x => { x with mode := .empty }) s
    { s with defects := { s.defects with
        causes := s.defects.causes.filter fun e => !decide (e.1 ∈ h.cells)
        meshDown := s.defects.meshDown.filter fun e => !decide (e ∈ h.links)
        history := if s.defects.paddocks.find h.paddock = some .tripped then s.defects.history.erase (s.flash.powerCycle, HistoryUnit.paddock h.paddock)
          else s.defects.history
        paddocks := s.defects.paddocks.put h.paddock .powered } }) s

/-- Logical vaults whose entry passes a test, those of an update that is not made yet apart (R331). -/
def State.mapCount (s : State) (p : VaultEntry → Bool) : Nat :=
  countOf (fun (e : Nat × VaultEntry) => p e.2 && !(s.defects.vaultsChanging.any fun g => decide (e.1 ∈ g))) s.loft.map

/-- Healthy, unassigned spare vaults of some paddocks as the defect map shows them: with those that left the pool in an update that is not made yet, the
first of a trip or the one that will record the vaults they were chosen for (R331, R333). -/
def State.mapSpares (s : State) (p : Nat → Bool) : Nat :=
  let here := fun (pv : Nat) => p (vaultCell pv).paddock
  let chosen := s.loft.assigned.filter fun e => s.defects.vaultsChanging.any fun g => decide (e.2 ∈ g)
  s.sparesFree p + countOf here (s.defects.unmapped.flatMap (·.spares)) + countOf (fun (e : Nat × Nat) => here e.1) chosen

/-- The conditions of R337, as the defect map stood at its last change. -/
def State.replaceBits (now : State) : Nat :=
  let s := now.mapView
  let d := s.defects
  let cond := [decide (0 < s.mapCount (· == VaultEntry.fenced)) || d.s6Short, d.nodePlace.any fun e => e.2 == Place.fenced, decide (s.mapSpares (fun _ => true) < 240),
    decide (4 < s.paddocksOff), (d.hubPlace.any fun e => e.2 == Place.fenced) || d.hubSpares.1 + d.hubSpares.2 == 0, d.nodeSpareBits != 7,
    decide (2 < s.portsFenced), decide (5222 < s.cellsIn .fenced + s.cellsIn .dead)]
  ((List.range 8).map fun n => if cond.getD n false then 2 ^ n else 0).sum

/-- REPLACE (R337). -/
def State.replaceLevel (s : State) : Nat :=
  let b := s.replaceBits
  if bits b 0 2 ≠ 0 then 2 else if b ≠ 0 then 1 else 0

/-- Cell record i (R334). -/
def State.cellRecord (s : State) (i : Nat) : Nat :=
  let c := cellAt i
  let d := s.defects
  let down := fun (south : Bool) => ((List.range 3).map fun n => if decide (8 * c.key + 4 * bitNat south + n ∈ d.fabricDown) then 2 ^ n else 0).sum
  let state := match (s.cell c).mode with | .fenced => 1 | .dead => 2 | _ => 0
  state + 2 ^ 2 * bitNat (decide (2 * c.key ∈ d.meshDown)) + 2 ^ 3 * bitNat (decide (2 * c.key + 1 ∈ d.meshDown)) +
  2 ^ 4 * (if state = 0 then 0 else (d.causes.find c.key).getD 0) + 2 ^ 8 * down false + 2 ^ 11 * down true +
  2 ^ 14 * bitNat (decide (2 * c.key ∈ d.spareUsed) || decide (2 * c.key + 1 ∈ d.spareUsed))

/-- Paddock record p (R335). -/
def State.paddockRecord (s : State) (p : Nat) : Nat :=
  s.paddockCode p + 2 ^ 2 * bitNat (decide (p ∈ s.defects.retried)) + 2 ^ 8 * min 15 (s.mapSpares fun q => q == p) +
  2 ^ 16 * min 0xFFFF (countOf (fun (e : Nat × HistoryUnit) => e.2 == HistoryUnit.paddock p) s.defects.history)

/-- A privileged record (R336). -/
def privRecord (kind logical : Nat) (pl : Place) : List Byte :=
  match pl with
  | .remapped k => leBytes 8 (kind + 2 ^ 4 * logical + 2 ^ 20 * k + 2 ^ 36)
  | .fenced => leBytes 8 (kind + 2 ^ 4 * logical + 2 ^ 37)

/-- The privileged records, one for each resource or gateway not at its home (R336). -/
def State.privRecords (s : State) : List (List Byte) :=
  s.defects.hubPlace.map (fun e => privRecord 1 e.1 e.2) ++
  s.defects.nodePlace.map (fun e => privRecord (if e.1 = 8 then 3 else 2) e.1 e.2) ++
  ((List.range 64).filter fun p => (s.port p).mode == PortMode.fenced).map (fun p => privRecord 4 p .fenced) ++
  s.defects.gatePlace.map (fun e => privRecord 5 e.1 e.2)

/-- The defect map (R333). Its tables follow the header in the order in which the header names them. -/
def State.defectMap (s : State) : List Byte :=
  let priv := s.privRecords
  let now := s
  let s := s.mapView
  let d := s.defects
  leBytes 4 0x504D4644 ++ leBytes 2 1 ++ leBytes 2 0 ++ leBytes 4 s.flash.powerCycle ++ leBytes 4 d.generation ++ leBytes 4 (s.cellsIn .fenced) ++
  leBytes 4 (s.cellsIn .dead) ++ leBytes 2 s.paddocksOff ++ leBytes 2 (s.mapSpares fun _ => true) ++
  leBytes 2 (s.mapCount (· != VaultEntry.fenced) + d.wasAway.length) ++ leBytes 2 (s.mapCount (· == VaultEntry.fenced)) ++
  leBytes 2 (min 0xFFFF d.meshDown.length) ++ leBytes 2 (min 0xFFFF d.fabricDown.length) ++ leBytes 2 s.portsFenced ++
  leBytes 1 (d.hubSpares.1 + d.hubSpares.2) ++ leBytes 1 d.nodeSpareBits ++ leBytes 1 now.replaceLevel ++ leBytes 3 0 ++
  leBytes 4 64 ++ leBytes 4 (64 + 2 * 522240) ++ leBytes 4 (64 + 2 * 522240 + 4 * 272) ++ leBytes 4 priv.length ++ leBytes 4 0 ++
  (List.range 522240).flatMap (fun i => leBytes 2 (s.cellRecord i)) ++ (List.range 272).flatMap (fun p => leBytes 4 (s.paddockRecord p)) ++ priv.flatten

/-- The counters of every physical vault (R235). DESIGN CHOICE (log entry 139): R235 names the 0x7000 range and no entry of it; the model presents them at
0x7012:01, 8 bytes for each physical vault in ascending order. -/
def State.vaultCounters (s : State) : List Byte :=
  (List.range physicalVaults).flatMap fun pv =>
    let v := s.vault pv
    leBytes 2 v.corrected ++ leBytes 2 v.uncorrectable ++ leBytes 2 v.portParity ++ leBytes 2 0

/-- Kind and number of a defect-history unit. -/
def HistoryUnit.key : HistoryUnit → Nat × Nat
  | .cell c cause => (16 + cause, coordWord c)
  | .vault pv => (32, pv)
  | .paddock p => (33, p)
  | .unit kind n => (kind, n)

/-- Blocks of enabled fallow reservations (R341). -/
def State.fallowBlocks (s : State) : List (Nat × Nat) :=
  ((List.range 64).flatMap fun n =>
    let (r, en) := fallowOf (s.defects.fallow.get 0 (n + 1))
    if en then (upFrom r.2.1 r.2.2.2).flatMap fun y => (upFrom r.1 r.2.2.1).map fun x => (x, y) else []).dedup

/-- Does a region hold a block (R159)? -/
def State.blockHeld (s : State) (b : Nat × Nat) : Bool := s.regions.any fun e => e.2.takes b.1 b.2 1 1

/-- Does a block hold a cell out of service, or an edge of a link marked down (R341)? -/
def State.blockImpaired (s : State) (b : Nat × Nat) : Bool :=
  let d := s.defects
  (rectCells b.1 b.2 1 1).any fun c =>
    let downAt := fun (e : Coord) (south : Bool) => decide (2 * e.key + bitNat south ∈ d.meshDown) ||
      (List.range 3).any fun n => decide (8 * e.key + 4 * bitNat south + n ∈ d.fabricDown)
    s.cellOut c || downAt c false || downAt c true ||
    (match c.neighbour 3 with | some n => downAt n false | none => false) || (match c.neighbour 0 with | some n => downAt n true | none => false)

/-- FALLOW_BLOCKS, FALLOW_OCCUPIED, FALLOW_IMPAIRED (R341). -/
def State.fallowCount (s : State) (k : Nat) : Nat :=
  match k with
  | 1 => s.fallowBlocks.length
  | 2 => countOf s.blockHeld s.fallowBlocks
  | _ => countOf (fun b => !s.blockHeld b && s.blockImpaired b) s.fallowBlocks

/-! ### Values (R432, R433) -/

/-- A field of some entries by subindex, 1 first. -/
def pick (l : List Nat) (sub : Nat) : Nat := l.getD (sub - 1) 0

/-- What a READ of a number gives; of a write-only action that can be read, something not told (R431). -/
def State.odpNumber (s : State) (index sub : Nat) : Nat :=
  let w := s.pwr
  let free := (Config.freeWord s.freeIdx).toNat % 256
  let halfState := fun (h : HalfPower) => h.state.code
  match index with
  | 0x1001 => pick [0, 500 * s.part.rootMax, s.part.cap] sub
  | 0x1002 => pick [0, numAt (s.boot.running.getD []) 12 4, s.odp.discards] sub
  | 0x2000 => (s.boot.reports.get 0 (sub - 1)).toNat
  | 0x2010 => pick [s.boot.reason, s.flash.failedStarts, free, s.boot.state] sub
  | 0x3001 => pick [s.clk.west.set, s.clk.east.set] sub
  | 0x3002 => pick [s.clk.west.depth, s.clk.west.rate, s.clk.east.depth, s.clk.east.rate] sub
  | 0x3010 => pick [s.seamRatio, s.clk.singleHalf] sub
  | 0x3020 | 0x3021 | 0x3022 => s.clk.khz.get 0 (128 * (index - 0x3020) + sub - 1)
  | 0x3030 => s.fieldSource (sub - 1)
  | 0x3031 => s.rootStatus (sub - 1)
  | 0x4001 => pick [w.capW, w.windowS, w.priority, w.opFloor, w.raiseHold] sub
  | 0x4002 => pick [w.westLimit, w.eastLimit] sub
  | 0x4003 => pick [w.tThrottle, w.droopLimit] sub
  | 0x4004 => pick [bitNat w.follow, w.skewNs] sub
  | 0x4010 => coeffFactory sub
  | 0x4011 => (BitVec.ofInt 32 (w.coeffTrim.get 0 sub)).toNat
  | 0x4014 => fixedW
  | 0x4020 => pick [w.scale, w.energy.headD 0 / 1000000, (w.energy.take (1000 * w.windowS)).sum / (1000 * w.windowS) / 1000000, w.west.op, w.east.op,
      w.memDuty + 256 * w.linkDuty, halfState w.west + 16 * halfState w.east] sub
  | 0x5001 => pick [s.meter.serial, s.meter.version, 0, 0, s.meter.state] sub
  | 0x5010 => pick [0, numAt s.meter.reading 40 8, numAt s.meter.reading 48 8] sub
  | 0x5030 => pick [s.meter.frameErrors, s.meter.seqGaps] sub
  | 0x6001 => s.relend.engineId
  | 0x6010 => pick [s.odp.attemptUs, s.odp.resends, s.odp.completionUs, s.odp.worst] sub
  | 0x6200 => s.portStatus (sub - 1)
  | 0x6300 => if sub = 3 then s.odp.ipv4 else Config.factoryNat index sub 0 % 2 ^ 48
  | 0x6301 => s.eth.counters.get 0 sub
  | 0x6310 => Config.factoryNat index sub 0 % 2 ^ 48
  | 0x7000 => s.defects.generation
  | 0x7010 => pick [s.defects.uncorrLimit, s.defects.corrLimit, s.defects.portLimit] sub
  | 0x7011 => pick [s.defects.stepLimit, s.defects.sessionLimit, s.defects.headerLimit] sub
  | 0x7020 => (s.defects.fallow.get 0 sub).toNat
  | 0x7021 => s.fallowCount sub
  | 0x7030 => free
  | 0x7040 => pick [s.replaceLevel, s.replaceBits] sub
  | 0x8001 => pick [0, s.flash.log.length, s.flash.logErased, s.flash.logCrcFail] sub
  | 0x8003 => s.ringStatus (sub - 1)
  | 0x8010 => s.recd.overflow
  | 0x9003 => s.flash.vendorKeyMin
  | 0x9004 => bitNat s.flash.ownerRequired
  | 0x9010 => s.odp.sessions.length
  | 0x9021 => free
  | 0xA030 => s.odp.marks
  | _ => 0

/-- What a READ of text gives. -/
def State.odpText (s : State) (index : Nat) : List Byte := if index = 0x1001 then textBytes s.part.name else serialText

/-- The counters of the routers from byte `off` on, `len` bytes at most (R445). -/
def State.routerCounters (s : State) (off len : Nat) : List Byte :=
  let first := off / 36
  let cells := (upFrom first ((off % 36 + len) / 36 + 1)).filter fun i => i < 522240
  ((cells.flatMap fun i => (List.range 9).flatMap fun k => leBytes 4 ((s.router (cellAt i)).counters.get 0 k)).drop (off % 36)).take len

/-- The whole value of a DOMAIN, but for ROUTER_COUNTERS and MODULE_LOG. -/
def State.odpDomain (s : State) (index sub : Nat) : List Byte :=
  match index with
  | 0x2011 => s.flash.image.take 128
  | 0x4012 => (List.range 272).flatMap fun p => leBytes 4 (leakFactory p)
  | 0x4013 => (List.range 272).flatMap fun p => leBytes 4 (BitVec.ofInt 32 (s.pwr.leakTrim.get 0 p)).toNat
  | 0x4021 => (List.range 272).flatMap fun p => leBytes 8 (s.paddockStatus p)
  | 0x5001 => if sub = 3 then s.meter.digest else s.meter.key
  | 0x5010 => s.meter.reading
  | 0x5020 => s.meter.signed
  | 0x6002 => (List.range 16384).flatMap fun g => leBytes 4 (coordWord (gateCoord g))
  | 0x6003 => (List.range 4096).flatMap fun e => leBytes 4 (s.relend.routes.get 0 e).toNat
  | 0x6005 => s.relend.paceGroup.flatMap fun e => leBytes 2 e
  | 0x6121 => (List.range 4096).flatMap fun n =>
      let w := s.relend.windows.get .zero n
      leBytes 4 w.accepted ++ leBytes 4 w.rejected
  | 0x6201 => (List.range 9).flatMap fun k => leBytes 4 ((s.port (sub - 1)).counters.get 0 k)
  | 0x6300 => s.odp.ipv6
  | 0x6320 => (s.eth.qps.get .zero (sub - 1)).bytes
  | 0x7000 => s.defectMap
  | 0x7012 => s.vaultCounters
  | 0x7030 => s.defects.history.flatMap fun e => Config.historyRecord e.1 e.2.key.1 e.2.key.2
  | 0x8002 => (s.hub (sub - 1)).ring.held.flatMap fun e => e.1.bytes
  | 0x9001 => if sub = 1 then deviceKey else deviceCert
  | 0x9002 => s.odp.report
  | 0x9020 => (s.flash.keys.find sub).getD []
  | 0xA001 => (s.regions.filter fun e => e.2.mode != .empty).flatMap regionRecord
  | 0xA010 => (List.range 256).flatMap s.musterRecord
  | 0xA011 => if sub = 2 then (s.laggards s.odp.muster).flatMap fun c => leBytes 4 (coordWord c) else s.memberRecords s.odp.muster
  | 0xA020 => (List.range 16).flatMap s.collectiveRecord
  | 0xA040 => match s.odp.tally with
    | some w =>
      let c : Coord := { x := bits w 0 10, y := bits w 10 10 }
      (List.range 48).flatMap fun t => leBytes 8 ((s.cell c).tallyWord c (s.dmaWait c) t)
    | none => []
  | _ => if 0x6100 ≤ index ∧ index ≤ 0x611F then (s.relend.windows.get .zero (128 * (index - 0x6100) + sub - 1)).bytes else []

/-- Length of a DOMAIN's value, and its bytes from `off` on, `len` at most (R433). -/
def State.odpPiece (s : State) (index sub off len : Nat) : Nat × List Byte :=
  if index = 0xA031 then (18800640, s.routerCounters off len)
  else if index = 0x8001 then
    (64 * s.flash.log.length, ((((s.flash.log.drop (off / 64)).take ((off % 64 + len) / 64 + 1)).flatMap Record.bytes).drop (off % 64)).take len)
  else
    let v := s.odpDomain index sub
    (v.length, sliceOf v off len)

/-- The bytes of a number or text (R431, R432). -/
def State.odpScalar (s : State) (index sub : Nat) (e : OdpEntry) : List Byte :=
  if sub = 0 then leBytes 1 ((highestSub index).getD 0)
  else if e.type = tyStr then s.odpText index
  else leBytes (tyBytes e.type) (s.odpNumber index sub)

end Sys2Proof.Machine
end

