-- ==== Sys2Proof/Machine/OdpApply.lean ====
section
/-!
DEFINITION. What a write of each entry of the object dictionary does (R432): its owning rule's range and state checks, its effect, and the code and
reason of a refusal (R429).
-/
namespace Sys2Proof.Machine

/-! ### Reasons and outcomes (R429) -/

def whyNone : Nat := 0
def whyNoEntry : Nat := 1
def whyAccess : Nat := 2
def whySession : Nat := 3
def whyType : Nat := 4
def whyRange : Nat := 5
def whyState : Nat := 6
def whyLayering : Nat := 7
def whyBusy : Nat := 8
def whyMinimal : Nat := 9
def whyExpired : Nat := 10

/-- What applying a value came to. -/
inductive Applied
  /-- In force: the state, and the session a SESSION_OPEN opened. -/
  | done (s : State) (session : Nat)
  /-- Refused, with what the refusal itself leaves (a record, or nothing). -/
  | refused (s : State) (code : Code) (why : Nat)
  /-- Taken in hand: the response comes when a later event completes it. -/
  | later (s : State)

/-- The value is in force. -/
def inForce (s : State) : Applied := .done s 0

/-- Refused with CONFIG_INVALID and a reason; nothing changes. -/
def State.deny (s : State) (why : Nat) : Applied := .refused s Codes.configInvalid why

/-- In force where the value lies in range, else refused with RANGE. -/
def State.ranged (s : State) (ok : Bool) (t : State) : Applied := if ok then inForce t else s.deny whyRange

/-! ### Clocks (R377, R382) -/

/-- Does a region with a cell in a half run (R377)? -/
def State.halfRuns (s : State) (east : Bool) : Bool :=
  s.regions.any fun e => e.2.mode == .running && (List.range fieldCount).any fun f => fieldEast f == east && e.2.inField f

/-- A spread setting (R377): sub 1, 3 a depth of at most 10 steps, 2, 4 a rate of 300–330. -/
def State.writeSpread (s : State) (sub v : Nat) : Applied :=
  let east := decide (3 ≤ sub)
  if s.halfRuns east then s.deny whyState
  else if sub % 2 = 1 then s.ranged (decide (v ≤ 10)) (s.mapRoots east fun h => { h with depth := v, deep := max h.deep v, moved := true })
  else s.ranged (decide (300 ≤ v ∧ v ≤ 330)) (s.mapRoots east fun h => { h with rate := v, moved := true })

/-- Are the regions of a field EMPTY, LOADED or HALTED (R382)? -/
def State.fieldQuiet (s : State) (f : Nat) : Bool :=
  s.regions.all fun e => !e.2.inField f || e.2.mode == .empty || e.2.mode == .loaded || e.2.mode == .halted

/-- FIELD_SOURCE (R381, R382): core and mesh go together; a switch to a root that is not READY is refused with CLK_NOT_READY and recorded. -/
def State.writeFieldSource (s : State) (f v : Nat) : Applied :=
  let asked := fun (k : Nat) => s.clk.src.get false (4 * f + k)
  if 7 < v ∨ bitAt v 0 ≠ bitAt v 1 then s.deny whyRange
  else if s.boot.stage ≠ some 9 ∨ !s.fieldQuiet f then s.deny whyState
  else if !decide (f ∈ s.clk.ready) && (List.range 3).any fun k => asked k && !bitAt v k then
    .refused (s.hubNote f recEvent Codes.clkNotReady 0 noPlace (leBytes 1 f)) Codes.clkNotReady whyNone
  else
    inForce (((List.range 3).filter fun k => asked k != bitAt v k).foldl (fun (s : State) k => s.sourceAsk (4 * f + k) (bitAt v k)) s)

/-! ### Power (R391, R395, R401, R402, R404, R405, R407–R409) -/

/-- Is a trim at most 20 % of its factory value (R402)? -/
def trimOk (factory : Nat) (trim : Int) : Bool := decide (5 * trim.natAbs ≤ factory)

/-- CAP_W, CAP_WINDOW_S, PRIORITY, OP_FLOOR, RAISE_HOLD_MS (R395, R404, R405). -/
def State.writeCap (s : State) (sub v : Nat) : Applied :=
  let put := fun (w : PowerState) => ({ s with pwr := w } : State)
  match sub with
  | 1 => s.ranged (decide (5000 ≤ v ∧ v ≤ s.part.cap)) (put { s.pwr with capW := v })
  | 2 => s.ranged (decide (1 ≤ v ∧ v ≤ 60)) (put { s.pwr with windowS := v, energy := s.pwr.energy.take (1000 * min v s.pwr.windowS) })
  | 3 => s.ranged (decide (v ≤ 5)) (put { s.pwr with priority := v })
  | 4 => s.ranged (decide (s.part.highest ≤ v ∧ v ≤ 11)) (put { s.pwr with opFloor := v })
  | _ => s.ranged (decide (1 ≤ v ∧ v ≤ 10000)) (put { s.pwr with raiseHold := v })

/-- Bank limits, T_THROTTLE_C, DROOP_RATE_LIMIT, PACE_FOLLOW, PACE_SKEW_NS (R391, R401, R407–R409). -/
def State.writeLimits (s : State) (index sub v : Nat) : Applied :=
  let put := fun (w : PowerState) => ({ s with pwr := w } : State)
  if index = 0x4002 then
    s.ranged (decide (100 ≤ v ∧ v ≤ 320)) (put (if sub = 1 then { s.pwr with westLimit := v } else { s.pwr with eastLimit := v }))
  else if index = 0x4003 then
    if sub = 1 then s.ranged (decide (85 ≤ v ∧ v ≤ 100)) (put { s.pwr with tThrottle := v })
    else s.ranged (decide (10 ≤ v)) (put { s.pwr with droopLimit := v })
  else if sub = 1 then s.ranged (decide (v ≤ 1)) (put { s.pwr with follow := decide (v = 1) })
  else s.ranged (decide (1000 ≤ v ∧ v ≤ 1000000)) (put { s.pwr with skewNs := v })

/-- COEFF_TRIM (R402). -/
def State.writeCoeff (s : State) (sub v : Nat) : Applied :=
  let t := signedOf 32 v
  s.ranged (trimOk (coeffFactory sub) t) { s with pwr := { s.pwr with coeffTrim := s.pwr.coeffTrim.set 0 sub t } }

/-- LEAK_TRIM (R402): the value of every paddock. -/
def State.writeLeak (s : State) (b : List Byte) : Applied :=
  let t := fun (p : Nat) => signedOf 32 (numAt b (4 * p) 4)
  let new := (List.range 272).foldl (fun (m : SMap Int) p => m.set 0 p (t p)) []
  s.ranged ((List.range 272).all fun p => trimOk (leakFactory p) (t p)) { s with pwr := { s.pwr with leakTrim := new } }

/-! ### Relend (R270, R271, R276–R278, R296, R441) -/

/-- ENGINE_ID (R270): fixed once S8 has left its wait; the first write while S8 waits ends the wait. -/
def State.writeEngineId (s : State) (v : Nat) : Applied :=
  if s.relend.idLocked then s.deny whyState
  else if 4095 < v then s.deny whyRange
  else
    let s := { s with relend := { s.relend with engineId := v, idWritten := true } }
    inForce (if s.stageRuns 8 && s.boot.s8Left.isNone then s.s8Leaves else s)

/-- Is a word a route (R271)? -/
def routeOk (w : Nat) : Bool :=
  decide (bits w 12 2 ≠ 3) && decide (bits w 14 4 ≤ 14) && (decide (bits w 14 4 ≠ 0) || decide (bits w 12 2 = 0)) && decide (bits w 18 14 = 0)

/-- ROUTE_TABLE (R271). -/
def State.writeRoutes (s : State) (b : List Byte) : Applied :=
  let w := fun (e : Nat) => numAt b (4 * e) 4
  let new := (List.range 4096).foldl (fun (m : SMap (BitVec 32)) e => m.set 0 e (BitVec.ofNat 32 (w e))) []
  s.ranged ((List.range 4096).all fun e => routeOk (w e)) { s with relend := { s.relend with routes := new } }

/-- PACE_GROUP (R296). -/
def State.writePaceGroup (s : State) (b : List Byte) : Applied :=
  let ids := (List.range (b.length / 2)).map fun i => numAt b (2 * i) 2
  s.ranged (ids.all fun e => decide (e ≤ 4095)) { s with relend := { s.relend with paceGroup := ids } }

/-- The recovery settings as a write would leave them (R441). -/
def OdpState.timers (o : OdpState) (sub v : Nat) : OdpState :=
  match sub with
  | 1 => { o with attemptUs := v }
  | 2 => { o with resends := v }
  | _ => { o with completionUs := v }

/-- The conditions of R441, with the deadlines of the declarations held. -/
def OdpState.layered (o : OdpState) (deadlines : List Nat) : Bool :=
  decide (2 < o.attemptUs) && decide (16 < o.completionUs) && decide (o.worst < 100) && deadlines.all fun d => decide (o.worst < d)

/-- Deadlines of the collective declarations held (R441). -/
def State.deadlines (s : State) : List Nat := s.rings.filterMap fun e => (s.declOf e.1).map fun d => d.2.2.deadline

/-- RELEND_ATTEMPT_US, RELEND_RESENDS, RELEND_COMPLETION_US (R441). -/
def State.writeTimers (s : State) (sub v : Nat) : Applied :=
  let new := s.odp.timers sub v
  if s.regions.any fun e => e.2.mode == .running then s.deny whyState
  else if decide (4 < new.resends) || decide (1000 < new.attemptUs) || decide (1000 < new.completionUs) then s.deny whyRange
  else if new.layered s.deadlines then inForce { s with odp := new }
  else s.deny whyLayering

/-- A window record as written: STATE, counts and requests in hand stay (R276, R277). -/
def Window.record (w : Window) (b : List Byte) : Window :=
  let n := leNat b
  { w with
    base := bits n 0 48, space := bits n 48 4, read := bitAt n 52, write := bitAt n 53, inc := bitAt n 54, arrivalEn := bitAt n 55
    arrivalTally := bits n 56 6, size := bits n 64 41, arrivalX := bits n 105 10, arrivalY := bits n 115 10, resv := bits n 125 3 }

/-- A window. -/
def State.window (s : State) (n : Nat) : Window := s.relend.windows.get .zero n

/-- A write of window n's record, only while it is CLOSED (R277). -/
def State.writeWindow (s : State) (n : Nat) (b : List Byte) : Applied :=
  if (s.window n).mode ≠ .closed then s.deny whyState else inForce (s.mapWindow n fun w => w.record b)

/-- Do two windows of one space share a byte (R277)? -/
def windowsMeet (a b : Window) : Bool :=
  a.space == b.space &&
  (if a.space = 0 then overlaps a.base a.size b.base b.size
   else bits a.base 0 20 == bits b.base 0 20 && overlaps (bits a.base 20 24) a.size (bits b.base 20 24) b.size)

/-- May a window open on its own account (R277)? -/
def Window.rangeOk (w : Window) : Bool :=
  let off := bits w.base 20 24
  let cell : Coord := { x := bits w.base 0 10, y := bits w.base 10 10 }
  let here : Coord := { x := w.arrivalX, y := w.arrivalY }
  let plain := decide (w.arrivalX = 0 ∧ w.arrivalY = 0 ∧ bits w.base 44 4 = 0) && cell.present
  decide (0 < w.size) && (w.read || w.write || w.inc) && decide (w.resv = 0) &&
  (!w.arrivalEn || decide (w.arrivalTally ≤ 47)) &&
  match w.space with
  | 0 => decide (w.base % 64 = 0 ∧ w.size % 64 = 0) && loftSpanOk w.base w.size && !w.inc && (!w.arrivalEn || here.present)
  | 1 => plain && decide (off % 64 = 0 ∧ w.size % 64 = 0 ∧ off + w.size ≤ 0x100000) && !w.inc
  | 2 => plain && decide (off % 8 = 0 ∧ w.size % 8 = 0 ∧ 0x100000 ≤ off ∧ off + w.size ≤ 0x100180) && !w.arrivalEn
  | _ => false

/-- Does a window that is not CLOSED overlap it (R277)? -/
def State.windowTaken (s : State) (w : Window) : Bool := s.relend.windows.any fun e => e.2.mode != .closed && windowsMeet w e.2

/-- WINDOW_CMD OPEN (R277). -/
def State.openWindow (s : State) (n : Nat) : Applied :=
  let w := s.window n
  if w.mode ≠ .closed then s.deny whyState
  else s.ranged (w.rangeOk && !s.windowTaken w) (s.mapWindow n fun w => { w with mode := .open_, accepted := 0, rejected := 0 })

/-- WINDOW_CMD CLOSE (R278): the window is CLOSING until its last accepted request has been answered; a close of a CLOSING one waits for the same. -/
def State.closeWindow (s : State) (m : OdpMsg) (n : Nat) : Applied :=
  let w := s.window n
  if w.mode = .closed then inForce s
  else if w.mode = .open_ ∧ w.busy = 0 then inForce (s.mapWindow n fun w => { w with mode := .closed })
  else .later (s.mapWindow n fun w => { w with mode := .closing, closers := w.closers ++ [m] })

/-- WINDOW_CMD (R277, R278): [11:0] window, [15:12] OPEN or CLOSE. -/
def State.windowCommand (s : State) (m : OdpMsg) (v : Nat) : Applied :=
  if bits v 16 16 ≠ 0 then s.deny whyRange
  else match bits v 12 4 with
    | 1 => s.openWindow (bits v 0 12)
    | 2 => s.closeWindow m (bits v 0 12)
    | _ => s.deny whyRange

/-! ### The host port (R479, R481) -/

/-- A queue pair. -/
def State.pair (s : State) (q : Nat) : QueuePair := s.eth.qps.get .zero q

/-- Change a queue pair. -/
def State.mapPair (s : State) (q : Nat) (f : QueuePair → QueuePair) : State := { s with eth := { s.eth with qps := s.eth.qps.upd .zero q f } }

/-- Is any queue pair RTS? -/
def State.pairArmed (s : State) : Bool := s.eth.qps.any fun e => e.2.mode == .rts

/-- HOST_IPV4 and HOST_IPV6 change only while no queue pair is RTS. -/
def State.writeAddress (s : State) (t : State) : Applied := if s.pairArmed then s.deny whyState else inForce t

/-- The fields of a queue pair as written (R481). -/
def QueuePair.fields (q : QueuePair) (b : List Byte) : QueuePair :=
  { q with family := numAt b 1 1, peer := numAt b 4 4, start := numAt b 8 4, addr := sliceOf b 16 16 }

/-- Are FAMILY, PEER_QPN, START_PSN and the zero fields valid (R481)? -/
def pairOk (b : List Byte) : Bool :=
  (numAt b 1 1 == 4 || numAt b 1 1 == 6) && zeroAt b 2 2 && decide (numAt b 4 4 < 2 ^ 24 ∧ numAt b 8 4 < 2 ^ 24) && zeroAt b 12 4 &&
  (numAt b 1 1 == 6 || zeroAt b 20 12)

/-- A queue pair in RESET with the fields written (R481). -/
def QueuePair.cleared (q : QueuePair) (b : List Byte) : QueuePair :=
  { (q.fields b) with mode := .reset, psn := 0, message := none, jobs := [], naked := false, resetting := [] }

/-- An armed queue pair (R481). -/
def QueuePair.armed (q : QueuePair) (b : List Byte) : QueuePair :=
  { (q.fields b) with mode := .rts, psn := numAt b 8 4, message := none, jobs := [], naked := false }

/-- A write of a queue pair (R481): a reset waits for the lines in flight, and behind the resets that wait already (R442). -/
def State.writePair (s : State) (m : OdpMsg) (n : Nat) (b : List Byte) : Applied :=
  let q := s.pair n
  let new := numAt b 0 1
  if q.mode = .reset then
    match new with
    | 0 => inForce (s.mapPair n fun q => q.fields b)
    | 1 => s.ranged (pairOk b) (s.mapPair n fun q => q.armed b)
    | _ => s.deny whyRange
  else if new ≠ 0 then s.deny whyState
  else if q.jobs.isEmpty && q.resetting.isEmpty then inForce (s.mapPair n fun q => q.cleared b)
  else .later (s.mapPair n fun q => { q with resetting := q.resetting ++ [(m, b)] })

/-! ### Defects (R325, R326, R338, R340) -/

/-- The limits of R325 and R326. -/
def State.writeDefectLimit (s : State) (index sub v : Nat) : Applied :=
  let d := s.defects
  let new : DefectState := match index, sub with
    | 0x7010, 1 => { d with uncorrLimit := v }
    | 0x7010, 2 => { d with corrLimit := v }
    | 0x7010, _ => { d with portLimit := v }
    | _, 1 => { d with stepLimit := v }
    | _, 2 => { d with sessionLimit := v }
    | _, _ => { d with headerLimit := v }
  s.ranged (decide (0 < v) && decide (new.stepLimit ≤ new.sessionLimit)) { s with defects := new }

/-- A fallow reservation (R340). -/
def State.writeFallow (s : State) (n v : Nat) : Applied :=
  let w : Reg64 := BitVec.ofNat 64 v
  let (r, en) := fallowOf w
  let clash := (upFrom 1 64).any fun k =>
    let (q, on) := fallowOf (s.defects.fallow.get 0 k)
    k != n && on && rectsMeet r.1 r.2.1 r.2.2.1 r.2.2.2 q.1 q.2.1 q.2.2.1 q.2.2.2
  let ok := decide (0 < r.2.2.1 ∧ 0 < r.2.2.2) && rectExists r.1 r.2.1 r.2.2.1 r.2.2.2 && !clash && decide (v / 2 ^ 29 = 0)
  s.ranged (!en || ok) { s with defects := { s.defects with fallow := s.defects.fallow.set 0 n w } }

/-- HISTORY_CLEAR (R338). -/
def State.clearHistory (s : State) (v : Nat) : Applied := s.ranged (decide (v = 1)) { s with defects := { s.defects with history := [] } }

/-! ### Bring-up (R365, R366) -/

/-- RESTART (R365): the cold bring-up begins 10 ms after the completion; not while OVERTEMP holds the engine (R407). -/
def State.writeRestart (s : State) (v : Nat) : Applied :=
  if v ≠ 1 then s.deny whyRange
  else if s.pwr.overtemp && !s.pwr.cool then s.deny whyState
  else inForce { s with boot := { s.boot with restartAt := some (s.boot.restartAt.getD (s.clock + 10000)) } }

/-- MGMT_IMAGE (R366, R442): verified, then written to flash. -/
def State.writeImage (s : State) (m : OdpMsg) (b : List Byte) : Applied :=
  if s.boot.writing.isSome then s.deny whyBusy
  else match s.verify kindMgmt b with
    | .inl code => .refused s code whyNone
    | .inr _ => .later { s with boot := { s.boot with writing := some (b, m) } }

/-! ### Security (R437, R439, R449, R455, R456) -/

/-- Are all four operator key slots empty (R439)? -/
def State.unenrolled (s : State) : Bool := s.flash.keys.isEmpty

/-- OPERATOR_KEY slot (R439). -/
def State.writeOperatorKey (s : State) (slot : Nat) (b : List Byte) : Applied :=
  inForce { s with flash := { s.flash with keys := s.flash.keys.put slot b } }

/-- KEY_CLEAR slot (R455): the slot is empty and its sessions end (R437). -/
def State.clearKey (s : State) (slot v : Nat) : Applied :=
  let keys := s.flash.keys.erase slot
  if v ≠ 1 then s.deny whyRange
  else if s.flash.ownerRequired && keys.isEmpty then s.deny whyState
  else inForce { s with
    flash := { s.flash with keys }
    odp := { s.odp with sessions := s.odp.sessions.filter fun x => x.slot != slot } }

/-- VENDOR_KEY_REVOKE (R449). -/
def State.revokeVendor (s : State) (v : Nat) : Applied :=
  if v ≤ s.flash.vendorKeyMin ∨ 3 < v then s.deny whyRange
  else if (Envelope.of (s.boot.running.getD [])).keyId < v then s.deny whyState
  else inForce { s with flash := { s.flash with vendorKeyMin := v } }

/-- OWNER_REQUIRED (R455). -/
def State.writeOwner (s : State) (v : Nat) : Applied :=
  if 1 < v then s.deny whyRange
  else if v = 1 ∧ s.unenrolled then s.deny whyState
  else inForce { s with flash := { s.flash with ownerRequired := decide (v = 1) } }

/-- The first number from a base on, in 1–top, that is not in use; numbers the spec leaves to the engine (log entry 3). -/
def freshNumber (base top : Nat) (used : List Nat) : Nat :=
  (((List.range (used.length + 1)).map fun k => (base + k) % top + 1).find? fun n => !decide (n ∈ used)).getD 0

/-- The digest that a SESSION_OPEN signs (R437). -/
def sessionDigest (b : List Byte) : List Byte := sha3 (b.take 48 ++ sha3 (deviceKey))

/-- SESSION_OPEN (R437): challenge, signature, a free place; the new session's number. -/
def State.openSession (s : State) (m : OdpMsg) (b : List Byte) : Applied :=
  let slot := numAt b 0 1
  let sent := sliceOf b 4 32
  if !(decide (1 ≤ slot ∧ slot ≤ 4) && zeroAt b 1 3 && zeroAt b 36 12) then s.deny whyRange
  else if !(s.odp.challenges.any fun c => c.src == m.src && c.bytes == sent) then s.deny whyExpired
  else if !(match s.flash.keys.find slot with | some k => mldsaVerify k (sessionDigest b) (sliceOf b 48 2420) | none => false) then
    .refused s Codes.sigInvalid whySession
  else if 4 ≤ s.odp.sessions.length then s.deny whyBusy
  else
    let n := freshNumber (Config.freeWord s.freeIdx).toNat 0xFFFFFFFF (s.odp.sessions.map (·.number))
    let new : Session := { number := n, src := m.src, slot, challenge := sent, count := 0, at_ := s.clock }
    .done { s with freeIdx := s.freeIdx + 1, odp := { s.odp with sessions := s.odp.sessions ++ [new] } } n

/-- SESSION_CLOSE (R437), by the source that opened the session. -/
def State.closeSession (s : State) (m : OdpMsg) (v : Nat) : Applied :=
  s.ranged (s.odp.sessions.any fun x => x.number == v && x.src == m.src)
    { s with odp := { s.odp with sessions := s.odp.sessions.filter fun x => x.number != v } }

/-- A region record of an attestation report (R457). -/
def attestRegion (e : Nat × Region) : List Byte :=
  leBytes 2 e.1 ++ leBytes 1 e.2.mode.code ++ leBytes 1 (e.2.slot.getD 0) ++ leBytes 1 e.2.bx ++ leBytes 1 e.2.oy ++ leBytes 1 e.2.w ++ leBytes 1 e.2.h ++
  leBytes 4 e.2.committed ++ leBytes 4 0 ++ fitBytes 32 e.2.digest

/-- An attestation report but for its signature (R457). -/
def State.attestBody (s : State) (nonce : List Byte) : List Byte :=
  let image := s.boot.running.getD []
  let env := Envelope.of image
  let listed := s.regions.filter fun e => e.2.mode != .empty && (e.2.mode != .loading || !e.2.digest.isEmpty)
  leBytes 4 0x5441545A ++ leBytes 2 1 ++ leBytes 2 listed.length ++ nonce ++ leBytes 4 s.flash.powerCycle ++ leBytes 4 (s.odp.reportSeq + 1) ++
  sha3 (deviceKey) ++ env.digest ++
  ([2, 3, 4, 5].flatMap fun t => match (components env.body).find? fun c => c.type == t with | some c => c.digest | none => List.replicate 32 0) ++
  leBytes 4 env.version ++ leBytes 1 (bitNat s.flash.ownerRequired) ++ leBytes 1 s.flash.vendorKeyMin ++
  leBytes 1 ((List.range 4).map fun k => if (s.flash.keys.find (k + 1)).isSome then 2 ^ k else 0).sum ++ leBytes 1 s.boot.state ++ leBytes 8 0 ++
  listed.flatMap attestRegion

/-- ATTEST_NONCE (R456): the report is made at once, or after the reports asked for earlier are signed. -/
def State.writeNonce (s : State) (m : OdpMsg) (b : List Byte) : Applied :=
  let entry := if s.odp.attesting.isEmpty then s.attestBody b else b
  .later { s with odp := { s.odp with attesting := s.odp.attesting ++ [(entry, m)] } }

/-! ### Run control and the recorder (R445, R466) -/

/-- ROUTER_MARKS (R206, R445): in force at every router at once. -/
def State.writeMarks (s : State) (v : Nat) : Applied :=
  s.ranged (decide (bits v 0 8 < bits v 8 8 ∧ bits v 8 8 ≤ bits v 16 8 ∧ bits v 16 8 ≤ 192 ∧ bits v 24 8 ≠ 0))
    { s with routers := s.routers.mapVals .reset fun _ r => r.throttle v, odp := { s.odp with marks := v } }

/-- TALLY_QUERY (R445). -/
def State.queryTally (s : State) (v : Nat) : Applied :=
  let c : Coord := { x := bits v 0 10, y := bits v 10 10 }
  s.ranged (c.present && decide (v < 2 ^ 20)) { s with odp := { s.odp with tally := some v } }

/-- FREEZE (R466). -/
def State.writeFreeze (s : State) (v : Nat) : Applied :=
  if 68 < v ∧ v ≠ 0xFF then s.deny whyRange
  else if s.freezeRefused v then s.deny whyState
  else inForce (s.freezeTo v)

/-! ### By entry (R443) -/

/-- A number entry takes a value. -/
def State.applyNumber (s : State) (m : OdpMsg) (index sub v : Nat) : Applied :=
  match index with
  | 0x2010 => s.writeRestart v
  | 0x3002 => s.writeSpread sub v
  | 0x3030 => s.writeFieldSource (sub - 1) v
  | 0x4001 => s.writeCap sub v
  | 0x4002 | 0x4003 | 0x4004 => s.writeLimits index sub v
  | 0x4011 => s.writeCoeff sub v
  | 0x6001 => s.writeEngineId v
  | 0x6010 => s.writeTimers sub v
  | 0x6120 => s.windowCommand m v
  | 0x6300 => s.writeAddress { s with odp := { s.odp with ipv4 := v } }
  | 0x7010 | 0x7011 => s.writeDefectLimit index sub v
  | 0x7020 => s.writeFallow sub v
  | 0x7030 => s.clearHistory v
  | 0x8010 => s.writeFreeze v
  | 0x9003 => s.revokeVendor v
  | 0x9004 => s.writeOwner v
  | 0x9010 => s.closeSession m v
  | 0x9021 => s.clearKey sub v
  | 0xA011 => inForce { s with odp := { s.odp with muster := v } }
  | 0xA030 => s.writeMarks v
  | 0xA040 => s.queryTally v
  | _ => s.deny whyAccess

/-- A DOMAIN entry takes a value. -/
def State.applyDomain (s : State) (m : OdpMsg) (index sub : Nat) (b : List Byte) : Applied :=
  match index with
  | 0x2011 => s.writeImage m b
  | 0x4013 => s.writeLeak b
  | 0x6003 => s.writeRoutes b
  | 0x6005 => s.writePaceGroup b
  | 0x6300 => s.writeAddress { s with odp := { s.odp with ipv6 := b } }
  | 0x6320 => s.writePair m (sub - 1) b
  | 0x9002 => s.writeNonce m b
  | 0x9010 => s.openSession m b
  | 0x9020 => s.writeOperatorKey sub b
  | _ => if 0x6100 ≤ index ∧ index ≤ 0x611F then s.writeWindow (128 * (index - 0x6100) + sub - 1) b else s.deny whyAccess

/-- An entry takes a value (R432, R435). -/
def State.applyValue (s : State) (m : OdpMsg) (index sub : Nat) (e : OdpEntry) (b : List Byte) : Applied :=
  if e.type = tyDomain then s.applyDomain m index sub b else s.applyNumber m index sub (leNat b)

end Sys2Proof.Machine
end

