-- ==== Sys2Proof/Machine/OdpServe.lean ====
section
/-!
DEFINITION. The server of the object dictionary (R426–R439, R442): which requests it takes, responses and duplicates, READ and snapshots, WRITE,
stages, sealed writes, and reads through Relend space 0xE (R434).
-/
namespace Sys2Proof.Machine

/-! ### Requests and responses (R426, R427, R430) -/

/-- Ports on which the server answers (R344, R364, R426). -/
def State.odpServed (s : State) (p : MgmtPort) : Bool := if s.boot.minimal then p == .field else s.boot.running.isSome

/-- What time has ended (R433, R435, R437): stages after 10 s, snapshots after 2 s, challenges after 30 s, sessions after 300 s. -/
def OdpState.prune (o : OdpState) (now : Nat) : OdpState :=
  { o with
    stages := o.stages.filter fun x => decide (now < x.at_ + 10000000)
    snapshots := o.snapshots.filter fun x => decide (now < x.at_ + 2000000)
    challenges := o.challenges.filter fun x => decide (now < x.at_ + 30000000)
    sessions := o.sessions.filter fun x => decide (now < x.at_ + 300000000) }

/-- Is a datagram discarded (R426)? -/
def odpMalformed (m : OdpMsg) : Bool := m.version ≠ 1 || bitAt m.flags 0 || m.payload.length ≠ (if m.op = 1 then 0 else m.length)

/-- A response (R427): what it copies, FLAGS with RESPONSE set, the entry's type and access, no entry's where there is none, and the byte offset of READ and
STAGE_DATA. -/
def odpReply (m : OdpMsg) (e : Option OdpEntry) (code : Code) (why : Nat) : OdpReply :=
  { dest := m.src, version := m.version, op := m.op, flags := 1, seq := m.seq, index := m.index, subindex := m.subindex
    type := match e with | some e => e.type | none => 0
    session := 0, offset := if m.op = 1 ∨ m.op = 4 then m.offset else 0, status := code, reason := why
    access := match e with | some e => e.access | none => 0
    handle := 0, total := 0, payload := [] }

/-- The 32 bytes of a response's header; the payload follows it (R427). -/
def OdpReply.header (r : OdpReply) : List Byte :=
  leBytes 2 r.version ++ leBytes 1 r.op ++ leBytes 1 r.flags ++ leBytes 4 r.seq ++ leBytes 2 r.index ++ leBytes 1 r.subindex ++ leBytes 1 r.type ++
  leBytes 4 r.session ++ leBytes 4 r.offset ++ leBytes 2 r.payload.length ++ leBytes 2 r.status.toNat ++ leBytes 1 r.reason ++ leBytes 1 r.access ++
  leBytes 2 r.handle ++ leBytes 4 r.total

/-- The datagram that leaves (R426, R427). -/
def OdpReply.datagram (r : OdpReply) : List Byte := r.header ++ r.payload

/-- A request is remembered; each source has its last 64 (R430). -/
def OdpState.remember (o : OdpState) (m : OdpMsg) : OdpState :=
  let all := o.records ++ [{ src := m.src, seq := m.seq, reply := none }]
  let mine := countOf (fun (r : OdpRecord) => r.src == m.src) all
  let kept := if 64 < mine then (match takeFirst (fun (r : OdpRecord) => r.src == m.src) all with | some (_, rest) => rest | none => all) else all
  { o with records := kept }

/-- A response is sent and kept (R430). -/
def State.odpSend (s : State) (m : OdpMsg) (r : OdpReply) : State :=
  let kept := s.odp.records.map fun (x : OdpRecord) => if x.src = m.src ∧ x.seq = m.seq then { x with reply := some r } else x
  { s with odp := { s.odp with sent := s.odp.sent ++ [r], records := kept } }

/-- A request is refused (R429). -/
def State.odpRefuse (s : State) (m : OdpMsg) (e : Option OdpEntry) (code : Code) (why : Nat) : State := s.odpSend m (odpReply m e code why)

/-- A request that waited completes with OK, its write of the entry named being in force (R432). -/
def State.odpDone (s : State) (m : OdpMsg) (index sub : Nat) : State := s.odpSend m (odpReply m (odpEntry index sub) Codes.ok whyNone)

/-- What came of a value is answered. -/
def Applied.answer (a : Applied) (m : OdpMsg) (e : OdpEntry) : State :=
  match a with
  | .done s n => s.odpSend m { odpReply m (some e) Codes.ok whyNone with session := n }
  | .refused s code why => s.odpRefuse m (some e) code why
  | .later s => s

/-- The entry a request names, or why it is refused, with the entry where it exists (R427, R429). -/
def State.entryFor (s : State) (m : OdpMsg) : Nat × Option OdpEntry ⊕ OdpEntry :=
  match odpEntry m.index m.subindex with
  | none => .inl (whyNoEntry, none)
  | some e => if s.boot.minimal && !servedMinimal m.index m.subindex then .inl (whyMinimal, some e) else .inr e

/-! ### READ (R433) -/

/-- Is a DOMAIN read through a snapshot? -/
def OdpEntry.snapped (e : OdpEntry) : Bool := e.type == tyDomain && e.access == acRo && decide (e.max_ ≤ 2097152)

/-- A READ of a DOMAIN from a value: the piece, and TOTAL. -/
def pieceReply (m : OdpMsg) (e : OdpEntry) (handle total : Nat) (piece : List Byte) : OdpReply :=
  { odpReply m (some e) Codes.ok whyNone with handle, total, payload := piece }

/-- SESSION_CHALLENGE: 32 fresh bytes held for the source in place of any earlier (R437). -/
def State.challenge (s : State) (src : Source) : List Byte × State :=
  let b := leBytes 32 (Config.randomWord s.freeIdx).toNat
  (b, { s with
    freeIdx := s.freeIdx + 1
    odp := { s.odp with challenges := (s.odp.challenges.filter fun c => c.src != src) ++ [{ src, bytes := b, at_ := s.clock }] } })

/-- Free values that a READ of an entry may use (log entry 3). -/
def readFree : Nat := 272

/-- A READ that takes a snapshot (R433). -/
def State.snapTake (s : State) (m : OdpMsg) (e : OdpEntry) : State :=
  if 16 ≤ s.odp.snapshots.length then s.odpRefuse m (some e) Codes.configInvalid whyBusy
  else
    let (value, s) :=
      if m.index = 0x9010 then s.challenge m.src
      else (s.odpDomain m.index m.subindex, { s with freeIdx := s.freeIdx + readFree })
    let h := freshNumber (Config.freeWord s.freeIdx).toNat 65535 (s.odp.snapshots.map (·.handle))
    let new : Snapshot := { handle := h, index := m.index, subindex := m.subindex, value, at_ := s.clock }
    let s := { s with freeIdx := s.freeIdx + 1, odp := { s.odp with snapshots := s.odp.snapshots ++ [new] } }
    s.odpSend m (pieceReply m e h value.length (sliceOf value m.offset m.length))

/-- A READ from a snapshot, which answers only the entry of which it was taken (R433). -/
def State.snapRead (s : State) (m : OdpMsg) (e : OdpEntry) : State :=
  match s.odp.snapshots.find? fun x => x.handle == m.handle && x.index == m.index && x.subindex == m.subindex with
  | none => s.odpRefuse m (some e) Codes.configInvalid whyExpired
  | some x =>
    let kept := s.odp.snapshots.map fun (y : Snapshot) => if y.handle = m.handle then { y with at_ := s.clock } else y
    ({ s with odp := { s.odp with snapshots := kept } } : State).odpSend m (pieceReply m e m.handle x.value.length (sliceOf x.value m.offset m.length))

/-- READ (R432, R433). -/
def State.odpRead (s : State) (m : OdpMsg) (e : OdpEntry) : State :=
  let no := fun (why : Nat) => s.odpRefuse m (some e) Codes.configInvalid why
  if e.access = acWo then no whyAccess
  else if (m.type ≠ 0 ∧ m.type ≠ e.type) ∨ 1024 < m.length then no whyType
  else if m.index = 0xA040 ∧ m.subindex = 2 ∧ s.odp.tally.isNone then no whyState
  else if e.type ≠ tyDomain then
    let r := { odpReply m (some e) Codes.ok whyNone with payload := s.odpScalar m.index m.subindex e }
    ({ s with freeIdx := s.freeIdx + readFree } : State).odpSend m r
  else if e.snapped && m.handle == 0 then s.snapTake m e
  else if e.snapped then s.snapRead m e
  else if m.handle ≠ 0 then no whyExpired
  else
    let (total, piece) := s.odpPiece m.index m.subindex m.offset m.length
    ({ s with freeIdx := s.freeIdx + readFree } : State).odpSend m (pieceReply m e 0 total piece)

/-! ### WRITE (R432) -/

/-- WRITE (R428, R432). -/
def State.odpWrite (s : State) (m : OdpMsg) (e : OdpEntry) : State :=
  let no := fun (why : Nat) => s.odpRefuse m (some e) Codes.configInvalid why
  if e.access = acConst ∨ e.access = acRo ∨ e.access = acRws ∨ e.type = tyDomain then no whyAccess
  else if (m.type ≠ 0 ∧ m.type ≠ e.type) ∨ m.length < e.min_ ∨ e.max_ < m.length then no whyType
  else (s.applyValue m m.index m.subindex e m.payload).answer m e

/-! ### Stages (R435, R436, R438, R439) -/

/-- Bytes of the signature of a sealed write (R436). -/
def sealBytes : Nat := 2420

/-- May this source write an RWS entry with no session (R439)? -/
def State.atTheRack (s : State) (src : Source) : Bool := s.unenrolled && src.port == .field

/-- Does a session stand, and belong to the source (R437)? -/
def State.sessionOf (s : State) (n : Nat) (src : Source) : Option Session := s.odp.sessions.find? fun x => x.number == n && x.src == src

/-- Length of the value that TOTAL bytes hold: of a sealed write, less the signature (R436). -/
def valueLength (e : OdpEntry) (session total : Nat) : Option Nat :=
  if e.access = acRws ∧ session ≠ 0 then (if total < sealBytes then none else some (total - sealBytes)) else some total

/-- Does a length fit the entry (R436)? A pace group is of whole ids. -/
def OdpEntry.fits (e : OdpEntry) (index n : Nat) : Bool := decide (e.min_ ≤ n ∧ n ≤ e.max_) && (index != 0x6005 || n % 2 == 0)

/-- STAGE_BEGIN (R435, R436, R438, R439). -/
def State.stageOpens (s : State) (m : OdpMsg) (e : OdpEntry) : State :=
  let no := fun (why : Nat) => s.odpRefuse m (some e) Codes.configInvalid why
  let total := m.total
  let fits := match valueLength e m.session total with | some n => e.fits m.index n | none => false
  let sessionOk := if m.session = 0 then s.atTheRack m.src else (s.sessionOf m.session m.src).isSome
  if e.access = acConst ∨ e.access = acRo ∨ (e.type ≠ tyDomain ∧ e.access ≠ acRws) then no whyAccess
  else if e.access = acRws ∧ !sessionOk then no whySession
  else if (m.type ≠ 0 ∧ m.type ≠ e.type) ∨ !fits then no whyType
  else if 16 ≤ s.odp.stages.length ∨ stageRoom < (s.odp.stages.map (·.total)).sum + total then no whyBusy
  else
    let h := freshNumber (Config.freeWord s.freeIdx).toNat 65535 (s.odp.stages.map (·.handle))
    let new : Stage := { handle := h, src := m.src, index := m.index, subindex := m.subindex, session := if e.access = acRws then m.session else 0,
                         count := m.offset, total, pieces := [], at_ := s.clock }
    let s := { s with freeIdx := s.freeIdx + 1, odp := { s.odp with stages := s.odp.stages ++ [new] } }
    s.odpSend m { odpReply m (some e) Codes.ok whyNone with handle := h, total }

/-- The stage a frame names. -/
def State.stageOf (s : State) (h : Nat) : Option Stage := s.odp.stages.find? fun x => x.handle == h

/-- The stage is free. -/
def State.stageFreed (s : State) (h : Nat) : State := { s with odp := { s.odp with stages := s.odp.stages.filter fun x => x.handle != h } }

/-- STAGE_DATA (R435). -/
def State.stageFills (s : State) (m : OdpMsg) : State :=
  match s.stageOf m.handle with
  | none => s.odpRefuse m (odpEntry m.index m.subindex) Codes.configInvalid whyExpired
  | some x =>
    let e := odpEntry x.index x.subindex
    if 1024 < m.length ∨ x.total < m.offset + m.length then s.odpRefuse m e Codes.configInvalid whyType
    else
      let put := fun (y : Stage) => if y.handle = m.handle then
          { y with pieces := if m.length = 0 then y.pieces else y.pieces ++ [(m.offset, m.payload)], at_ := s.clock } else y
      let t := { s with odp := { s.odp with stages := s.odp.stages.map put } }
      t.odpSend m { odpReply m e Codes.ok whyNone with handle := m.handle }

/-- Byte i of a stage: of the last frame that carried it (R435). -/
def stagedByte (pieces : List (Nat × List Byte)) (i : Nat) : Option Byte :=
  pieces.reverse.findSome? fun p => if p.1 ≤ i then p.2[i - p.1]? else none

/-- Every byte of a stage, if all were received (R435). -/
def Stage.value (x : Stage) : Option (List Byte) :=
  (List.range x.total).foldr (fun i (acc : Option (List Byte)) => match stagedByte x.pieces i, acc with | some b, some l => some (b :: l) | _, _ => none) (some [])

/-- The digest that seals a write (R438). -/
def sealDigest (x : Session) (st : Stage) (value : List Byte) : List Byte :=
  sha3 (x.challenge ++ leBytes 4 x.number ++ leBytes 4 st.count ++ leBytes 2 st.index ++ leBytes 1 st.subindex ++ value)

/-- Is a signature made under the session's key over the digest (R438)? -/
def State.sealOk (s : State) (x : Session) (digest sig : List Byte) : Bool :=
  match s.flash.keys.find x.slot with
  | some k => mldsaVerify k digest sig
  | none => false

/-- A verified sealed write: the session's count rises, its 300 s start anew (R437, R438). -/
def State.sealCounted (s : State) (n : Nat) : State :=
  { s with odp := { s.odp with sessions := s.odp.sessions.map fun (x : Session) => if x.number = n then { x with count := x.count + 1, at_ := s.clock } else x } }

/-- A commit of an RWS entry (R437–R439). -/
def State.commitSealed (s : State) (m : OdpMsg) (x : Stage) (e : OdpEntry) (b : List Byte) : State :=
  if x.session = 0 then
    if s.atTheRack m.src then (s.applyValue m x.index x.subindex e b).answer m e else s.odpRefuse m (some e) Codes.configInvalid whySession
  else
    let n := x.total - sealBytes
    match s.sessionOf x.session m.src with
    | none => s.odpRefuse m (some e) Codes.configInvalid whySession
    | some k =>
      if x.count ≠ k.count + 1 then s.odpRefuse m (some e) Codes.configInvalid whySession
      else if !s.sealOk k (sealDigest k x (b.take n)) (b.drop n) then s.odpRefuse m (some e) Codes.sigInvalid whySession
      else ((s.sealCounted x.session).applyValue m x.index x.subindex e (b.take n)).answer m e

/-- STAGE_COMMIT (R435): the stage is freed whatever comes of it. -/
def State.stageCommits (s : State) (m : OdpMsg) : State :=
  match s.stageOf m.handle with
  | none => s.odpRefuse m (odpEntry m.index m.subindex) Codes.configInvalid whyExpired
  | some x =>
    let s := s.stageFreed m.handle
    match odpEntry x.index x.subindex, x.value with
    | none, _ => s.odpRefuse m none Codes.configInvalid whyNoEntry
    | some e, none => s.odpRefuse m (some e) Codes.configInvalid whyType
    | some e, some b => if e.access = acRws then s.commitSealed m x e b else (s.applyValue m x.index x.subindex e b).answer m e

/-- STAGE_CANCEL (R428, R435). -/
def State.stageCancels (s : State) (m : OdpMsg) : State :=
  match s.stageOf m.handle with
  | none => s.odpRefuse m (odpEntry m.index m.subindex) Codes.configInvalid whyExpired
  | some x => (s.stageFreed m.handle).odpSend m (odpReply m (odpEntry x.index x.subindex) Codes.ok whyNone)

/-! ### A request (R428) -/

/-- A request that is not a duplicate. -/
def State.odpAct (s : State) (m : OdpMsg) : State :=
  let entry := fun (act : OdpEntry → State) => match s.entryFor m with
    | .inl (why, e) => s.odpRefuse m e Codes.configInvalid why
    | .inr e => act e
  match m.op with
  | 1 => entry fun e => s.odpRead m e
  | 2 => entry fun e => s.odpWrite m e
  | 3 => entry fun e => s.stageOpens m e
  | 4 => s.stageFills m
  | 5 => s.stageCommits m
  | 6 => s.stageCancels m
  | _ => s.odpRefuse m none Codes.configInvalid whyNoEntry

/-- A datagram reaches the server (R426, R430): it is not served, discarded, answered from the records, or carried out. -/
def State.odpRequest (s : State) (m : OdpMsg) : State :=
  if !s.odpServed m.src.port then s
  else
    let s := { s with odp := s.odp.prune s.clock }
    if odpMalformed m then { s with odp := { s.odp with discards := satAdd 0xFFFFFFFF s.odp.discards 1 } }
    else match s.odp.records.find? fun r => r.src == m.src && r.seq == m.seq with
      | some r => (match r.reply with
        | some a => { s with odp := { s.odp with sent := s.odp.sent ++ [a] } }
        | none => s)
      | none => ({ s with odp := s.odp.remember m } : State).odpAct m

/-! ### Relend space 0xE (R274, R434) -/

/-- What a READ of space 0xE gives (R434): [31:16] index, [15:8] subindex, [47:40] piece; none where it is refused. -/
def State.odpRelend (s : State) (off : Nat) : Option (List Byte) :=
  let index := bits off 16 16
  let sub := bits off 8 8
  let piece := bits off 40 8
  if s.boot.minimal ∨ bits off 0 8 ≠ 0 ∨ bits off 32 8 ≠ 0 then none
  else match odpEntry index sub with
    | none => none
    | some e =>
      if e.access = acWo ∨ (index = 0xA040 ∧ sub = 2 ∧ s.odp.tally.isNone) then none
      else if index = 0x9010 ∧ sub = 1 then some (sliceOf (leBytes 32 (Config.randomWord s.freeIdx).toNat) (64 * piece) 64)
      else if e.type = tyDomain then some (s.odpPiece index sub (64 * piece) 64).2
      else if piece ≠ 0 then none
      else some (s.odpScalar index sub e)

end Sys2Proof.Machine
end

