-- ==== Sys2Proof/Machine/Odp.lean ====
section
/-!
DEFINITION. The commands of the object dictionary (R426–R457, R466, R481): requests by operation and by the entry they write, and what completes or
ends later. A command whose request is not of its kind does not arise (log entry 7).
-/
namespace Sys2Proof.Machine

/-- The entry that a request would write, and the value where it is at hand: of a WRITE its own; of a STAGE_COMMIT its stage's, or its own once the
stage is gone. -/
def State.writes (s : State) (m : OdpMsg) : Option (Nat × Nat × Nat) :=
  if m.op = 2 then some (m.index, m.subindex, leNat m.payload)
  else if m.op = 5 then match s.stageOf m.handle with
    | some x => some (x.index, x.subindex, match x.value with | some b => leNat (b.take 8) | none => 0)
    | none => some (m.index, m.subindex, 0)
  else none

/-- A request that writes an entry of some indices and subindices. -/
def State.odpWriteOf (s : State) (m : OdpMsg) (test : Nat → Nat → Nat → Bool) : State :=
  match s.writes m with
  | some (index, sub, v) => if test index sub v then s.odpRequest m else s
  | none => s

/-- A request of one operation. -/
def State.odpOp (s : State) (m : OdpMsg) (test : Bool) : State := if test then s.odpRequest m else s

/-! ### By operation (R428) -/

/-- ODP_READ (R433); an OP the table does not list is refused here too (R428). -/
def execOdpRead (r : OdpMsg) (s : State) : Answer := .next (s.odpOp r (r.op == 1 || r.op == 0 || decide (6 < r.op)))

/-- ODP_WRITE (R432). -/
def execOdpWrite (r : OdpMsg) (s : State) : Answer := .next (s.odpOp r (r.op == 2))

/-- STAGE_BEGIN (R435). -/
def execStageBegin (r : OdpMsg) (s : State) : Answer := .next (s.odpOp r (r.op == 3))

/-- STAGE_DATA (R435). -/
def execStageData (r : OdpMsg) (s : State) : Answer := .next (s.odpOp r (r.op == 4))

/-- STAGE_COMMIT (R435). -/
def execStageCommit (r : OdpMsg) (s : State) : Answer := .next (s.odpOp r (r.op == 5))

/-- STAGE_CANCEL (R435). -/
def execStageCancel (r : OdpMsg) (s : State) : Answer := .next (s.odpOp r (r.op == 6))

/-! ### Time (R433, R435, R437) -/

/-- A due time is reached, and what time ends has ended. -/
def State.odpDue (s : State) (t : Option Nat) : State :=
  match t with
  | some t =>
    let s := s.advanceTo t
    { s with odp := s.odp.prune s.clock }
  | none => s

/-- STAGE_EXPIRY handle: 10 s after its last frame. -/
def execStageExpiry (handle : Nat) (s : State) : Answer := .next (s.odpDue ((s.stageOf handle).map fun x => x.at_ + 10000000))

/-- SNAPSHOT_EXPIRY handle: 2 s after its last READ. -/
def execSnapshotExpiry (handle : Nat) (s : State) : Answer :=
  .next (s.odpDue ((s.odp.snapshots.find? fun x => x.handle == handle).map fun x => x.at_ + 2000000))

/-- CHALLENGE_EXPIRY src: 30 s after it was read. -/
def execChallengeExpiry (src : Source) (s : State) : Answer :=
  .next (s.odpDue ((s.odp.challenges.find? fun x => x.src == src).map fun x => x.at_ + 30000000))

/-- SESSION_TIMEOUT session: 300 s after its last sealed write or open. -/
def execSessionTimeout (session : Nat) (s : State) : Answer :=
  .next (s.odpDue ((s.odp.sessions.find? fun x => x.number == session).map fun x => x.at_ + 300000000))

/-! ### Sessions and keys (R437, R439, R449, R455) -/

/-- SESSION_CHALLENGE: a READ of 0x9010:01. -/
def execSessionChallenge (r : OdpMsg) (s : State) : Answer := .next (s.odpOp r (r.op == 1 && r.index == 0x9010 && r.subindex == 1))

/-- SESSION_OPEN: 0x9010:02. -/
def execSessionOpen (r : OdpMsg) (s : State) : Answer := .next (s.odpWriteOf r fun i n _ => i == 0x9010 && n == 2)

/-- SESSION_CLOSE: 0x9010:03. -/
def execSessionClose (r : OdpMsg) (s : State) : Answer := .next (s.odpWriteOf r fun i n _ => i == 0x9010 && n == 3)

/-- OPERATOR_KEY: 0x9020. -/
def execOperatorKey (r : OdpMsg) (s : State) : Answer := .next (s.odpWriteOf r fun i _ _ => i == 0x9020)

/-- KEY_CLEAR: 0x9021. -/
def execKeyClear (r : OdpMsg) (s : State) : Answer := .next (s.odpWriteOf r fun i _ _ => i == 0x9021)

/-- VENDOR_KEY_REVOKE: 0x9003:02. -/
def execVendorKeyRevoke (r : OdpMsg) (s : State) : Answer := .next (s.odpWriteOf r fun i n _ => i == 0x9003 && n == 2)

/-- OWNER_REQUIRED: 0x9004. -/
def execOwnerRequired (r : OdpMsg) (s : State) : Answer := .next (s.odpWriteOf r fun i _ _ => i == 0x9004)

/-! ### Attestation (R456, R457) -/

/-- ATTEST_NONCE: 0x9002:01. -/
def execAttestNonce (r : OdpMsg) (s : State) : Answer := .next (s.odpWriteOf r fun i n _ => i == 0x9002 && n == 1)

/-- The report in hand is signed: it is in ATTEST_REPORT, its write completes, and the next report is made. -/
def State.reportSigned (s : State) : State :=
  match s.odp.attesting with
  | [] => s
  | (body, m) :: rest =>
    let sig := attestSign s.freeIdx (sha3 body)
    let s := { s with freeIdx := s.freeIdx + 1, odp := { s.odp with report := body ++ sig, reportSeq := s.odp.reportSeq + 1, attesting := rest } }
    let s := s.odpDone m 0x9002 1
    match rest with
    | [] => s
    | (nonce, n) :: more => { s with odp := { s.odp with attesting := (s.attestBody nonce, n) :: more } }

/-- ATTEST_REPORT_SIGNED (R456). -/
def execAttestReportSigned (s : State) : Answer := .next s.reportSigned

/-! ### Bring-up, clocks, defects (R270, R338, R365, R366, R377, R382) -/

/-- ENGINE_ID: 0x6001:01. -/
def execEngineId (r : OdpMsg) (s : State) : Answer := .next (s.odpWriteOf r fun i _ _ => i == 0x6001)

/-- RESTART: 0x2010:03. -/
def execRestart (r : OdpMsg) (s : State) : Answer := .next (s.odpWriteOf r fun i n _ => i == 0x2010 && n == 3)

/-- MGMT_IMAGE: 0x2011:01. -/
def execMgmtImage (r : OdpMsg) (s : State) : Answer := .next (s.odpWriteOf r fun i _ _ => i == 0x2011)

/-- The image is in flash and its write completes (R366). -/
def State.imageWritten (s : State) : State :=
  match s.boot.writing with
  | none => s
  | some (b, m) =>
    ({ s with
      boot := { s.boot with writing := none }
      flash := { s.flash with image := b } } : State).odpDone m 0x2011 1

/-- MGMT_IMAGE_FLASH_DONE (R366). -/
def execMgmtImageFlashDone (s : State) : Answer := .next s.imageWritten

/-- SPREAD_WRITE: 0x3002. -/
def execSpreadWrite (r : OdpMsg) (s : State) : Answer := .next (s.odpWriteOf r fun i _ _ => i == 0x3002)

/-- FIELD_SOURCE: 0x3030. -/
def execFieldSource (r : OdpMsg) (s : State) : Answer := .next (s.odpWriteOf r fun i _ _ => i == 0x3030)

/-- HISTORY_CLEAR: 0x7030:02. -/
def execHistoryClear (r : OdpMsg) (s : State) : Answer := .next (s.odpWriteOf r fun i n _ => i == 0x7030 && n == 2)

/-! ### Relend (R271, R277, R278) -/

/-- ROUTE_TABLE: 0x6003:01. -/
def execRouteTable (r : OdpMsg) (s : State) : Answer := .next (s.odpWriteOf r fun i _ _ => i == 0x6003)

/-- WINDOW_RECORD_WRITE: 0x6100–0x611F. -/
def execWindowRecordWrite (r : OdpMsg) (s : State) : Answer := .next (s.odpWriteOf r fun i _ _ => decide (0x6100 ≤ i ∧ i ≤ 0x611F))

/-- WINDOW_OPEN: WINDOW_CMD 0x6120:01 with a command that is not CLOSE. -/
def execWindowOpen (r : OdpMsg) (s : State) : Answer := .next (s.odpWriteOf r fun i _ v => i == 0x6120 && bits v 12 4 != 2)

/-- WINDOW_CLOSE: WINDOW_CMD 0x6120:01 with CLOSE. -/
def execWindowClose (r : OdpMsg) (s : State) : Answer := .next (s.odpWriteOf r fun i _ v => i == 0x6120 && bits v 12 4 == 2)

/-- The last accepted request of a CLOSING window has been answered: it is CLOSED and its closes complete (R278). -/
def State.windowCloses (s : State) (n : Nat) : State :=
  let w := s.window n
  if w.mode = .closing ∧ w.busy = 0 then w.closers.foldl (fun (s : State) m => s.odpDone m 0x6120 1) (s.mapWindow n fun w => { w with mode := .closed, closers := [] }) else s

/-- WINDOW_CLOSE_COMPLETE w (R278). -/
def execWindowCloseComplete (w : Nat) (s : State) : Answer := answerIf (decide (w < 4096)) (s.windowCloses w)

/-! ### Queries, marks, queue pairs, the recorder (R444, R445, R466, R481) -/

/-- MUSTER_QUERY: 0xA011:01. -/
def execMusterQuery (r : OdpMsg) (s : State) : Answer := .next (s.odpWriteOf r fun i n _ => i == 0xA011 && n == 1)

/-- TALLY_QUERY: 0xA040:01. -/
def execTallyQuery (r : OdpMsg) (s : State) : Answer := .next (s.odpWriteOf r fun i n _ => i == 0xA040 && n == 1)

/-- ROUTER_MARKS: 0xA030:01. -/
def execRouterMarks (r : OdpMsg) (s : State) : Answer := .next (s.odpWriteOf r fun i _ _ => i == 0xA030)

/-- QP_ARM: a queue-pair write of a STATE other than RESET. -/
def execQpArm (r : OdpMsg) (s : State) : Answer := .next (s.odpWriteOf r fun i _ v => i == 0x6320 && v % 256 != 0)

/-- QP_RESET: a queue-pair write of STATE RESET. -/
def execQpReset (r : OdpMsg) (s : State) : Answer := .next (s.odpWriteOf r fun i _ v => i == 0x6320 && v % 256 == 0)

/-- No line of the pair is in flight any more: the reset writes that wait take effect in turn and complete (R481). -/
def State.pairResets (s : State) (n : Nat) : State :=
  let q := s.pair n
  if !q.jobs.isEmpty then s
  else q.resetting.foldl (fun (s : State) e => (s.mapPair n fun x => x.cleared e.2).odpDone e.1 0x6320 (n + 1)) s

/-- QP_RESET_DONE q (R481). -/
def execQpResetDone (q : Nat) (s : State) : Answer := answerIf (decide (q < 64)) (s.pairResets q)

/-- FREEZE: 0x8010:01 with a target. -/
def execFreeze (r : OdpMsg) (s : State) : Answer := .next (s.odpWriteOf r fun i n v => i == 0x8010 && n == 1 && v != 0xFF)

/-- THAW: 0x8010:01 with 0xFF. -/
def execThaw (r : OdpMsg) (s : State) : Answer := .next (s.odpWriteOf r fun i n v => i == 0x8010 && n == 1 && v == 0xFF)

end Sys2Proof.Machine
end

