-- ==== Sys2Proof/Machine/Host.lean ====
section
/-!
DEFINITION. The Ethernet ports (R476–R489): frames, the OSFP cage, and the RoCEv2 responder with its queue pairs (R480–R484).
-/
namespace Sys2Proof.Machine

/-! ### Counters, responses, errors (R483, R484, R489) -/

/-- Count at 0x6301, saturating (R489). -/
def State.ethCount (s : State) (n : Nat) : State :=
  { s with eth := { s.eth with counters := s.eth.counters.upd 0 n fun v => satAdd 0xFFFFFFFF v 1 } }

def ethBufferDrops : Nat := 1
def ethTagged : Nat := 2
def ethPause : Nat := 3
def ethUdp : Nat := 4
def ethNaks : Nat := 5
def ethCnps : Nat := 6
def ethQpDiscards : Nat := 7

/-- A RoCEv2 response leaves. -/
def State.rdmaSend (s : State) (r : RdmaReply) : State := { s with eth := { s.eth with sent := s.eth.sent ++ [r] } }

/-- Kinds of NAK (R483). -/
def nakSequence : Nat := 0
def nakInvalid : Nat := 1
def nakAccess : Nat := 2
def nakOperational : Nat := 3

/-- A NAK leaves; all but a sequence error put the pair in ERROR (R483). -/
def State.rdmaNak (s : State) (q psn kind : Nat) : State :=
  let s := (s.ethCount ethNaks).rdmaSend (.nak q (psn % 2 ^ 24) kind)
  if kind = nakSequence then s else s.mapPair q fun x => { x with mode := .error }

/-- An error is recorded: the pair, the window and the loft address (R483). -/
def State.rdmaNote (s : State) (q : Nat) (code : Code) (window addr : Nat) : State :=
  s.note recEvent code 0 noPlace (leBytes 1 q ++ leBytes 2 window ++ leBytes 8 addr)

/-! ### Lines (R482) -/

/-- The gateway of a pair: 16,320 + q, or the next live one above it. -/
def State.pairGate (s : State) (q : Nat) : Nat :=
  match (List.range 16384).find? fun i => !(s.gate ((16320 + q + i) % 16384)).lost with
  | some i => (16320 + q + i) % 16384
  | none => 16320 + q

/-- The arrival tally of a window rises for one line (R292, R482): a cell out of service never acknowledges it. -/
def State.rdmaArrival (s : State) (q : Nat) (w : Window) : Code × State :=
  let c : Coord := { x := w.arrivalX, y := w.arrivalY }
  if !w.arrivalEn then (Codes.ok, s)
  else if !c.present || s.cellOut c then (Codes.e2eGiveup, s)
  else (Codes.ok, s.absorb ((s.work c).addTally w.arrivalTally 1 (some (gateCoord (s.pairGate q)))))

/-- The lines of a WRITE packet are written; the first that fails, with its address. -/
def State.rdmaWriteLines (s : State) (q : Nat) (j : RdmaJob) (data : List Byte) (t : List LineTrouble) : Option (Code × Nat) × State :=
  let w := match j.window with | some n => s.window n | none => Window.zero
  (List.range (data.length / 64)).foldl (fun (acc : Option (Code × Nat) × State) k =>
    let a := j.addr + 64 * k
    let (st, u) := acc.2.loftWrite a ((sliceOf data (64 * k) 64).map PByte.ofData) (t.getD k .none)
    let (st, u) := if st = Codes.ok then u.rdmaArrival q w else (st, u)
    (if acc.1.isNone ∧ st ≠ Codes.ok then some (st, a) else acc.1, u)) (none, s)

/-- The lines of a READ request are read: data and status of each. -/
def State.rdmaReadLines (s : State) (j : RdmaJob) (lines : Nat) (t : List LineTrouble) : List (List Byte × Code) × State :=
  (List.range lines).foldl (fun (acc : List (List Byte × Code) × State) k =>
    let (d, st, u) := acc.2.loftRead (j.addr + 64 * k) (t.getD k .none)
    let st := if st = Codes.ok ∧ d.poisoned then Codes.loftUncorrectable else st
    (acc.1 ++ [(d.map (·.data), st)], u)) ([], s)

/-- BTH opcode of a READ Response by its place: First, Middle, Last or Only (R480). -/
def responseOpcode (first last : Bool) : Nat := if first then (if last then 0x10 else 0x0D) else if last then 0x0F else 0x0E

/-- READ Responses of up to 4,096 bytes, until one with a line that failed: a NAK in its place (R483); `fuel` bounds their number. -/
def State.rdmaResponses : Nat → State → Bool → Nat → Nat → Nat → Nat → List (List Byte × Code) → State
  | 0, s, _, _, _, _, _, _ => s
  | fuel + 1, s, first, q, window, psn, addr, lines =>
    let now := lines.take 64
    match now.findIdx? fun l => l.2 != Codes.ok with
    | some k => (s.rdmaNote q ((now.map (·.2)).getD k Codes.ok) window (addr + 64 * k)).rdmaNak q psn nakOperational
    | none =>
      let last := (lines.drop 64).isEmpty
      let s := s.rdmaSend (.read q (psn % 2 ^ 24) (responseOpcode first last) (now.flatMap (·.1)))
      if last then s else State.rdmaResponses fuel s false q window (psn + 1) (addr + 4096) (lines.drop 64)

/-! ### Answers in PSN order (R482) -/

/-- Lines of a packet. -/
def RdmaJob.lines (j : RdmaJob) : Nat := match j.use with | .write data => data.length / 64 | .read n => n | .nak _ => 0

/-- What a packet asked for is done, and answered unless the pair is in ERROR, when no NAK but the first goes out; every error is recorded (R483). -/
def State.rdmaAnswer (s : State) (q : Nat) (j : RdmaJob) (t : List LineTrouble) : State :=
  let silent := decide ((s.pair q).mode ≠ .rts)
  let window := j.window.getD 0
  match j.use with
  | .nak kind => if silent then s else s.rdmaNak q j.psn kind
  | .write data =>
    let (failed, s) := s.rdmaWriteLines q j data t
    match failed with
    | some (code, a) => let s := s.rdmaNote q code window a; if silent then s else s.rdmaNak q j.psn nakOperational
    | none => if silent then s else s.rdmaSend (.ack q j.psn)
  | .read n =>
    let (lines, s) := s.rdmaReadLines j n t
    if silent then
      match lines.findIdx? fun l => l.2 != Codes.ok with
      | some k => s.rdmaNote q ((lines.map (·.2)).getD k Codes.ok) window (j.addr + 64 * k)
      | none => s
    else State.rdmaResponses (n + 1) s true q window j.psn j.addr lines

/-- The first packet of a pair ends; its window has one request fewer in hand (R278). -/
def State.rdmaHeadEnds (s : State) (q : Nat) (t : List LineTrouble) : State :=
  match (s.pair q).jobs with
  | [] => s
  | j :: rest =>
    let s := (s.mapPair q fun x => { x with jobs := rest }).rdmaAnswer q j t
    match j.window with
    | some n => s.mapWindow n fun w => { w with busy := w.busy - 1 }
    | none => s

/-- Packets at the front that have no lines in flight are answered; `fuel` bounds their number. -/
def State.rdmaSettle : Nat → State → Nat → State
  | 0, s, _ => s
  | fuel + 1, s, q =>
    match (s.pair q).jobs with
    | j :: _ => if j.lines = 0 then State.rdmaSettle fuel (s.rdmaHeadEnds q []) q else s
    | [] => s

/-- A packet waits for its answer. -/
def State.rdmaQueue (s : State) (q : Nat) (j : RdmaJob) : State :=
  let s := s.mapPair q fun x => { x with jobs := x.jobs ++ [j] }
  State.rdmaSettle (s.pair q).jobs.length s q

/-- The lines of the first packet have completed, with what went wrong with each; packets behind it that have none are answered. -/
def State.rdmaLines (s : State) (q : Nat) (t : List LineTrouble) : State :=
  let s := s.rdmaHeadEnds q t
  State.rdmaSettle (s.pair q).jobs.length s q

/-- RDMA_LINES_DONE q lines (R482). -/
def execRdmaLinesDone (q : Nat) (lines : List LineTrouble) (s : State) : Answer := answerIf (decide (q < 64)) (s.rdmaLines q lines)

/-! ### Packets (R480, R482–R484) -/

/-- Kinds of request. -/
inductive RdmaKind | first | middle | last | only | read | other
  deriving DecidableEq, Repr

/-- Does a pair take packets (R483)? -/
def QueuePair.takes (q : QueuePair) : Bool :=
  q.mode == .rts && q.resetting.isEmpty && !q.jobs.any fun j => match j.use with | .nak k => k != nakSequence | _ => false

/-- An error that sets ERROR is found: recorded, and its NAK follows what was accepted before (R482, R483). -/
def State.rdmaFault (s : State) (pkt : RdmaPkt) (kind : Nat) (code : Code) (rkey addr : Nat) : State :=
  (s.rdmaNote pkt.qp code (rkey % 4096) addr).rdmaQueue pkt.qp { psn := pkt.psn, use := .nak kind, window := none, addr }

/-- The window check of a packet against the window its R_Key names (R278, R279, R482). -/
def State.rdmaCheck (s : State) (n kind addr len : Nat) : Bool × State :=
  let w := s.window n
  if w.mode == .open_ && w.covers 0 addr len && w.allows kind then
    (true, s.mapWindow n fun w => { w with accepted := satAdd 0xFFFFFFFF w.accepted 1, busy := w.busy + 1 })
  else if w.covers 0 addr len then (false, s.mapWindow n fun w => { w with rejected := satAdd 0xFFFFFFFF w.rejected 1 })
  else (false, s)

/-- Is the request ill-formed (R480, R483)? The message is the one in progress before it. -/
def State.rdmaBad (s : State) (pkt : RdmaPkt) (kind : RdmaKind) (message : Option (Nat × Nat)) (rkey addr : Nat) : Bool :=
  let x := s.pair pkt.qp
  let order := match kind with
    | .first | .only => message.isSome
    | .middle | .last => message.isNone
    | .read => decide (16 ≤ countOf (fun (j : RdmaJob) => match j.use with | .read _ => true | _ => false) x.jobs)
    | .other => true
  let length := if kind = .read then pkt.dmaLen else pkt.payload.length
  order || decide (rkey / 4096 ≠ 0) || decide ((s.window (rkey % 4096)).space ≠ 0) || decide (addr % 64 ≠ 0 ∨ length % 64 ≠ 0) ||
  ((kind == .first || kind == .only) && decide (pkt.dmaLen % 64 ≠ 0)) || (kind != .read && decide (4096 < length))

/-- A packet whose PSN is the expected one, or a READ request again (R482, R483). -/
def State.rdmaTake (s : State) (pkt : RdmaPkt) (kind : RdmaKind) (again : Bool) : State :=
  let q := pkt.qp
  let message := (s.pair q).message
  let (rkey, addr) := match kind, message with
    | .middle, some m => m
    | .last, some m => m
    | _, _ => (pkt.rkey, pkt.va)
  let read := decide (kind = .read)
  let length := if read then pkt.dmaLen else pkt.payload.length
  if s.rdmaBad pkt kind message rkey addr then s.rdmaFault pkt nakInvalid Codes.configInvalid rkey addr
  else
    let s := if again then s else s.mapPair q fun x =>
      { x with
        psn := (pkt.psn + (if read then max 1 ((length + 4095) / 4096) else 1)) % 2 ^ 24
        message := if read then x.message else if kind = .first ∨ kind = .middle then some (rkey, addr + length) else none }
    match s.rdmaCheck (rkey % 4096) (if read then kRead else kWrite) addr length with
    | (false, s) => s.rdmaFault pkt nakAccess Codes.windowClosed rkey addr
    | (true, s) => s.rdmaQueue q { psn := pkt.psn, use := if read then .read (length / 64) else .write pkt.payload, window := some (rkey % 4096), addr }

/-- A CE mark draws a CNP, at most one per pair in 50 µs (R484). -/
def State.rdmaMarked (s : State) (q : Nat) (ce : Bool) : State :=
  let due := match (s.pair q).cnpAt with | some t => decide (t + 50 ≤ s.clock) | none => true
  if ce && due then ((s.mapPair q fun x => { x with cnpAt := some s.clock }).ethCount ethCnps).rdmaSend (.cnp q) else s

/-- A packet in its place in the PSN sequence (R482, R483): expected, ahead of it, or seen before. A sequence error is recorded with CONFIG_INVALID, the spec
naming no code for it (log entry 106). -/
def State.rdmaPlace (s : State) (pkt : RdmaPkt) (kind : RdmaKind) : State :=
  let x := s.pair pkt.qp
  let ahead := (pkt.psn + 2 ^ 24 - x.psn) % 2 ^ 24
  if ahead = 0 then (s.mapPair pkt.qp fun x => { x with naked := false }).rdmaTake pkt kind false
  else if ahead < 2 ^ 23 then
    if x.naked then s
    else ((s.rdmaNote pkt.qp Codes.configInvalid (pkt.rkey % 4096) pkt.va).mapPair pkt.qp fun x => { x with naked := true }).rdmaQueue pkt.qp { psn := x.psn, use := .nak nakSequence, window := none, addr := 0 }
  else match kind with
    | .read | .other => s.rdmaTake pkt kind true
    | _ => s.rdmaQueue pkt.qp { psn := pkt.psn, use := .write [], window := none, addr := 0 }

/-- A RoCEv2 packet reaches a queue pair (R483). -/
def State.rdmaPacket (s : State) (pkt : RdmaPkt) (kind : RdmaKind) : State :=
  if !(s.pair pkt.qp).takes then s.ethCount ethQpDiscards else (s.rdmaMarked pkt.qp pkt.ce).rdmaPlace pkt kind

/-- A RoCEv2 packet while the link is up. -/
def State.rdmaArrives (s : State) (pkt : RdmaPkt) (kind : RdmaKind) : State := if s.eth.up then s.rdmaPacket pkt kind else s

/-- RDMA_WRITE_FIRST (R482). -/
def execRdmaWriteFirst (pkt : RdmaPkt) (s : State) : Answer := answerIf (decide (pkt.qp < 64)) (s.rdmaArrives pkt .first)

/-- RDMA_WRITE_MIDDLE (R482). -/
def execRdmaWriteMiddle (pkt : RdmaPkt) (s : State) : Answer := answerIf (decide (pkt.qp < 64)) (s.rdmaArrives pkt .middle)

/-- RDMA_WRITE_LAST (R482). -/
def execRdmaWriteLast (pkt : RdmaPkt) (s : State) : Answer := answerIf (decide (pkt.qp < 64)) (s.rdmaArrives pkt .last)

/-- RDMA_WRITE_ONLY (R482). -/
def execRdmaWriteOnly (pkt : RdmaPkt) (s : State) : Answer := answerIf (decide (pkt.qp < 64)) (s.rdmaArrives pkt .only)

/-- RDMA_READ_REQUEST (R482). -/
def execRdmaReadRequest (pkt : RdmaPkt) (s : State) : Answer := answerIf (decide (pkt.qp < 64)) (s.rdmaArrives pkt .read)

/-! ### Frames, link and cage (R476–R479) -/

/-- UDP ports (R479). -/
def udpHcp : Nat := 17460
def udpOdp : Nat := 17461
def udpRoce : Nat := 4791

/-- The receive buffer (R478). -/
def rxRoom : Nat := 4194304

/-- RoCEv2 operations the engine accepts, by BTH opcode: RDMA WRITE First, Middle, Last, Only, RDMA READ Request (R480). -/
def rocePlain : List Nat := [0x06, 0x07, 0x08, 0x0A, 0x0C]

/-- A RoCEv2 datagram of any other operation draws a NAK Invalid Request at its queue pair, and a CNP where it is marked (R480, R484). -/
def State.roceOther (s : State) (b : List Byte) (ce : Bool) : State :=
  let qp := beNat (sliceOf b 5 3)
  if b.length < 12 ∨ numAt b 0 1 ∈ rocePlain ∨ qp < 0x100 ∨ 0x140 ≤ qp then s
  else s.rdmaPacket { qp := qp - 0x100, psn := beNat (sliceOf b 9 3), rkey := 0, va := 0, dmaLen := 0, payload := [], ce } .other

/-- MAC addresses of the ports (R444). -/
def portMac : MgmtPort → Nat
  | .host => Config.factoryNat 0x6300 1 0 % 2 ^ 48
  | .field => Config.factoryNat 0x6310 1 0 % 2 ^ 48

/-- The IPv6 link-local address formed from a MAC address by modified EUI-64: FE80, then the address split by FFFE with the bit of its first octet that
marks a local address turned (R476, R479). -/
def linkLocal (mac : Nat) : Nat :=
  0xFE80 * 2 ^ 112 + ((mac / 2 ^ 24) ^^^ 0x020000) * 2 ^ 40 + 0xFFFE * 2 ^ 24 + mac % 2 ^ 24

/-- Is an address one of a port's: its link-local address, and at the host port HOST_IPV6 and HOST_IPV4 where they are not zero (R476, R479)? -/
def State.addressed (s : State) (f : EthFrame) : Bool :=
  if f.ipv4 then f.port == .host && s.odp.ipv4 != 0 && f.dest == s.odp.ipv4
  else f.dest == linkLocal (portMac f.port) || (f.port == .host && beNat s.odp.ipv6 != 0 && f.dest == beNat s.odp.ipv6)

/-- An ARP request, a neighbour solicitation or an echo request at a port's own address is answered (R476, R479). -/
def State.ethAnswer (s : State) (f : EthFrame) : State :=
  let new : EthAnswer := { port := f.port, dest := f.src, kind := f.kind, addr := f.dest, mac := portMac f.port, payload := if f.kind = .echo then f.payload else [] }
  { s with eth := { s.eth with answers := s.eth.answers ++ [new] } }

/-- Does a frame ask for such an answer? ARP is of IPv4, neighbour discovery of IPv6. -/
def frameAsks (f : EthFrame) : Bool := match f.kind with | .arp => f.ipv4 | .neighbour => !f.ipv4 | .echo => true | .udp | .other => false

/-- A datagram for the dictionary's server that is too short for a header is discarded and counted (R426). -/
def State.odpShort (s : State) (f : EthFrame) : State :=
  if s.odpServed f.port then { s with odp := { s.odp with discards := satAdd 0xFFFFFFFF s.odp.discards 1 } } else s

/-- A datagram for a server of the engine is handed to it; RoCEv2 goes to its queue pair, one too short for ODP nowhere (R426, R479). -/
def State.datagram (s : State) (f : EthFrame) : State :=
  if f.dstUdp = udpOdp ∧ f.payload.length < 32 then s.odpShort f
  else
    let s := { s with eth := { s.eth with rx := s.eth.rx ++ [f] } }
    if f.dstUdp = udpRoce then s.roceOther f.payload f.ce else s

/-- A frame at the host port, its link up (R478, R479). -/
def State.hostFrame (s : State) (f : EthFrame) : State :=
  if !s.eth.up then s
  else if f.tagged then s.ethCount ethTagged
  else if f.pause then s.ethCount ethPause
  else if f.length < 64 ∨ 9216 < f.length then s
  else if rxRoom < ((s.eth.rx.filter fun g => g.port == .host).map (·.length)).sum + f.length then s.ethCount ethBufferDrops
  else if !s.addressed f then s
  else if frameAsks f then s.ethAnswer f
  else if f.kind ≠ EthKind.udp then s
  else if !(f.checksumOk || f.ipv4Zero) then s.ethCount ethUdp
  else if f.dstUdp ≠ udpHcp ∧ f.dstUdp ≠ udpOdp ∧ f.dstUdp ≠ udpRoce then s.ethCount ethUdp
  else s.datagram f

/-- A frame at the field-network port (R476): ODP alone is carried, HCP and RoCEv2 are discarded and counted. -/
def State.fieldFrame (s : State) (f : EthFrame) : State :=
  if f.length < 64 ∨ 1518 < f.length ∨ !s.addressed f then s
  else if frameAsks f then s.ethAnswer f
  else if f.kind ≠ EthKind.udp ∨ !f.checksumOk then s
  else if f.dstUdp = udpHcp ∨ f.dstUdp = udpRoce then { s with eth := { s.eth with fieldDiscards := s.eth.fieldDiscards + 1 } }
  else if f.dstUdp = udpOdp then s.datagram f
  else s

/-- ETH_FRAME_RECEIVE (R478). -/
def execEthFrameReceive (frame : EthFrame) (s : State) : Answer :=
  .next (if !s.boot.powered || !s.boot.refclk then s else match frame.port with
    | .host => s.hostFrame frame
    | .field => s.fieldFrame frame)

/-- HOST_LINK_DOWN: the link goes down (up = false) or comes back, over a module that is powered; commands and queue pairs keep their state (R477, R478). -/
def execHostLinkDown (up : Bool) (s : State) : Answer :=
  .next (if s.boot.powered && s.boot.refclk && !s.boot.minimal then { s with eth := { s.eth with up := up && s.eth.module_ } } else s)

/-- OSFP_MODULE_INSERTED watts: powered, or refused above 18 W, when no link stands over it (R477); in minimal mode the port is unpowered (R364). -/
def execOsfpModuleInserted (watts : Nat) (s : State) : Answer :=
  .next (if s.boot.powered && s.boot.refclk && !s.boot.minimal then { s with eth := { s.eth with module_ := decide (watts ≤ 18), up := s.eth.up && decide (watts ≤ 18) } } else s)

end Sys2Proof.Machine
end

