-- ==== Sys2Proof/Machine/RelendServe.lean ====
section
/-!
DEFINITION. Relend as a server (R274, R278, R279, R291–R294, R434): inbound requests, reads of the object dictionary, ACCEPT and RESPONSE.
-/
namespace Sys2Proof.Machine

/-- Is a frame addressed to space 0xE? -/
def Frame.toDictionary (f : Frame) : Bool := bits f.addr 48 4 == 0xE

/-- A request for space 0xE (R274, R434): a READ is answered with LEN bytes of the value (R285), zeros behind a shorter one (log entry 134); anything else is
refused, since the space is read-only. -/
def State.dictionaryRead (s : State) (f : Frame) : State :=
  match if f.kind = kRead then s.odpRelend (bits f.addr 0 48) else none with
  | some b => ({ s with freeIdx := s.freeIdx + readFree } : State).sendReply f kResponse false Codes.ok false ((b ++ List.replicate f.len (0 : Byte)).take f.len)
  | none => s.sendReply f kNack false Codes.configInvalid false []

/-- An inbound request of a kind at a port. -/
def State.inbound (s : State) (p kind : Nat) : State :=
  match s.heldKind p kind with
  | none => s
  | some (f, s) => if f.toDictionary then (s.freeRoom p f).dictionaryRead f else s.serve p f

/-- RELEND_READ p (R292). -/
def execRelendRead (p : Nat) (s : State) : Answer := answerIf (portOk p) (s.inbound p kRead)

/-- RELEND_WRITE p (R292, R293). -/
def execRelendWrite (p : Nat) (s : State) : Answer := answerIf (portOk p) (s.inbound p kWrite)

/-- RELEND_INC p (R292, R293). -/
def execRelendInc (p : Nat) (s : State) : Answer := answerIf (portOk p) (s.inbound p kInc)

/-- Has a request had every acknowledgement it needs (R292)? -/
def State.served (s : State) (i : Inbound) : Bool := i.done.isSome && i.open_ == 0 && !s.owesArrival i

/-- The RESPONSE of an inbound request whose mesh requests are all acknowledged (R287, R292); its outcome is stored (R293) and its window has one
request fewer in hand (R278). -/
def State.respond (s : State) (g : Nat) (i : Inbound) (status : Code) (data : Payload) : State :=
  let f := i.frame
  let s := s.mapGate g fun x => { x with inbound := x.inbound.filter fun j => j.id != i.id }
  let s :=
    if f.kind = kRead then s
    else s.mapGate g fun x => x.store { src := f.src, port := f.srcPort, tag := f.tag, seq := f.seq, status, at_ := s.clock } s.clock
  let s := s.mapWindow i.window fun w => { w with busy := w.busy - 1 }
  let out := if f.kind = kRead ∧ status = Codes.ok then data else []
  (s.sendReply f kResponse false status out.poisoned (out.map fun b => if out.poisoned then 0 else b.data)).gatePump g

/-- The first request at a gateway that is ready is answered. -/
def State.serveEnds (s : State) (g : Nat) : State :=
  match (s.gate g).inbound.find? s.served with
  | none => s
  | some i => match i.done with
    | some (status, data) => s.respond g i status data
    | none => s

/-- Is it a gateway (R280)? -/
def gateOk (g : Nat) : Bool := decide (g < 16384)

/-- RELEND_SERVE_COMPLETE g (R292). -/
def execRelendServeComplete (g : Nat) (s : State) : Answer := answerIf (gateOk g) (s.serveEnds g)

/-- The request whose 4 µs run out first: one not told yet, or any while a flip is pending (R291). -/
def State.toTell (s : State) (g : Nat) : Option Inbound :=
  ((s.gate g).inbound.filter fun i => !i.told || s.flipPending).foldl (fun (a : Option Inbound) i => match a with
    | some j => if i.since < j.since then some i else some j
    | none => some i) none

/-- An ACCEPT is sent, with HOLD during a flip (R291). -/
def State.tell (s : State) (g : Nat) : State :=
  match s.toTell g with
  | none => s
  | some i =>
    let s := s.advanceTo (i.since + 4)
    let s := s.mapInbound g i.id fun i => { i with told := true, since := s.clock }
    s.sendReply i.frame kAccept s.flipPending Codes.ok false []

/-- ACCEPT_TIMER g (R291). -/
def execAcceptTimer (g : Nat) (s : State) : Answer := answerIf (gateOk g) (s.tell g)

end Sys2Proof.Machine
end

