-- ==== Sys2Proof/Machine/SeqCommands.lean ====
section
/-!
DEFINITION. The sequencer's commands (R41–R60): a core cycle, a cycle by the opcode that issues in it, a commit, the bank grants, the
mesh port and the sheepdog.
-/
namespace Sys2Proof.Machine

/-- Does a cell run cycles: it exists and is RUNNING (R49)? -/
def State.cycles (s : State) (c : Coord) : Bool := (s.cell c).mode == .running

/-- One core cycle of a running cell: the bank grants, then the sequencer (R49, R95, R113); a cell that is not running has none. -/
def State.cycle (s : State) (c : Coord) : State :=
  if s.cycles c then
    let s := s.grants c
    s.absorb (s.work c).seqCycle.1
  else s

/-- The core cycle of a running cell, where the operation that issues in it is the one named by class and opcode (R38, R41, R49); in any
other cycle the event does not arise (log entry 7). -/
def State.issueCycle (s : State) (c : Coord) (cls op : Nat) : State :=
  if s.cycles c then
    let t := s.grants c
    let r := (t.work c).seqCycle
    if r.2 = .issued cls op then t.absorb r.1 else s
  else s

/-- SEQUENCER_CYCLE c (R49). -/
def execSequencerCycle (c : Coord) (s : State) : Answer := atCell c (s.cycle c)

/-- NOP issues at cell c (R38). -/
def execNop (c : Coord) (s : State) : Answer := atCell c (s.issueCycle c 0 0)

/-- FENCE issues at cell c (R38). -/
def execFence (c : Coord) (s : State) : Answer := atCell c (s.issueCycle c 0 1)

/-- PRED_POP issues at cell c (R38, R45). -/
def execPredPop (c : Coord) (s : State) : Answer := atCell c (s.issueCycle c 0 2)

/-- PRED_SET issues at cell c (R38). -/
def execPredSet (c : Coord) (s : State) : Answer := atCell c (s.issueCycle c 0 3)

/-- AG_RESET issues at cell c (R38). -/
def execAgReset (c : Coord) (s : State) : Answer := atCell c (s.issueCycle c 0 4)

/-- MUSTER_ENTER issues at cell c (R256). -/
def execMusterEnter (c : Coord) (s : State) : Answer := atCell c (s.issueCycle c 0 5)

/-- COPY issues at cell c (R38, R40). -/
def execCopy (c : Coord) (s : State) : Answer := atCell c (s.issueCycle c 1 0)

/-- CONVERT issues at cell c (R64, R70, R72). -/
def execConvert (c : Coord) (s : State) : Answer := atCell c (s.issueCycle c 1 1)

/-- ZERO issues at cell c (R38). -/
def execZero (c : Coord) (s : State) : Answer := atCell c (s.issueCycle c 1 2)

/-- MAC issues at cell c (R61, R74, R78). -/
def execMac (c : Coord) (s : State) : Answer := atCell c (s.issueCycle c 2 0)

/-- ACC_OUT issues at cell c (R75, R76). -/
def execAccOut (c : Coord) (s : State) : Answer := atCell c (s.issueCycle c 2 1)

/-- ACC_SPILL issues at cell c (R73). -/
def execAccSpill (c : Coord) (s : State) : Answer := atCell c (s.issueCycle c 2 2)

/-- ACC_FILL issues at cell c (R73, R75). -/
def execAccFill (c : Coord) (s : State) : Answer := atCell c (s.issueCycle c 2 3)

/-- ANCHOR_SET issues at cell c (R77). -/
def execAnchorSet (c : Coord) (s : State) : Answer := atCell c (s.issueCycle c 2 4)

/-- VECTOR_ADD issues at cell c (R71). -/
def execVectorAdd (c : Coord) (s : State) : Answer := atCell c (s.issueCycle c 3 0)

/-- VECTOR_SUB issues at cell c (R71). -/
def execVectorSub (c : Coord) (s : State) : Answer := atCell c (s.issueCycle c 3 1)

/-- VECTOR_MUL issues at cell c (R71). -/
def execVectorMul (c : Coord) (s : State) : Answer := atCell c (s.issueCycle c 3 2)

/-- VECTOR_MAX issues at cell c (R71). -/
def execVectorMax (c : Coord) (s : State) : Answer := atCell c (s.issueCycle c 3 3)

/-- VECTOR_MIN issues at cell c (R71). -/
def execVectorMin (c : Coord) (s : State) : Answer := atCell c (s.issueCycle c 3 4)

/-- VECTOR_AND issues at cell c (R38). -/
def execVectorAnd (c : Coord) (s : State) : Answer := atCell c (s.issueCycle c 3 5)

/-- VECTOR_OR issues at cell c (R38). -/
def execVectorOr (c : Coord) (s : State) : Answer := atCell c (s.issueCycle c 3 6)

/-- VECTOR_XOR issues at cell c (R38). -/
def execVectorXor (c : Coord) (s : State) : Answer := atCell c (s.issueCycle c 3 7)

/-- CMP_LT issues at cell c (R71). -/
def execCmpLt (c : Coord) (s : State) : Answer := atCell c (s.issueCycle c 3 8)

/-- CMP_EQ issues at cell c (R71). -/
def execCmpEq (c : Coord) (s : State) : Answer := atCell c (s.issueCycle c 3 9)

/-- EXP2 issues at cell c (R86, R87). -/
def execExp2 (c : Coord) (s : State) : Answer := atCell c (s.issueCycle c 4 0)

/-- EXP issues at cell c (R86, R87). -/
def execExp (c : Coord) (s : State) : Answer := atCell c (s.issueCycle c 4 1)

/-- LOG2 issues at cell c (R86, R87). -/
def execLog2 (c : Coord) (s : State) : Answer := atCell c (s.issueCycle c 4 2)

/-- LOG issues at cell c (R86, R87). -/
def execLog (c : Coord) (s : State) : Answer := atCell c (s.issueCycle c 4 3)

/-- RECIP issues at cell c (R86, R87). -/
def execRecip (c : Coord) (s : State) : Answer := atCell c (s.issueCycle c 4 4)

/-- SQRT issues at cell c (R86, R87). -/
def execSqrt (c : Coord) (s : State) : Answer := atCell c (s.issueCycle c 4 5)

/-- RSQRT issues at cell c (R86, R87). -/
def execRsqrt (c : Coord) (s : State) : Answer := atCell c (s.issueCycle c 4 6)

/-- TANH issues at cell c (R86, R87). -/
def execTanh (c : Coord) (s : State) : Answer := atCell c (s.issueCycle c 4 7)

/-- SIGMOID issues at cell c (R86, R87). -/
def execSigmoid (c : Coord) (s : State) : Answer := atCell c (s.issueCycle c 4 8)

/-- SIN issues at cell c (R86, R87). -/
def execSin (c : Coord) (s : State) : Answer := atCell c (s.issueCycle c 4 9)

/-- COS issues at cell c (R86, R87). -/
def execCos (c : Coord) (s : State) : Answer := atCell c (s.issueCycle c 4 10)

/-- SORT issues at cell c (R88). -/
def execSort (c : Coord) (s : State) : Answer := atCell c (s.issueCycle c 4 11)

/-- TOPK issues at cell c (R89). -/
def execTopk (c : Coord) (s : State) : Answer := atCell c (s.issueCycle c 4 12)

/-- LOOKUP issues at cell c (R90–R94). -/
def execLookup (c : Coord) (s : State) : Answer := atCell c (s.issueCycle c 4 13)

/-- CAS32 issues at cell c (R97). -/
def execCas32 (c : Coord) (s : State) : Answer := atCell c (s.issueCycle c 5 0)

/-- CAS64 issues at cell c (R97). -/
def execCas64 (c : Coord) (s : State) : Answer := atCell c (s.issueCycle c 5 1)

/-- FADD32 issues at cell c (R97). -/
def execFadd32 (c : Coord) (s : State) : Answer := atCell c (s.issueCycle c 5 2)

/-- FADD64 issues at cell c (R97). -/
def execFadd64 (c : Coord) (s : State) : Answer := atCell c (s.issueCycle c 5 3)

/-- CCOUNT issues at cell c (R98). -/
def execCcount (c : Coord) (s : State) : Answer := atCell c (s.issueCycle c 5 4)

/-- DMA_ISSUE issues at cell c (R102). -/
def execDmaIssue (c : Coord) (s : State) : Answer := atCell c (s.issueCycle c 5 5)

/-- PUT issues at cell c (R37, R38). -/
def execPut (c : Coord) (s : State) : Answer := atCell c (s.issueCycle c 6 0)

/-- GET issues at cell c (R37, R38). -/
def execGet (c : Coord) (s : State) : Answer := atCell c (s.issueCycle c 6 1)

/-- TALLY_ADD issues at cell c (R38, R189). -/
def execTallyAdd (c : Coord) (s : State) : Answer := atCell c (s.issueCycle c 6 2)

/-- FLOCK_PUT issues at cell c (R38, R210). -/
def execFlockPut (c : Coord) (s : State) : Answer := atCell c (s.issueCycle c 6 3)

/-- RED_PUT issues at cell c (R38, R215, R216). -/
def execRedPut (c : Coord) (s : State) : Answer := atCell c (s.issueCycle c 6 4)

/-- ADD of class TALLY issues at cell c (R38, R46). -/
def execTallyClassAdd (c : Coord) (s : State) : Answer := atCell c (s.issueCycle c 7 0)

/-- CMP_CLEAR issues at cell c (R38, R250). -/
def execCmpClear (c : Coord) (s : State) : Answer := atCell c (s.issueCycle c 7 1)

/-- ITERATION_COMMIT c: the earliest iteration in flight becomes visible (R44). -/
def execIterationCommit (c : Coord) (s : State) : Answer := atCell c (s.event? c Work.nextCommit)

/-- SEQ_WRITE_SLOT_GRANT c: the writes that waited for their slots are applied where the banks grant them (R115). -/
def execSeqWriteSlotGrant (c : Coord) (s : State) : Answer := atCell c (s.event c Work.grantLate)

/-- The access that waits at a cell's mesh port, applied if its bank slots are granted, a read after the writes of its cycle (R95, R113). -/
def State.portGrant (s : State) (c : Coord) : State :=
  match (s.cell c).mesh.port with
  | none => s
  | some (p, _) =>
    let s := if p.type = tGet then s.writePhase c else s
    s.event? c fun w => w.portAccess (s.dmaWait c)

/-- SCRATCHPAD_BANK_GRANT c: the banks grant the waiting requests, oldest first: the writes of the mesh port, the DMA channels and the sequencer, then
the reads (R95, R113, R115). -/
def execScratchpadBankGrant (c : Coord) (s : State) : Answer := atCell c (s.grants c)

/-- MESH_PORT_ACCESS c (R95). -/
def execMeshPortAccess (c : Coord) (s : State) : Answer := atCell c (s.portGrant c)

/-- Is a DMA channel of the cell held at the Relend in-flight bound (R59, R103)? -/
def State.channelHeld (s : State) (c : Coord) : Bool := (List.range 4).any fun ch => (s.channel c ch).stalled

/-- SHEEPDOG c: the count of an unbroken stall reaches LIMIT_US (R59, R60); once in a stall. -/
def execSheepdog (c : Coord) (s : State) : Answer :=
  atCell c (
    let q := (s.cell c).seq
    if (s.work c).watched && !q.barked then
      (s.advanceTo (q.stallFrom + (s.cell c).regs.sheepdogUs)).event c fun w =>
        (w.mapSeq fun q => { q with barked := true }).raiseHere (if s.channelHeld c then Codes.inflightStall else Codes.sheepdog) 0
    else s)

end Sys2Proof.Machine
end

