-- ==== Sys2Proof/Machine/Dispatch.lean ====
section
/-!
DEFINITION. The meaning of each command, one arm per constructor.
-/
namespace Sys2Proof.Machine

def exec (i : Instr) (s : State) : Host.Outcome State Fault Refusal :=
  match i with
  | .sequencerCycle c => Sys2Proof.Machine.execSequencerCycle c s
  | .nop c => Sys2Proof.Machine.execNop c s
  | .fence c => Sys2Proof.Machine.execFence c s
  | .predPop c => Sys2Proof.Machine.execPredPop c s
  | .predSet c => Sys2Proof.Machine.execPredSet c s
  | .agReset c => Sys2Proof.Machine.execAgReset c s
  | .musterEnter c => Sys2Proof.Machine.execMusterEnter c s
  | .copy c => Sys2Proof.Machine.execCopy c s
  | .convert c => Sys2Proof.Machine.execConvert c s
  | .zero c => Sys2Proof.Machine.execZero c s
  | .mac c => Sys2Proof.Machine.execMac c s
  | .accOut c => Sys2Proof.Machine.execAccOut c s
  | .accSpill c => Sys2Proof.Machine.execAccSpill c s
  | .accFill c => Sys2Proof.Machine.execAccFill c s
  | .anchorSet c => Sys2Proof.Machine.execAnchorSet c s
  | .vectorAdd c => Sys2Proof.Machine.execVectorAdd c s
  | .vectorSub c => Sys2Proof.Machine.execVectorSub c s
  | .vectorMul c => Sys2Proof.Machine.execVectorMul c s
  | .vectorMax c => Sys2Proof.Machine.execVectorMax c s
  | .vectorMin c => Sys2Proof.Machine.execVectorMin c s
  | .vectorAnd c => Sys2Proof.Machine.execVectorAnd c s
  | .vectorOr c => Sys2Proof.Machine.execVectorOr c s
  | .vectorXor c => Sys2Proof.Machine.execVectorXor c s
  | .cmpLt c => Sys2Proof.Machine.execCmpLt c s
  | .cmpEq c => Sys2Proof.Machine.execCmpEq c s
  | .exp2 c => Sys2Proof.Machine.execExp2 c s
  | .exp c => Sys2Proof.Machine.execExp c s
  | .log2 c => Sys2Proof.Machine.execLog2 c s
  | .log c => Sys2Proof.Machine.execLog c s
  | .recip c => Sys2Proof.Machine.execRecip c s
  | .sqrt c => Sys2Proof.Machine.execSqrt c s
  | .rsqrt c => Sys2Proof.Machine.execRsqrt c s
  | .tanh c => Sys2Proof.Machine.execTanh c s
  | .sigmoid c => Sys2Proof.Machine.execSigmoid c s
  | .sin c => Sys2Proof.Machine.execSin c s
  | .cos c => Sys2Proof.Machine.execCos c s
  | .sort c => Sys2Proof.Machine.execSort c s
  | .topk c => Sys2Proof.Machine.execTopk c s
  | .lookup c => Sys2Proof.Machine.execLookup c s
  | .cas32 c => Sys2Proof.Machine.execCas32 c s
  | .cas64 c => Sys2Proof.Machine.execCas64 c s
  | .fadd32 c => Sys2Proof.Machine.execFadd32 c s
  | .fadd64 c => Sys2Proof.Machine.execFadd64 c s
  | .ccount c => Sys2Proof.Machine.execCcount c s
  | .dmaIssue c => Sys2Proof.Machine.execDmaIssue c s
  | .put c => Sys2Proof.Machine.execPut c s
  | .get c => Sys2Proof.Machine.execGet c s
  | .tallyAdd c => Sys2Proof.Machine.execTallyAdd c s
  | .flockPut c => Sys2Proof.Machine.execFlockPut c s
  | .redPut c => Sys2Proof.Machine.execRedPut c s
  | .tallyClassAdd c => Sys2Proof.Machine.execTallyClassAdd c s
  | .cmpClear c => Sys2Proof.Machine.execCmpClear c s
  | .iterationCommit c => Sys2Proof.Machine.execIterationCommit c s
  | .seqWriteSlotGrant c => Sys2Proof.Machine.execSeqWriteSlotGrant c s
  | .scratchpadBankGrant c => Sys2Proof.Machine.execScratchpadBankGrant c s
  | .meshPortAccess c => Sys2Proof.Machine.execMeshPortAccess c s
  | .sheepdog c => Sys2Proof.Machine.execSheepdog c s
  | .stepStartRelease h => Sys2Proof.Machine.execStepStartRelease h s
  | .tokenArrival c port err => Sys2Proof.Machine.execTokenArrival c port err s
  | .creditReturn c => Sys2Proof.Machine.execCreditReturn c s
  | .switchGrantCycle c => Sys2Proof.Machine.execSwitchGrantCycle c s
  | .steerFire c u => Sys2Proof.Machine.execSteerFire c u s
  | .junctionFire c j => Sys2Proof.Machine.execJunctionFire c j s
  | .steerTimeout c u => Sys2Proof.Machine.execSteerTimeout c u s
  | .sweepWindowClose h => Sys2Proof.Machine.execSweepWindowClose h s
  | .musterNodeArrival m => Sys2Proof.Machine.execMusterNodeArrival m s
  | .musterReleaseAtCell m c => Sys2Proof.Machine.execMusterReleaseAtCell m c s
  | .stepEndCompletion h => Sys2Proof.Machine.execStepEndCompletion h s
  | .hubFaultReport f => Sys2Proof.Machine.execHubFaultReport f s
  | .abortingComplete h => Sys2Proof.Machine.execAbortingComplete h s
  | .cellCheckDone c passed => Sys2Proof.Machine.execCellCheckDone c passed s
  | .load m => Sys2Proof.Machine.execLoad m s
  | .loadData m => Sys2Proof.Machine.execLoadData m s
  | .loadTimeout src seq => Sys2Proof.Machine.execLoadTimeout src seq s
  | .dmaChannelsIdle h => Sys2Proof.Machine.execDmaChannelsIdle h s
  | .start m => Sys2Proof.Machine.execStart m s
  | .step m => Sys2Proof.Machine.execStep m s
  | .halt m => Sys2Proof.Machine.execHalt m s
  | .abort m => Sys2Proof.Machine.execAbort m s
  | .relocate m => Sys2Proof.Machine.execRelocate m s
  | .peerFixupRewrite h => Sys2Proof.Machine.execPeerFixupRewrite h s
  | .peerReleaseFree h => Sys2Proof.Machine.execPeerReleaseFree h s
  | .commit m => Sys2Proof.Machine.execCommit m s
  | .broadcastTransfer send => Sys2Proof.Machine.execBroadcastTransfer send s
  | .broadcastPacketReceive c => Sys2Proof.Machine.execBroadcastPacketReceive c s
  | .statusSweep sweep => Sys2Proof.Machine.execStatusSweep sweep s
  | .packetHop c port lane err => Sys2Proof.Machine.execPacketHop c port lane err s
  | .redCombine c portA laneA portB laneB => Sys2Proof.Machine.execRedCombine c portA laneA portB laneB s
  | .packetAgeExpiry c port lane => Sys2Proof.Machine.execPacketAgeExpiry c port lane s
  | .putArrival c => Sys2Proof.Machine.execPutArrival c s
  | .getArrival c => Sys2Proof.Machine.execGetArrival c s
  | .tallyAddArrival c => Sys2Proof.Machine.execTallyAddArrival c s
  | .flockUpArrival c => Sys2Proof.Machine.execFlockUpArrival c s
  | .flockDownArrival c => Sys2Proof.Machine.execFlockDownArrival c s
  | .redArrival c => Sys2Proof.Machine.execRedArrival c s
  | .loftRdArrival c => Sys2Proof.Machine.execLoftRdArrival c s
  | .loftWrArrival c badTransfers => Sys2Proof.Machine.execLoftWrArrival c badTransfers s
  | .ackArrival c => Sys2Proof.Machine.execAckArrival c s
  | .nackArrival c => Sys2Proof.Machine.execNackArrival c s
  | .replyArrival c => Sys2Proof.Machine.execReplyArrival c s
  | .multiReplyArrival c => Sys2Proof.Machine.execMultiReplyArrival c s
  | .fanoutArrival c => Sys2Proof.Machine.execFanoutArrival c s
  | .dropArrival c => Sys2Proof.Machine.execDropArrival c s
  | .resendTimerExpiry c req tag => Sys2Proof.Machine.execResendTimerExpiry c req tag s
  | .tagRestEnd c req tag => Sys2Proof.Machine.execTagRestEnd c req tag s
  | .mergeWindowClose c line => Sys2Proof.Machine.execMergeWindowClose c line s
  | .epochFlipTrigger links paddocks => Sys2Proof.Machine.execEpochFlipTrigger links paddocks s
  | .epochInstall entries => Sys2Proof.Machine.execEpochInstall entries s
  | .epochConfirm => Sys2Proof.Machine.execEpochConfirm s
  | .oldValidClear => Sys2Proof.Machine.execOldValidClear s
  | .dmaDescriptorStart c ch => Sys2Proof.Machine.execDmaDescriptorStart c ch s
  | .dmaLineReadDone c ch => Sys2Proof.Machine.execDmaLineReadDone c ch s
  | .dmaDescriptorComplete c ch => Sys2Proof.Machine.execDmaDescriptorComplete c ch s
  | .vaultRequestAccept turn => Sys2Proof.Machine.execVaultRequestAccept turn s
  | .vaultLineComplete pv bank badTransfers errs => Sys2Proof.Machine.execVaultLineComplete pv bank badTransfers errs s
  | .loftRefresh pv bank => Sys2Proof.Machine.execLoftRefresh pv bank s
  | .loftScrub pv line errs => Sys2Proof.Machine.execLoftScrub pv line errs s
  | .vaultLost pv cause => Sys2Proof.Machine.execVaultLost pv cause s
  | .spareWriteDone lv => Sys2Proof.Machine.execSpareWriteDone lv s
  | .streamRecordPut c ch => Sys2Proof.Machine.execStreamRecordPut c ch s
  | .streamPoll c ch => Sys2Proof.Machine.execStreamPoll c ch s
  | .streamPollDeferred g slot => Sys2Proof.Machine.execStreamPollDeferred g slot s
  | .linkUnitReceive p u => Sys2Proof.Machine.execLinkUnitReceive p u s
  | .linkDown p => Sys2Proof.Machine.execLinkDown p s
  | .portTrainingDone p => Sys2Proof.Machine.execPortTrainingDone p s
  | .laneFailure p lane cause => Sys2Proof.Machine.execLaneFailure p lane cause s
  | .laneSwap p => Sys2Proof.Machine.execLaneSwap p s
  | .frameTransit p => Sys2Proof.Machine.execFrameTransit p s
  | .relendRead p => Sys2Proof.Machine.execRelendRead p s
  | .relendWrite p => Sys2Proof.Machine.execRelendWrite p s
  | .relendInc p => Sys2Proof.Machine.execRelendInc p s
  | .relendServeComplete g => Sys2Proof.Machine.execRelendServeComplete g s
  | .relendResponse p => Sys2Proof.Machine.execRelendResponse p s
  | .accept p => Sys2Proof.Machine.execAccept p s
  | .relendNack p => Sys2Proof.Machine.execRelendNack p s
  | .attemptTimerExpiry p tag => Sys2Proof.Machine.execAttemptTimerExpiry p tag s
  | .completionTimerExpiry p tag => Sys2Proof.Machine.execCompletionTimerExpiry p tag s
  | .acceptTimer g => Sys2Proof.Machine.execAcceptTimer g s
  | .tagRestingEnd p tag => Sys2Proof.Machine.execTagRestingEnd p tag s
  | .tagAvailable p => Sys2Proof.Machine.execTagAvailable p s
  | .musterArrive p refCycles => Sys2Proof.Machine.execMusterArrive p refCycles s
  | .musterRelease p => Sys2Proof.Machine.execMusterRelease p s
  | .musterArriveResend m => Sys2Proof.Machine.execMusterArriveResend m s
  | .pace p => Sys2Proof.Machine.execPace p s
  | .paceResend => Sys2Proof.Machine.execPaceResend s
  | .paceTimeout engine => Sys2Proof.Machine.execPaceTimeout engine s
  | .collectiveGatherRelease slot => Sys2Proof.Machine.execCollectiveGatherRelease slot s
  | .phase1Record slot segment => Sys2Proof.Machine.execPhase1Record slot segment s
  | .phase2Record slot segment => Sys2Proof.Machine.execPhase2Record slot segment s
  | .ringArrivalPost slot => Sys2Proof.Machine.execRingArrivalPost slot s
  | .collectiveDeadline slot => Sys2Proof.Machine.execCollectiveDeadline slot s
  | .hubHeartbeat f answered => Sys2Proof.Machine.execHubHeartbeat f answered s
  | .nodeLost n => Sys2Proof.Machine.execNodeLost n s
  | .paddockTrip p cause => Sys2Proof.Machine.execPaddockTrip p cause s
  | .powerOn => Sys2Proof.Machine.execPowerOn s
  | .refclkPresent => Sys2Proof.Machine.execRefclkPresent s
  | .stageS0 westDv eastDv banksInRange elapsedMs => Sys2Proof.Machine.execStageS0 westDv eastDv banksInRange elapsedMs s
  | .stageS1 elapsedMs => Sys2Proof.Machine.execStageS1 elapsedMs s
  | .stageS2 notReady badControllers elapsedMs => Sys2Proof.Machine.execStageS2 notReady badControllers elapsedMs s
  | .stageS3 elapsedMs => Sys2Proof.Machine.execStageS3 elapsedMs s
  | .paddockEnable east settled => Sys2Proof.Machine.execPaddockEnable east settled s
  | .stageS4 cells blocks rows apexBad elapsedMs => Sys2Proof.Machine.execStageS4 cells blocks rows apexBad elapsedMs s
  | .stageS5 fails entries elapsedMs => Sys2Proof.Machine.execStageS5 fails entries elapsedMs s
  | .stageS6 failed elapsedMs => Sys2Proof.Machine.execStageS6 failed elapsedMs s
  | .stageS7 elapsedMs => Sys2Proof.Machine.execStageS7 elapsedMs s
  | .stageS8 loopbackOk light => Sys2Proof.Machine.execStageS8 loopbackOk light s
  | .s8PortTimeout => Sys2Proof.Machine.execS8PortTimeout s
  | .stageTimeout => Sys2Proof.Machine.execStageTimeout s
  | .mgmtWatchdogReset => Sys2Proof.Machine.execMgmtWatchdogReset s
  | .failedStart => Sys2Proof.Machine.execFailedStart s
  | .engineId r => Sys2Proof.Machine.execEngineId r s
  | .restart r => Sys2Proof.Machine.execRestart r s
  | .mgmtImage r => Sys2Proof.Machine.execMgmtImage r s
  | .mgmtImageFlashDone => Sys2Proof.Machine.execMgmtImageFlashDone s
  | .refclkLoss => Sys2Proof.Machine.execRefclkLoss s
  | .rootReady f => Sys2Proof.Machine.execRootReady f s
  | .lockDrop f => Sys2Proof.Machine.execLockDrop f s
  | .rootRelockTimeout f => Sys2Proof.Machine.execRootRelockTimeout f s
  | .setPointWrite east mhz => Sys2Proof.Machine.execSetPointWrite east mhz s
  | .rampEnd east => Sys2Proof.Machine.execRampEnd east s
  | .spreadWrite r => Sys2Proof.Machine.execSpreadWrite r s
  | .fieldSource r => Sys2Proof.Machine.execFieldSource r s
  | .sourceSwitchDone f k => Sys2Proof.Machine.execSourceSwitchDone f k s
  | .freqCounterGate counts => Sys2Proof.Machine.execFreqCounterGate counts s
  | .inputLoss => Sys2Proof.Machine.execInputLoss s
  | .bankCurrentSample westAvgDa eastAvgDa => Sys2Proof.Machine.execBankCurrentSample westAvgDa eastAvgDa s
  | .dvfsTarget east op => Sys2Proof.Machine.execDvfsTarget east op s
  | .paddocksSettled east => Sys2Proof.Machine.execPaddocksSettled east s
  | .avsLoop slacks => Sys2Proof.Machine.execAvsLoop slacks s
  | .droopDetect p => Sys2Proof.Machine.execDroopDetect p s
  | .stretchEnd f => Sys2Proof.Machine.execStretchEnd f s
  | .droopMarginLoop noiseQuarterMv => Sys2Proof.Machine.execDroopMarginLoop noiseQuarterMv s
  | .powerEstimate acts => Sys2Proof.Machine.execPowerEstimate acts s
  | .capDecision => Sys2Proof.Machine.execCapDecision s
  | .temperatureScan temps west east => Sys2Proof.Machine.execTemperatureScan temps west east s
  | .thermalStep => Sys2Proof.Machine.execThermalStep s
  | .meterStatusFrame bytes => Sys2Proof.Machine.execMeterStatusFrame bytes s
  | .reading bytes => Sys2Proof.Machine.execReading bytes s
  | .signature bytes => Sys2Proof.Machine.execSignature bytes s
  | .key bytes => Sys2Proof.Machine.execKey bytes s
  | .meterSilence => Sys2Proof.Machine.execMeterSilence s
  | .odpRead r => Sys2Proof.Machine.execOdpRead r s
  | .odpWrite r => Sys2Proof.Machine.execOdpWrite r s
  | .stageBegin r => Sys2Proof.Machine.execStageBegin r s
  | .stageData r => Sys2Proof.Machine.execStageData r s
  | .stageCommit r => Sys2Proof.Machine.execStageCommit r s
  | .stageCancel r => Sys2Proof.Machine.execStageCancel r s
  | .stageExpiry handle => Sys2Proof.Machine.execStageExpiry handle s
  | .snapshotExpiry handle => Sys2Proof.Machine.execSnapshotExpiry handle s
  | .sessionChallenge r => Sys2Proof.Machine.execSessionChallenge r s
  | .challengeExpiry src => Sys2Proof.Machine.execChallengeExpiry src s
  | .sessionOpen r => Sys2Proof.Machine.execSessionOpen r s
  | .sessionClose r => Sys2Proof.Machine.execSessionClose r s
  | .sessionTimeout session => Sys2Proof.Machine.execSessionTimeout session s
  | .operatorKey r => Sys2Proof.Machine.execOperatorKey r s
  | .keyClear r => Sys2Proof.Machine.execKeyClear r s
  | .vendorKeyRevoke r => Sys2Proof.Machine.execVendorKeyRevoke r s
  | .ownerRequired r => Sys2Proof.Machine.execOwnerRequired r s
  | .historyClear r => Sys2Proof.Machine.execHistoryClear r s
  | .attestNonce r => Sys2Proof.Machine.execAttestNonce r s
  | .routeTable r => Sys2Proof.Machine.execRouteTable r s
  | .windowRecordWrite r => Sys2Proof.Machine.execWindowRecordWrite r s
  | .windowOpen r => Sys2Proof.Machine.execWindowOpen r s
  | .windowClose r => Sys2Proof.Machine.execWindowClose r s
  | .windowCloseComplete w => Sys2Proof.Machine.execWindowCloseComplete w s
  | .musterQuery r => Sys2Proof.Machine.execMusterQuery r s
  | .tallyQuery r => Sys2Proof.Machine.execTallyQuery r s
  | .routerMarks r => Sys2Proof.Machine.execRouterMarks r s
  | .qpArm r => Sys2Proof.Machine.execQpArm r s
  | .qpReset r => Sys2Proof.Machine.execQpReset r s
  | .qpResetDone q => Sys2Proof.Machine.execQpResetDone q s
  | .freeze r => Sys2Proof.Machine.execFreeze r s
  | .thaw r => Sys2Proof.Machine.execThaw r s
  | .freezeTimeout => Sys2Proof.Machine.execFreezeTimeout s
  | .ringFlush f => Sys2Proof.Machine.execRingFlush f s
  | .opTimeSave => Sys2Proof.Machine.execOpTimeSave s
  | .rdmaWriteFirst pkt => Sys2Proof.Machine.execRdmaWriteFirst pkt s
  | .rdmaWriteMiddle pkt => Sys2Proof.Machine.execRdmaWriteMiddle pkt s
  | .rdmaWriteLast pkt => Sys2Proof.Machine.execRdmaWriteLast pkt s
  | .rdmaWriteOnly pkt => Sys2Proof.Machine.execRdmaWriteOnly pkt s
  | .rdmaReadRequest pkt => Sys2Proof.Machine.execRdmaReadRequest pkt s
  | .rdmaLinesDone q lines => Sys2Proof.Machine.execRdmaLinesDone q lines s
  | .ethFrameReceive frame => Sys2Proof.Machine.execEthFrameReceive frame s
  | .lightArrival p => Sys2Proof.Machine.execLightArrival p s
  | .hubInternalParityFault f => Sys2Proof.Machine.execHubInternalParityFault f s
  | .coldBringUpStart => Sys2Proof.Machine.execColdBringUpStart s
  | .attestReportSigned => Sys2Proof.Machine.execAttestReportSigned s
  | .hostLinkDown up => Sys2Proof.Machine.execHostLinkDown up s
  | .osfpModuleInserted watts => Sys2Proof.Machine.execOsfpModuleInserted watts s

end Sys2Proof.Machine
end

