-- ==== Sys2Proof/Machine/Tick.lean ====
section
/-!
DEFINITION. What passes in a microsecond in which no command waits (log entry 8).
-/
namespace Sys2Proof.Machine

/-- At a microsecond's tick the sheepdog of a running cell whose conditions do not hold counts from here anew (R59). -/
def State.sheepdogs (s : State) : SMap Cell :=
  s.cells.mapVals .reset fun k x =>
    if x.mode = .running ∧ !(s.work (Coord.ofKey k)).watched then { x with seq := { x.seq with stallFrom := s.clock, barked := false } } else x

/-- One microsecond: the clock and the operating time (R370, R461), the sheepdogs (R59), and the receive buffer, whose datagrams are handed on (R478). -/
def State.tick (s : State) : State :=
  let t := s.advanceTo (s.clock + 1)
  { t with cells := t.sheepdogs, eth := { t.eth with rx := [] } }

end Sys2Proof.Machine
end

