-- ==== Sys2Proof/WellFormed.lean ====
section
/-!
DEFINITION. Which commands are well formed: every unit a command names is one the engine has, and every field lies in its width.
-/
namespace Sys2Proof

/-- A source: the sender's address as the port tells it apart, and a 16-bit UDP port (R173, R426). -/
def Source.wf (s : Source) : Bool := decide (s.udp < 2 ^ 16)

/-- An HCP message's fields lie in their widths (R172). -/
def HcpMsg.wf (m : HcpMsg) : Bool :=
  m.src.wf && decide (m.version < 2 ^ 16 ∧ m.opcode < 2 ^ 16 ∧ m.seq < 2 ^ 32 ∧ m.region < 2 ^ 16 ∧ m.flags < 2 ^ 16 ∧ m.step < 2 ^ 32) &&
  decide (m.bx < 2 ^ 16 ∧ m.oy < 2 ^ 16 ∧ m.length < 2 ^ 32 ∧ m.dataOffset < 2 ^ 64 ∧ m.payload.length ≤ 8192)

/-- An ODP message's fields lie in their widths (R427). -/
def OdpMsg.wf (m : OdpMsg) : Bool :=
  m.src.wf && decide (m.version < 2 ^ 16 ∧ m.op < 2 ^ 8 ∧ m.flags < 2 ^ 8 ∧ m.seq < 2 ^ 32 ∧ m.index < 2 ^ 16 ∧ m.subindex < 2 ^ 8) &&
  decide (m.type < 2 ^ 8 ∧ m.session < 2 ^ 32 ∧ m.offset < 2 ^ 32 ∧ m.length < 2 ^ 16 ∧ m.handle < 2 ^ 16 ∧ m.total < 2 ^ 32) &&
  decide (m.payload.length ≤ 1024)

/-- An RDMA packet's fields lie in their widths, and its queue pair exists (R480–R482). -/
def RdmaPkt.wf (p : RdmaPkt) : Bool :=
  decide (p.qp < 64 ∧ p.psn < 2 ^ 24 ∧ p.rkey < 2 ^ 32 ∧ p.va < 2 ^ 64 ∧ p.dmaLen < 2 ^ 32 ∧ p.payload.length ≤ 4096)

/-- A frame's UDP ports and addresses lie in their widths (R476, R479). -/
def EthFrame.wf (f : EthFrame) : Bool := f.src.wf && decide (f.dstUdp < 2 ^ 16 ∧ f.dest < if f.ipv4 then 2 ^ 32 else 2 ^ 128)

/-- A link unit's header fields lie in their widths and its data fit it (R266). -/
def LinkUnit.wf (u : LinkUnit) : Bool :=
  decide (u.seq < 2 ^ 16 ∧ u.ack < 2 ^ 16 ∧ u.reqCredit < 2 ^ 8 ∧ u.respCredit < 2 ^ 8 ∧ u.data.length ≤ 632)

/-- A link can invert bytes of a 32-byte token only (R153). -/
def TokenErr.wf (e : TokenErr) : Bool := e.flips.all fun i => decide (i < 32)

/-- A changed routing entry names a router and a paddock (R199). -/
def RouteEntry.wf (e : RouteEntry) : Bool := e.at_.present && decide (e.paddock < 272)

/-- A byte in error lies in the codeword of a line (R226). -/
def LineErr.wf (e : LineErr) : Bool := decide (e.pos < 73)

/-- A line is transferred three times at most (R228). -/
def LineTrouble.wf (t : LineTrouble) : Bool := decide (t.badTransfers ≤ 3) && t.errs.all LineErr.wf

/-- A failed link test names an edge of a cell and one of its units (R324). -/
def EdgeFail.wf (e : EdgeFail) : Bool := e.cell.present && decide (e.unit_ < 4)

/-- A paddock's samples: one of 272 paddocks, ten counts (R402). -/
def PaddockActivity.wf (a : PaddockActivity) : Bool := decide (a.paddock < 272 ∧ a.currentDa < 4096 ∧ a.counts.length = 10)

/-- A node of the muster tree (R253). -/
def TreeNode.wf (n : TreeNode) : Bool :=
  match n with
  | .block f kx ky => decide (f < fieldCount ∧ kx < 12 ∧ ky < 10)
  | .field f => decide (f < fieldCount)
  | .row r => decide (r < 8)
  | .apex => true

/-- A well-formed command: its cell, block, paddock, field, vault, port, gateway, slot or queue pair exists and its fields fit. -/
def Instr.wf (i : Instr) : Bool :=
  match i with
  | .sequencerCycle c | .nop c | .fence c | .predPop c | .predSet c | .agReset c | .musterEnter c | .copy c | .convert c | .zero c | .mac c
  | .accOut c | .accSpill c | .accFill c | .anchorSet c | .vectorAdd c | .vectorSub c | .vectorMul c | .vectorMax c | .vectorMin c | .vectorAnd c
  | .vectorOr c | .vectorXor c | .cmpLt c | .cmpEq c | .exp2 c | .exp c | .log2 c | .log c | .recip c | .sqrt c | .rsqrt c | .tanh c | .sigmoid c
  | .sin c | .cos c | .sort c | .topk c | .lookup c | .cas32 c | .cas64 c | .fadd32 c | .fadd64 c | .ccount c | .dmaIssue c | .put c | .get c
  | .tallyAdd c | .flockPut c | .redPut c | .tallyClassAdd c | .cmpClear c | .iterationCommit c | .seqWriteSlotGrant c | .scratchpadBankGrant c
  | .meshPortAccess c | .sheepdog c | .creditReturn c | .switchGrantCycle c | .broadcastPacketReceive c | .putArrival c | .getArrival c
  | .tallyAddArrival c | .flockUpArrival c | .flockDownArrival c | .redArrival c | .loftRdArrival c | .ackArrival c | .nackArrival c
  | .replyArrival c | .multiReplyArrival c | .fanoutArrival c | .dropArrival c => c.present
  | .stepStartRelease h | .sweepWindowClose h | .stepEndCompletion h | .abortingComplete h | .dmaChannelsIdle h | .peerFixupRewrite h
  | .peerReleaseFree h => decide (h < 2 ^ 16)
  | .tokenArrival c port err => c.present && decide (port < 56) && err.wf
  | .steerFire c u => c.present && decide (u < 4)
  | .junctionFire c j => c.present && decide (j < 2)
  | .steerTimeout c u => c.present && decide (u < 6)
  | .musterNodeArrival m | .musterArriveResend m => decide (m < 256)
  | .musterReleaseAtCell m c => decide (m < 256) && c.present
  | .statusSweep ⟨f, silent⟩ => decide (f < fieldCount) && silent.all Coord.present
  | .hubFaultReport f | .broadcastTransfer ⟨f, _⟩ | .rootReady f | .lockDrop f | .rootRelockTimeout f | .ringFlush f
  | .hubInternalParityFault f => decide (f < fieldCount)
  | .cellCheckDone c _ => c.present
  | .load m | .loadData m | .start m | .step m | .halt m | .abort m | .relocate m | .commit m => m.wf
  | .loadTimeout src seq => src.wf && decide (seq < 2 ^ 32)
  | .packetHop c port lane _ => c.present && decide (port < 8 ∧ lane < 5)
  | .redCombine c pa la pb lb => c.present && decide (pa < 5 ∧ la < 5 ∧ pb < 5 ∧ lb < 5) && !(pa == pb && la == lb)
  | .packetAgeExpiry c port lane => c.present && decide (port < 8 ∧ lane < 5)
  | .loftWrArrival c bad => c.present && decide (bad ≤ 3)
  | .resendTimerExpiry c req tag | .tagRestEnd c req tag => c.present && decide (req < 6 ∧ tag < 16)
  | .mergeWindowClose c line => c.present && decide (line < 6144)
  | .epochFlipTrigger links paddocks => links.all (fun l => l.1.present && decide (l.2 < 4)) && paddocks.all fun p => decide (p < 272)
  | .epochInstall entries => entries.all RouteEntry.wf
  | .epochConfirm | .oldValidClear | .paceResend | .powerOn | .refclkPresent | .s8PortTimeout | .stageTimeout | .mgmtWatchdogReset | .failedStart
  | .mgmtImageFlashDone | .refclkLoss | .inputLoss | .capDecision | .thermalStep | .meterSilence | .freezeTimeout | .opTimeSave | .coldBringUpStart
  | .attestReportSigned => true
  | .dmaDescriptorStart c ch | .dmaLineReadDone c ch | .dmaDescriptorComplete c ch | .streamRecordPut c ch | .streamPoll c ch => c.present && c.kind == .m && decide (ch < 4)
  | .vaultRequestAccept ⟨pv, bad⟩ => decide (pv < 65280 ∧ bad ≤ 3)
  | .vaultLineComplete pv bank bad errs => decide (pv < 65280 ∧ bank < 32 ∧ bad ≤ 3) && errs.all LineErr.wf
  | .loftRefresh pv bank => decide (pv < 65280 ∧ bank < 32)
  | .loftScrub pv line errs => decide (pv < 65280 ∧ line < 393216) && errs.all LineErr.wf
  | .vaultLost pv _ => decide (pv < 65280)
  | .spareWriteDone lv => decide (lv < 61440)
  | .streamPollDeferred g slot => decide (g < 16384 ∧ slot < 16)
  | .linkUnitReceive p u => decide (p < 64) && u.wf
  | .linkDown p | .portTrainingDone p | .laneSwap p | .frameTransit p | .relendRead p | .relendWrite p | .relendInc p | .relendResponse p | .accept p
  | .relendNack p | .tagAvailable p | .musterRelease p | .pace p | .lightArrival p => decide (p < 64)
  | .laneFailure p lane _ => decide (p < 64 ∧ lane < 9)
  | .relendServeComplete g | .acceptTimer g => decide (g < 16384)
  | .attemptTimerExpiry p tag | .completionTimerExpiry p tag | .tagRestingEnd p tag => decide (p < 64 ∧ tag < 4096)
  | .musterArrive p refCycles => decide (p < 64 ∧ refCycles < 2 ^ 32)
  | .paceTimeout engine => decide (engine < 4096)
  | .collectiveGatherRelease slot | .ringArrivalPost slot | .collectiveDeadline slot => decide (slot < 16)
  | .phase1Record slot segment | .phase2Record slot segment => decide (slot < 16 ∧ segment < 1024)
  | .hubHeartbeat f _ => decide (f < fieldCount)
  | .nodeLost n => n.wf
  | .paddockTrip p _ => decide (p < 272)
  | .stageS0 westDv eastDv _ _ => decide (westDv < 2 ^ 16 ∧ eastDv < 2 ^ 16)
  | .stageS1 _ | .stageS3 _ | .stageS7 _ | .rampEnd _ | .paddocksSettled _ | .hostLinkDown _ | .osfpModuleInserted _ => true
  | .stageS2 notReady bad _ => notReady.all (fun f => decide (f < fieldCount)) && bad.all fun f => decide (f < fieldCount)
  | .paddockEnable _ _ | .bankCurrentSample _ _ => true
  | .stageS4 cells blocks rows _ _ => cells.all Coord.present && blocks.all (fun b => decide (b.1 < fieldCount ∧ b.2.1 < 12 ∧ b.2.2 < 10)) && rows.all fun r => decide (r < 8)
  | .stageS5 fails entries _ => fails.all EdgeFail.wf && entries.all RouteEntry.wf
  | .stageS6 failed _ => failed.all fun pv => decide (pv < 65280)
  | .stageS8 loopback light => loopback.all (fun p => decide (p < 64)) && light.all fun p => decide (p < 64)
  | .engineId r | .restart r | .mgmtImage r | .spreadWrite r | .fieldSource r | .odpRead r | .odpWrite r | .stageBegin r | .stageData r
  | .stageCommit r | .stageCancel r | .sessionChallenge r | .sessionOpen r | .sessionClose r | .operatorKey r | .keyClear r | .vendorKeyRevoke r
  | .ownerRequired r | .historyClear r | .attestNonce r | .routeTable r | .windowRecordWrite r | .windowOpen r | .windowClose r | .musterQuery r
  | .tallyQuery r | .routerMarks r | .qpArm r | .qpReset r | .freeze r | .thaw r => r.wf
  | .setPointWrite _ mhz => decide (mhz < 2 ^ 16)
  | .sourceSwitchDone f k => decide (f < fieldCount ∧ k < 4)
  | .freqCounterGate counts => counts.all fun e => decide (e.1 < 340 ∧ e.2 < 2 ^ 32)
  | .dvfsTarget _ op => decide (op < 16)
  | .droopDetect x => decide (x.paddock < 272)
  | .stretchEnd x => decide (x.field < fieldCount ∧ x.rails.length = 4)
  | .avsLoop slacks => slacks.all fun e => decide (e.1 < 272)
  | .droopMarginLoop noise => noise.all fun e => decide (e.1 < 272)
  | .powerEstimate acts => acts.all PaddockActivity.wf
  | .temperatureScan temps _ _ => temps.all fun t => decide (t.paddock < 272)
  | .meterStatusFrame bytes | .reading bytes | .signature bytes | .key bytes => decide (bytes.length ≤ 2432)
  | .stageExpiry handle | .snapshotExpiry handle => decide (handle < 2 ^ 16)
  | .challengeExpiry src => src.wf
  | .sessionTimeout session => decide (session < 2 ^ 32)
  | .windowCloseComplete w => decide (w < 4096)
  | .qpResetDone q => decide (q < 64)
  | .rdmaWriteFirst pkt | .rdmaWriteMiddle pkt | .rdmaWriteLast pkt | .rdmaWriteOnly pkt | .rdmaReadRequest pkt => pkt.wf
  | .rdmaLinesDone q lines => decide (q < 64) && lines.all LineTrouble.wf
  | .ethFrameReceive frame => frame.wf

end Sys2Proof
end

