-- ==== Sys2Proof/Safety.lean ====
section
/-!
DEFINITION. The terms in which statements about the engine are made: what issues in a cycle, what a delivered packet is, which commands a region
or a session takes, and what a step keeps.
-/
namespace Sys2Proof.Machine

/-! ### An iteration that issues (R41, R42, R49) -/

/-- A cell once its cycle's writes and commits, and the reads of its mesh port and DMA channels, are done (R44, R95, R113, R115). -/
def State.committed (s : State) (c : Coord) : Work := (s.grants c).work c

/-- The cell as the scheduling rule finds it: commits done, every active fold inspected (R32, R41, R49). -/
def State.readied (s : State) (c : Coord) : Work := (s.committed c).cell.regs.folds.foldl Work.inspectFold (s.committed c)

/-- An iteration at a cell: the cell, the iteration's fold, the fold's position, its entry, the cell once its reads are granted, and the bytes they gave. -/
structure Iteration where
  at_   : Coord
  fold  : Nat
  pos   : FoldState
  entry : Entry
  work  : Work
  got   : List (ReadRole × Payload)

/-- An iteration issues in the cycle: the cell runs, nothing holds its sequencer, the current fold can fire and keeps its turn (R49), and every
scratchpad read it makes is granted in this cycle (R114). -/
structure Issues (s : State) (c : Coord) (i : Iteration) : Prop where
  place   : i.at_ = c
  present : c.present = true
  running : (s.cell c).mode = .running
  going   : (s.committed c).cell.seq.stopped = false
  alone   : (s.committed c).cell.seq.asking = none
  current : i.fold = (s.readied c).cell.seq.cur
  atPos   : i.pos = (s.readied c).cell.seq.folds.get .zero i.fold
  atEntry : i.entry = (s.readied c).cell.regs.entry i.fold i.pos.entry
  fires   : (s.readied c).canFire i.fold = true
  turn    : (s.readied c).cell.seq.run < (s.readied c).cell.regs.quantum ∨ (s.readied c).nextFold = none
  moves   : i.entry.rep ≠ 0
  granted : (s.readied c).grantReads i.fold i.pos.entry i.pos.iter (s.readied c).cell.seq.cycle
    (i.entry.reads (s.readied c).here.kind (s.readied c).cell.pointer) [] [] [] = ([], i.got, i.work)

/-- The cell as the iteration's operation finds it: nothing is asked for any more, and the sheepdog's count starts anew (R59). -/
def Iteration.start (i : Iteration) : Work := i.work.mapSeq fun q => { q with asking := none, stallFrom := i.work.now, barked := false }

/-- The kind of the cell. -/
def Iteration.kind (i : Iteration) : CellKind := i.start.here.kind

/-- Is the predicate of the iteration met (R45)? -/
def Iteration.ok (i : Iteration) : Bool := predMet i.entry i.pos.pred

/-- Bytes granted for a read. -/
def Iteration.read (i : Iteration) (r : ReadRole) : Option Payload := (i.got.find? fun g => g.1 == r).map (·.2)

/-- The values of sources A and B (R33, R35). -/
def Iteration.a (i : Iteration) : Payload := i.start.sourceValue i.fold i.entry i.kind (i.entry.a i.kind) (i.read .srcA)
def Iteration.b (i : Iteration) : Payload := i.start.sourceValue i.fold i.entry i.kind (i.entry.b i.kind) (i.read .srcB)

/-- Data width of the entry in bytes (R35). -/
def Iteration.width (i : Iteration) : Nat := i.entry.width i.kind

/-- Effects that a predicate that is not met suppresses (R45). -/
def Iteration.local_ (i : Iteration) (fx : List Effect) : List Effect := if i.ok then fx else []

/-- The cell after the issue: the effects in flight until their commit, and everything else that an issue does (R42, R49). -/
def Iteration.issued (i : Iteration) (fx : List Effect) (w : Work) : Work :=
  (w.book i.fold i.entry i.pos fx).mapSeq fun q => { q with run := q.run + 1 }

/-- The engine after an issue with these effects: the cycle ends, and with it TALLY operations act (R44, R46). -/
def Iteration.next (i : Iteration) (s : State) (fx : List Effect) (w : Work) : Answer :=
  .next ((s.grants i.at_).absorb (i.issued fx w).endCycle)

/-- The engine after an issue that gives a value to its destination: a push on a track, or a scratchpad write (R36, R42). -/
def Iteration.gives (i : Iteration) (s : State) (v : Payload) : Answer :=
  let r := i.start.putResult i.entry i.kind i.ok i.fold i.pos.iter v
  i.next s r.1 r.2

/-! ### Delivered packets (R187) -/

/-- A cell's router holds a delivered packet that passes, its first, and the state without it. -/
def State.Delivers (s : State) (c : Coord) (test : Packet → Bool) (p : Packet) (t : State) : Prop :=
  c.present = true ∧ s.takeInbox c test = some (p, t)

/-! ### Commands of the host (R171–R173) -/

/-- A command message that the management complex takes in: sent for this opcode over the host port while an image serves HCP and bring-up is over, its
header as R172 gives it, and its SEQ new for its source (R173, R344, R364, R476). -/
structure State.Takes (s : State) (m : HcpMsg) (op : Nat) : Prop where
  opcode : m.opcode = op
  host   : m.src.port = .host
  served : s.hcpServed = true
  new_   : s.hcp.record m.src m.seq = none
  ready  : s.boot.stage = some 9
  fits   : headerFits m = true

/-- The state with the command kept among its source's last 64 (R173). -/
def State.kept (s : State) (m : HcpMsg) : State := { s with hcp := s.hcp.keep m.src m.seq }

/-- The state with a STEP, START, RELOCATE or COMMIT among those that wait. -/
def State.waits (s : State) (m : HcpMsg) : State := { s with hcp := { s.hcp with waiting := s.hcp.waiting ++ [m] } }

/-! ### Requests of the object dictionary (R426–R439) -/

/-- A request that the server carries out: it listens at the port, the datagram is well formed, and its SEQ is new for its source (R426, R430). -/
structure State.Serves (s : State) (m : OdpMsg) : Prop where
  served : s.odpServed m.src.port = true
  formed : odpMalformed m = false
  new_   : (s.odp.records.find? fun r => r.src == m.src && r.seq == m.seq) = none

/-- The state with what time has ended gone, and the request among its source's last 64 (R430). -/
def State.heard (s : State) (m : OdpMsg) : State :=
  let t : State := { s with odp := s.odp.prune s.clock }
  { t with odp := t.odp.remember m }

/-- A request brings a value to an entry, at a state (R432, R435–R439): a WRITE its own payload; a STAGE_COMMIT the bytes of a stage that stands, of an entry
that is not RWS, or of one that is, written at the rack while no operator is enrolled, or sealed by the session's next count and signature. -/
def State.Brings (s : State) (m : OdpMsg) (index sub : Nat) (e : OdpEntry) (b : List Byte) (u : State) : Prop :=
  s.Serves m ∧
  ((m.op = 2 ∧ m.index = index ∧ m.subindex = sub ∧ s.entryFor m = .inr e ∧ (e.access = acRw ∨ e.access = acWo) ∧ e.type ≠ tyDomain ∧
      (m.type = 0 ∨ m.type = e.type) ∧ e.min_ ≤ m.length ∧ m.length ≤ e.max_ ∧ b = m.payload ∧ u = s.heard m) ∨
   (m.op = 5 ∧ ∃ (x : Stage) (v : List Byte), s.stageOf m.handle = some x ∧ s.clock < x.at_ + 10000000 ∧ x.index = index ∧ x.subindex = sub ∧
      odpEntry index sub = some e ∧ x.value = some v ∧
      ((e.access ≠ acRws ∧ b = v ∧ u = (s.heard m).stageFreed m.handle) ∨
       (e.access = acRws ∧ x.session = 0 ∧ s.atTheRack m.src = true ∧ b = v ∧ u = (s.heard m).stageFreed m.handle) ∨
       (e.access = acRws ∧ x.session ≠ 0 ∧ b = v.take (x.total - sealBytes) ∧
          ∃ k, s.sessionOf x.session m.src = some k ∧ s.clock < k.at_ + 300000000 ∧ x.count = k.count + 1 ∧
            s.sealOk k (sealDigest k x b) (v.drop (x.total - sealBytes)) = true ∧
            u = ((s.heard m).stageFreed m.handle).sealCounted x.session))))

/-- The answer to a request whose value is in force (R427). -/
def State.okTo (s : State) (m : OdpMsg) (e : OdpEntry) : Answer := .next (s.odpSend m (odpReply m (some e) Codes.ok whyNone))

/-! ### What no command can break -/

/-- The engine's settings lie within the ranges their rules give, and what they forbid together does not hold. -/
structure State.Legal (s : State) : Prop where
  /-- CAP_W, CAP_WINDOW_S, PRIORITY, OP_FLOOR, RAISE_HOLD_MS (R395, R404, R405). -/
  cap    : 5000 ≤ s.pwr.capW ∧ s.pwr.capW ≤ s.part.cap ∧ 1 ≤ s.pwr.windowS ∧ s.pwr.windowS ≤ 60 ∧ s.pwr.priority ≤ 5 ∧
    s.part.highest ≤ s.pwr.opFloor ∧ s.pwr.opFloor ≤ 11 ∧ 1 ≤ s.pwr.raiseHold ∧ s.pwr.raiseHold ≤ 10000
  /-- Bank limits, T_THROTTLE_C, DROOP_RATE_LIMIT, PACE_SKEW_NS (R391, R401, R407, R409). -/
  limits : 100 ≤ s.pwr.westLimit ∧ s.pwr.westLimit ≤ 320 ∧ 100 ≤ s.pwr.eastLimit ∧ s.pwr.eastLimit ≤ 320 ∧
    85 ≤ s.pwr.tThrottle ∧ s.pwr.tThrottle ≤ 100 ∧ 10 ≤ s.pwr.droopLimit ∧ 1000 ≤ s.pwr.skewNs ∧ s.pwr.skewNs ≤ 1000000
  /-- The recovery settings and their layering (R441). -/
  timers : s.odp.resends ≤ 4 ∧ s.odp.attemptUs ≤ 1000 ∧ s.odp.completionUs ≤ 1000 ∧ s.odp.layered [] = true
  /-- ROUTER_MARKS (R445). -/
  marks  : bits s.odp.marks 0 8 < bits s.odp.marks 8 8 ∧ bits s.odp.marks 8 8 ≤ bits s.odp.marks 16 8 ∧ bits s.odp.marks 16 8 ≤ 192 ∧
    bits s.odp.marks 24 8 ≠ 0
  /-- At most 16 stages, 16 snapshots, 4 sessions (R433, R435, R437). -/
  room   : s.odp.stages.length ≤ 16 ∧ s.odp.snapshots.length ≤ 16 ∧ s.odp.sessions.length ≤ 4
  /-- ENGINE_ID, the pace group and the route table (R270, R271, R296). -/
  relend : s.relend.engineId ≤ 4095 ∧ (∀ e ∈ s.relend.paceGroup, e ≤ 4095) ∧ ∀ e ∈ s.relend.routes, routeOk e.2.toNat = true
  /-- Defect limits (R325, R326): none is 0, and a step's does not pass a session's. -/
  defects : 0 < s.defects.stepLimit ∧ s.defects.stepLimit ≤ s.defects.sessionLimit ∧ 0 < s.defects.headerLimit ∧ 0 < s.defects.uncorrLimit ∧
    0 < s.defects.corrLimit ∧ 0 < s.defects.portLimit
  /-- Spread (R377). -/
  spread : s.clk.west.depth ≤ 10 ∧ s.clk.east.depth ≤ 10 ∧ 300 ≤ s.clk.west.rate ∧ s.clk.west.rate ≤ 330 ∧ 300 ≤ s.clk.east.rate ∧ s.clk.east.rate ≤ 330
  /-- The vendor key counter, and an owner that has a key (R449, R455). -/
  keys   : s.flash.vendorKeyMin ≤ 3 ∧ (s.flash.ownerRequired = true → s.flash.keys ≠ [])

/-- What every command keeps from one state to the next: the part and the queue stay, time and the least vendor key do not go back, and legal settings
stay legal. -/
structure State.Follows (s t : State) : Prop where
  part    : t.part = s.part
  pending : t.pending = s.pending
  clock   : s.clock ≤ t.clock
  vendor  : s.flash.vendorKeyMin ≤ t.flash.vendorKeyMin
  legal   : s.Legal → t.Legal

end Sys2Proof.Machine
end

