-- ==== Sys2Proof/Certificates/Slice0/Obligations.lean ====
section
/-!
DEFINITION. The statements about the engine, for the provers. A statement about a command says under which conditions on the state and the operands
the command's own effect comes about, and gives the next state.
-/
open Sys2Proof Sys2Proof.Machine

/-! ### The queue of commands -/

/-- A step takes the command at the front of the queue and runs it on the state with the queue's rest (the model's queue, log entry 6). -/
def Obligations.StepRunsTheFront : Prop :=
  ∀ (s : State) (c : Instr) (rest : List Instr), s.pending = c :: rest → step s = exec c { s with pending := rest }

/-- With no command waiting, a microsecond passes (R59, R370, R478; log entries 8, 108): the tick counts up, the receive buffer is handed on whole, and the
queue stays empty. A running cell whose sheepdog conditions do not hold counts its stall from the new tick; every other cell's sequencer is as it was. Registers,
scratchpads, tallies and fabric of the cells, regions, Relend and flash stay. -/
def Obligations.IdleStepTicks : Prop :=
  ∀ s : State, s.pending = [] → s.cells.wf .reset = true → let u := s.advanceTo (s.clock + 1)
    ∃ t, step s = .next t ∧ t.clock = s.clock + 1 ∧ t.pending = [] ∧ t.eth.rx = [] ∧
      t.part = s.part ∧ t.flash = s.flash ∧ t.regions = s.regions ∧ t.relend = s.relend ∧
      ∀ c : Coord, c.present = true →
        (t.cell c).regs = (s.cell c).regs ∧ (t.cell c).pad = (s.cell c).pad ∧ (t.cell c).tallies = (s.cell c).tallies ∧ (t.cell c).fab = (s.cell c).fab ∧
        ((s.cell c).mode ≠ .running ∨ (u.work c).watched = true → (t.cell c).seq = (s.cell c).seq) ∧
        ((s.cell c).mode = .running → (u.work c).watched = false →
          (t.cell c).seq.stallFrom = s.clock + 1 ∧ (t.cell c).seq.barked = false)

/-! ### Operations of the step table (R38, R41–R49) -/

/-- CTL operations that issue (R38, R45): NOP and FENCE put nothing in flight. Where the predicate is met, PRED_POP puts the 4 bits of its source and PRED_SET
those of its immediate on their way to the predicate register, and AG_RESET resets the generators its immediate names; where it is not met, these three put
nothing in flight and reset nothing (for AG_RESET this is the model's choice, log entry 118). -/
def Claims.ControlOperations : Prop :=
  ∀ (s : State) (c : Coord) (i : Iteration), Issues s c i → i.entry.cls = 0 →
    (i.entry.op = 0 → exec (.nop c) s = i.next s [] i.start) ∧
    (i.entry.op = 1 → exec (.fence c) s = i.next s [] i.start) ∧
    (i.entry.op = 2 → exec (.predPop c) s = i.next s (i.local_ [.predSet (BitVec.ofNat 4 i.a.toNat)]) i.start) ∧
    (i.entry.op = 3 → exec (.predSet c) s = i.next s (i.local_ [.predSet (BitVec.ofNat 4 i.entry.imm)]) i.start) ∧
    (i.entry.op = 4 → exec (.agReset c) s = i.next s []
      (if i.ok then i.start.map fun x => ((List.range 16).filter (bitAt i.entry.imm)).foldl Cell.resetAg x else i.start))

/-- MUSTER_ENTER that issues (R256): with fewer than two rounds of the muster pending it posts the cell's arrival with the parity of its NEXT_PARITY and its
FAULT_LATCHED, the round is pending with the entry's signal, and NEXT_PARITY flips; with two pending nothing is posted, MUSTER_OVERRUN is raised, and the
overrun slot holds the muster, FAULT_LATCHED set, and the signal. -/
def Claims.MusterEnter : Prop :=
  ∀ (s : State) (c : Coord) (i : Iteration), Issues s c i → i.entry.cls = 0 → i.entry.op = 5 →
    let id := i.entry.imm % 256
    let part := i.start.cell.must.parts.get { nextParity := false, pending := [] } id
    (part.pending.length < 2 → ∃ w, exec (.musterEnter c) s = i.next s [] w ∧
      w.posts = i.start.posts ++ [(id, part.nextParity, i.start.cell.fault.first.isSome)] ∧
      w.cell.must.parts.get { nextParity := false, pending := [] } id =
        { nextParity := !part.nextParity, pending := part.pending ++
          [{ tally := i.entry.sigTally, amount := i.entry.sigAmt, by_ := { fold := i.fold, entry := i.pos.entry, iter := i.pos.iter } }] } ∧
      w.cell.must.overrun = i.start.cell.must.overrun ∧ w.cell.fault = i.start.cell.fault) ∧
    (2 ≤ part.pending.length → ∃ w, exec (.musterEnter c) s = i.next s [] w ∧ w.posts = i.start.posts ∧
      w.cell.fault = (i.start.raise Codes.musterOverrun i.fold i.pos.entry i.pos.iter id).cell.fault ∧
      w.cell.must.overrun = some { muster := id, flag := true, signal :=
        { tally := i.entry.sigTally, amount := i.entry.sigAmt, by_ := { fold := i.fold, entry := i.pos.entry, iter := i.pos.iter } } } ∧
      w.cell.must.parts = i.start.cell.must.parts)

/-- MOVE operations that issue (R38, R64, R128): COPY gives its source's value; CONVERT the converted token, or poison where the source or the scale is
poisoned; ZERO a zero of the width. -/
def Obligations.MoveOperations : Prop :=
  ∀ (s : State) (c : Coord) (i : Iteration), Issues s c i → i.entry.cls = 1 →
    (i.entry.op = 0 → exec (.copy c) s = i.gives s i.a) ∧
    (i.entry.op = 1 → exec (.convert c) s = i.gives s (
      if i.a.poisoned || ((i.read .scale).map Payload.poisoned).getD false then Payload.poison i.width
      else Payload.ofNat i.width (convertToken i.entry.fmt (bits i.entry.imm 0 4) (bits i.entry.imm 8 3) (bitAt i.entry.mod 2)
        (((i.read .scale).map Payload.toNat).getD 0) i.width i.a.toNat))) ∧
    (i.entry.op = 2 → exec (.zero c) s = i.gives s (Payload.ofNat i.width 0))

/-- TENSOR operations that issue (R45, R61, R73–R77; log entries 148, 149 for the two whose predicate is not met): where the predicate is met MAC puts the two tokens and the scale on their way to the accumulator (an
ordered-only format into an exact accumulator raises CONFIG_INVALID and puts nothing in flight); ACC_OUT gives the accumulator's value after the window test,
with the escape that the test found and, for MOD bit 2, the clear on their way where the predicate is met; ACC_SPILL gives the accumulator's 32 bytes; where the
predicate is met ACC_FILL puts its source, and ANCHOR_SET its anchor and mode, on their way to the accumulator. -/
def Obligations.TensorOperations : Prop :=
  ∀ (s : State) (c : Coord) (i : Iteration), Issues s c i → i.entry.cls = 2 →
    (∀ n, i.entry.op = 0 → i.entry.d i.kind = .acc n →
      exec (.mac c) s =
        if orderedOnly i.entry.fmt && (Acc.ofWord (i.start.cell.accs.get 0 n)).exact then
          i.next s [] (i.start.raise Codes.configInvalid i.fold i.pos.entry i.pos.iter n)
        else i.next s (i.local_ [.mac n i.entry.fmt i.a i.b (i.read .scale)]) i.start) ∧
    (∀ n, i.entry.op = 1 → i.entry.a i.kind = .acc n →
      let acc := Acc.ofWord (i.start.cell.accs.get 0 n)
      let out := i.start.putResult i.entry i.kind i.ok i.fold i.pos.iter
        (Payload.ofNat i.width (acc.tested.output i.entry.fmt (bitAt i.entry.mod 1)))
      exec (.accOut c) s = i.next s
        (out.1 ++ (if acc.tested.escape && !acc.escape then i.local_ [.accEscape n] else []) ++
          (if bitAt i.entry.mod 2 then i.local_ [.accClear n] else [])) out.2) ∧
    (∀ n, i.entry.op = 2 → i.entry.a i.kind = .acc n →
      exec (.accSpill c) s = i.gives s (Payload.ofNat 32 (i.start.cell.accs.get 0 n).toNat)) ∧
    (∀ n, i.entry.op = 3 → i.entry.d i.kind = .acc n → exec (.accFill c) s = i.next s (i.local_ [.accFill n i.a]) i.start) ∧
    (∀ n, i.entry.op = 4 → i.entry.d i.kind = .acc n →
      exec (.anchorSet c) s = i.next s (i.local_ [.accSet n (anchorWord i.entry.imm (bitAt i.entry.mod 3))]) i.start)

/-- VECTOR operations that issue (R71, R128): each gives its lanes' results, poison where either source is poisoned; a comparison gives the bit of its
immediate where no source is poisoned and every lane passes, else 0: on its way to the predicate register where the predicate is met, or as a token. -/
def Obligations.VectorOperations : Prop :=
  ∀ (s : State) (c : Coord) (i : Iteration), Issues s c i → i.entry.cls = 3 →
    (∀ row : Instr × Nat, row ∈ [(.vectorAdd c, 0), (.vectorSub c, 1), (.vectorMul c, 2), (.vectorMax c, 3), (.vectorMin c, 4), (.vectorAnd c, 5),
        (.vectorOr c, 6), (.vectorXor c, 7)] → i.entry.op = row.2 →
      exec row.1 s = i.gives s (if i.a.poisoned || i.b.poisoned then Payload.poison i.width
        else Payload.ofNat i.width (vectorToken row.2 i.entry.fmt (bitAt i.entry.mod 2) i.width i.a.toNat i.b.toNat))) ∧
    (∀ row : Instr × Nat, row ∈ [(.cmpLt c, 8), (.cmpEq c, 9)] → i.entry.op = row.2 →
      let v := if !i.a.poisoned && !i.b.poisoned && cmpLanes (row.2 == 8) i.entry.fmt i.a.toNat i.b.toNat then 2 ^ (i.entry.imm % 4) else 0
      exec row.1 s = if i.entry.d i.kind = .pred then i.next s (i.local_ [.predSet (BitVec.ofNat 4 v)]) i.start
        else i.gives s (Payload.ofNat 4 v))

/-- FUNC operations that issue (R86–R94, R128): the eleven functions, SORT and TOPK give their results for the token, or poison for a poisoned one; LOOKUP gives
what its table gives; where its checks fail it gives nothing to a scratchpad (the model's choice, log entry 23), and a zero to a port. -/
def Obligations.FunctionOperations : Prop :=
  ∀ (s : State) (c : Coord) (i : Iteration), Issues s c i → i.entry.cls = 4 →
    (∀ row : Instr × Nat, row ∈ [(.exp2 c, 0), (.exp c, 1), (.log2 c, 2), (.log c, 3), (.recip c, 4), (.sqrt c, 5), (.rsqrt c, 6), (.tanh c, 7),
        (.sigmoid c, 8), (.sin c, 9), (.cos c, 10)] → i.entry.op = row.2 →
      exec row.1 s = i.gives s (if i.a.poisoned then Payload.poison 32 else Payload.ofNat 32 (funcToken row.2 i.entry.fmt i.a.toNat))) ∧
    (i.entry.op = 11 → exec (.sort c) s = i.gives s (if i.a.poisoned then Payload.poison 32
      else Payload.ofNat 32 (sortToken i.entry.fmt (bitAt i.entry.imm 0) i.a.toNat))) ∧
    (i.entry.op = 12 → exec (.topk c) s = i.gives s (if i.a.poisoned then Payload.poison 32
      else Payload.ofNat 32 (topkToken i.entry.fmt (bits i.entry.imm 0 8) (bitAt i.entry.imm 8) i.a.toNat))) ∧
    (i.entry.op = 13 →
      let r := i.start.lookup i.fold i.pos.entry i.pos.iter i.entry i.a
      (∀ v, r.1 = some v → exec (.lookup c) s =
        (let out := r.2.putResult i.entry i.kind i.ok i.fold i.pos.iter v
         i.next s out.1 out.2)) ∧
      (r.1 = none → exec (.lookup c) s =
        i.next s (match i.entry.d i.kind with | .port p => [.push p (Payload.ofNat 32 0) 0] | _ => []) r.2))

/-- MEM operations that issue (R97–R99, R128): an atomic on an aligned line of the scratchpad outside every channel ring puts on its way the lanes updated from
what it finds at its issue, updates in flight included (read at issue: log entry 21), and its old value where OLD names a generator, poison for poisoned operands; CCOUNT gives its count, or poison;
DMA_ISSUE puts its 32 bytes on their way to the channel that its immediate names. -/
def Obligations.MemoryOperations : Prop :=
  ∀ (s : State) (c : Coord) (i : Iteration), Issues s c i → i.entry.cls = 5 →
    (∀ (row : Instr × Nat) (g : Nat), row ∈ [(.cas32 c, 0), (.cas64 c, 1), (.fadd32 c, 2), (.fadd64 c, 3)] → i.entry.op = row.2 →
      i.entry.d i.kind = .spad g → i.entry.oldAg = none → accessOk i.kind (i.start.cell.pointer g) 32 = true →
      i.start.cell.channelAt (i.start.cell.pointer g) = none →
      let addr := i.start.cell.pointer g
      let old := i.start.cell.seq.forwarded addr ((i.read .memTarget).getD (Payload.ofNat 32 0))
      let new := if old.poisoned || i.a.poisoned || (i.b.poisoned && decide (row.2 ≤ 1)) then Payload.poison 32
        else Payload.ofNat 32 (memUpdate row.2 i.entry.fmt old.toNat i.a.toNat i.b.toNat)
      exec row.1 s = i.next s [.spad addr new true] i.start) ∧
    (∀ (row : Instr × Nat) (g o : Nat), row ∈ [(.cas32 c, 0), (.cas64 c, 1), (.fadd32 c, 2), (.fadd64 c, 3)] → i.entry.op = row.2 →
      i.entry.d i.kind = .spad g → i.entry.oldAg = some o → accessOk i.kind (i.start.cell.pointer g) 32 = true →
      i.start.cell.channelAt (i.start.cell.pointer g) = none → accessOk i.kind (i.start.cell.pointer o) 32 = true →
      i.start.cell.channelAt (i.start.cell.pointer o) = none →
      let addr := i.start.cell.pointer g
      let old := i.start.cell.seq.forwarded addr ((i.read .memTarget).getD (Payload.ofNat 32 0))
      let new := if old.poisoned || i.a.poisoned || (i.b.poisoned && decide (row.2 ≤ 1)) then Payload.poison 32
        else Payload.ofNat 32 (memUpdate row.2 i.entry.fmt old.toNat i.a.toNat i.b.toNat)
      exec row.1 s = i.next s [.spad addr new true, .spad (i.start.cell.pointer o) old false] i.start) ∧
    (i.entry.op = 4 → exec (.ccount c) s = i.gives s (if i.a.poisoned || i.b.poisoned then Payload.poison 32
      else Payload.ofNat 32 (ccount i.entry.fmt i.a.toNat i.b.toNat))) ∧
    (∀ g, i.entry.op = 5 → i.entry.a i.kind = .spad g →
      exec (.dmaIssue c) s = i.next s [.dmaIssue (i.entry.imm % 4) (i.start.cell.pointer g) i.a] i.start)

/-- MESH operations that issue (R37, R58, R188, R210, R220): a tag of the sequencer is free, and the request is outstanding from its issue cycle under it, its TYPE
that of the operation, with attempt 0 and the tag's SEQ, which flips; its destination that of MESH_TARGET, but for FLOCK_PUT, which names its flock and goes to
the flock's root; its OFFSET the target's plus the iteration times the width, modulo 2^24 (log entry 120; TALLY_ADD: the immediate); its tally the target's, but
for GET, which keeps it for the arrival of its data beside the pointer that the data goes to; its AUX the width, 0 or 16 + MOD; the payload of PUT, FLOCK_PUT
and RED_PUT the source's bytes. Its sending is what the iteration has in flight, and the cell is otherwise as it was. -/
def Obligations.MeshOperations : Prop :=
  ∀ (s : State) (c : Coord) (i : Iteration), Issues s c i → i.entry.cls = 6 →
    ∀ row : Instr × Nat × Nat, row ∈ [(.put c, 0, 1), (.get c, 1, 2), (.tallyAdd c, 2, 3), (.flockPut c, 3, 4), (.redPut c, 4, 6)] → i.entry.op = row.2.1 →
      ∃ (tag : Nat) (o : Outstanding), i.start.cell.freeTag 0 i.start.now = some tag ∧
        exec row.1 s = i.next s [.send tag] (i.start.mapMesh fun m => { m with out := m.out ++ [o], seqBits := m.seqBits.set false tag (!o.pkt.seq) }) ∧
        o.pkt.type = row.2.2 ∧ o.pkt.req = 0 ∧ o.pkt.tag = tag ∧ o.pkt.attempt = 0 ∧ o.pkt.src = i.start.here ∧
        o.pkt.seq = i.start.cell.mesh.seqBits.get false tag ∧ o.acks = 0 ∧ o.resent = false ∧
        (∀ n, i.entry.d i.kind = .mesh n ∨ (i.entry.a i.kind = .mesh n ∧ ∀ m, i.entry.d i.kind ≠ .mesh m) →
          let t := i.start.cell.regs.targetOf n
          (row.2.1 ≠ 3 → o.pkt.dst = t.dst) ∧ (row.2.1 ≠ 2 → o.pkt.offset = (t.offset + i.pos.iter * i.width) % 2 ^ 24) ∧
          (row.2.1 ≠ 1 → o.pkt.tally = t.tally ∧ o.pkt.tallyEn = t.tallyEn) ∧
          (row.2.1 = 1 → o.arrival = if t.tallyEn then some t.tally else none)) ∧
        (row.2.1 = 1 → ∀ g, i.entry.d i.kind = .spad g → o.local_ = some (i.start.cell.pointer g)) ∧
        (row.2.1 = 2 → o.pkt.offset = i.entry.imm) ∧ (row.2.1 = 3 → o.pkt.flock = i.entry.imm % 4096) ∧
        o.pkt.aux = (if row.2.1 = 2 then 0 else if row.2.1 = 4 then i.entry.mod + 16 else i.width) ∧
        (row.2.1 = 0 ∨ row.2.1 = 3 ∨ row.2.1 = 4 → o.pkt.payload = i.a)

/-- TALLY operations that issue (R38, R45, R46): where the predicate is met, ADD has its increment by the immediate and CMP_CLEAR its comparison with it among the
effects of the issue, to act on the tally at the cycle's end; where it is not met they have none. -/
def Claims.TallyOperations : Prop :=
  ∀ (s : State) (c : Coord) (i : Iteration), Issues s c i → i.entry.cls = 7 →
    (∀ t, i.entry.op = 0 → i.entry.d i.kind = .tally t → exec (.tallyClassAdd c) s = i.next s (i.local_ [.tallyAdd t i.entry.imm]) i.start) ∧
    (∀ t, i.entry.op = 1 → i.entry.d i.kind = .tally t → exec (.cmpClear c) s = i.next s (i.local_ [.cmpClear t i.entry.imm]) i.start)

/-- CTL and TALLY operations of the step table that issue: all of `Claims.ControlOperations`, `Claims.MusterEnter`, `Claims.TallyOperations`. -/
def Obligations.SequencerControl : Prop := Claims.ControlOperations ∧ Claims.MusterEnter ∧ Claims.TallyOperations

/-- The scheduling rule (R49), for a cell whose sequencer is neither stopped nor waiting for reads: an iteration of the current fold issues where the fold can
fire and keeps its turn, and run counts up; else the next fold that can fire becomes current in a switch cycle that issues nothing, with run at 0; else the
cycle is idle. -/
def Obligations.SchedulingRule : Prop :=
  ∀ (s : State) (c : Coord), c.present = true → (s.cell c).mode = .running → (s.committed c).cell.seq.stopped = false →
    (s.committed c).cell.seq.asking = none →
    let u := s.grants c
    (∀ i : Iteration, Issues s c i → ∃ w : Work, exec (.sequencerCycle c) s = .next (u.absorb w.endCycle) ∧
      w.cell.seq.run = (s.readied c).cell.seq.run + 1 ∧ w.cell.seq.cur = i.fold) ∧
    (∀ g : Nat, ((s.readied c).canFire (s.readied c).cell.seq.cur = false ∨ (s.readied c).cell.regs.quantum ≤ (s.readied c).cell.seq.run) →
      (s.readied c).nextFold = some g →
      exec (.sequencerCycle c) s = .next (u.absorb ((s.readied c).mapSeq fun q => { q with cur := g, run := 0 }).endCycle)) ∧
    ((s.readied c).canFire (s.readied c).cell.seq.cur = false → (s.readied c).nextFold = none →
      exec (.sequencerCycle c) s = .next (u.absorb (s.readied c).endCycle))

/-- Two accumulator words combine into one (R80): by the table's four cases; MAC_COUNT is the saturating sum, and a saturated exact result escapes with VALUE 0; the reserved bits
of the result are zero; combination is commutative where a state is exact, and associative on exact states. -/
def Obligations.AccumulatorsCombine : Prop :=
  (∀ a b : Nat,
    let s := Acc.ofNat a
    let t := Acc.ofNat b
    let u := Acc.ofNat (combineWords a b)
    let n := min (s.count + t.count) 0xFFFFFFFF
    u.resv = 0 ∧ u.count = n ∧
    (s.exact = true → t.exact = true → u.exact = true ∧ u.nan = (s.nan || t.nan) ∧ u.posInf = (s.posInf || t.posInf) ∧ u.negInf = (s.negInf || t.negInf)) ∧
    (s.exact = true → t.exact = true → s.anchor = t.anchor → s.escape = false → t.escape = false → n < 0xFFFFFFFF →
      u.value = wrapTo 200 (s.int + t.int) ∧ u.anchor = s.anchor ∧ u.escape = false) ∧
    (s.exact = true → t.exact = true → (s.escape = true ∨ t.escape = true ∨ s.anchor ≠ t.anchor) →
      u.value = 0 ∧ u.escape = true ∧ u.anchorInt = min s.anchorInt t.anchorInt) ∧
    (∀ e : Acc, (s.exact = true ∧ t.exact = false ∧ e = s) ∨ (s.exact = false ∧ t.exact = true ∧ e = t) →
      u.exact = true ∧ u.escape = true ∧ u.value = 0 ∧ u.anchor = e.anchor ∧ u.nan = e.nan ∧ u.posInf = e.posInf ∧ u.negInf = e.negInf) ∧
    (s.exact = false → t.exact = false → u.exact = false ∧ u.escape = false ∧ u.nan = false ∧ u.posInf = false ∧ u.negInf = false ∧
      u.value = FloatFmt.fp32.ofNum false ((FloatFmt.fp32.decode (s.value % 2 ^ 32)).add (FloatFmt.fp32.decode (t.value % 2 ^ 32))) ∧
      u.anchorInt = min s.anchorInt t.anchorInt) ∧
    (u.exact = true → n = 0xFFFFFFFF → u.escape = true ∧ u.value = 0)) ∧
  (∀ a b : Nat, ((Acc.ofNat a).exact || (Acc.ofNat b).exact) = true → combineWords a b = combineWords b a) ∧
  (∀ a b c : Nat, (Acc.ofNat a).exact = true → (Acc.ofNat b).exact = true → (Acc.ofNat c).exact = true →
    combineWords (combineWords a b) c = combineWords a (combineWords b c))

/-! ### Other events of a cell's sequencer (R44, R59, R95, R113, R115) -/

/-- ITERATION_COMMIT and the grants (R44, R95, R113, R115): the iteration in flight before which none falls due takes effect, in its cycle at the earliest; a
write past its commit takes effect where its bank grants it, with its iteration's signal, and waits on where it does not; the banks' grants are the mesh
port's write, the DMA channels' writes, the sequencer's that wait past their commit or come to it, and then the reads of the mesh port and of the channels; an
access that waits at the mesh port is applied where it need not wait any more, a GET after the writes of its cycle. -/
def Claims.CommitsAndGrants : Prop :=
  ∀ (s : State) (c : Coord), c.present = true →
    (∀ (i : Inflight) (rest : List Inflight), (s.work c).cell.seq.inflight = i :: rest → (∀ j ∈ rest, i.due ≤ j.due) →
      let w := if (s.work c).cell.seq.cycle < i.due then (s.work c).intoCycle i.due else s.work c
      exec (.iterationCommit c) s = .next (s.absorb ((w.mapSeq fun q => { q with inflight := q.inflight.erase i }).commitOne i))) ∧
    (∀ (i : Inflight) (addr : Nat) (data : Payload) (mem : Bool), (s.work c).cell.seq.late = [i] → i.effects = [.spad addr data mem] → data ≠ [] →
      let w := (s.work c).mapSeq fun q => { q with late := [] }
      (w.grants i.due 5 (addr / 64) true = true →
        exec (.seqWriteSlotGrant c) s = .next (s.absorb ((w.applyEffect i (.spad addr data mem)).applySignal i))) ∧
      (w.grants i.due 5 (addr / 64) true = false → exec (.seqWriteSlotGrant c) s = .next (s.absorb (s.work c)))) ∧
    (let u := if (s.cell c).seq.reading then s
       else (((s.event c fun w => w.portTurn (s.dmaWait c) false).padRetries c true).event c fun w => (w.grantLate.commitDue).readsBegin)
     exec (.scratchpadBankGrant c) s = .next ((u.event c fun w => w.portTurn (u.dmaWait c) true).padRetries c false)) ∧
    (∀ (p : Packet) (since : Nat) (w : Work), (s.work c).cell.mesh.port = some (p, since) →
      (∀ v : Work, v = { ((s.work c).mapMesh fun m => { m with port := none }) with asked := since } → p.type = tPut → v.putArrive p = some w →
        exec (.meshPortAccess c) s = .next (s.absorb { w with asked := (s.work c).asked })) ∧
      (∀ (u : State) (v : Work), u = s.writePhase c → (u.work c).cell.mesh.port = some (p, since) →
        v = { ((u.work c).mapMesh fun m => { m with port := none }) with asked := since } → p.type = tGet → v.getArrive (u.dmaWait c) p = some w →
        exec (.meshPortAccess c) s = .next (u.absorb { w with asked := (u.work c).asked })))

/-- SHEEPDOG (R59, R60): a stall whose conditions hold and that has not been raised yet raises SHEEPDOG at the cell, or INFLIGHT_STALL where a channel is held at
the Relend bound, LIMIT_US after it began. -/
def Claims.SheepdogRaises : Prop :=
  ∀ (s : State) (c : Coord), c.present = true → (s.work c).watched = true → (s.cell c).seq.barked = false →
    let t := s.advanceTo ((s.cell c).seq.stallFrom + (s.cell c).regs.sheepdogUs)
    exec (.sheepdog c) s = .next (t.absorb (((t.work c).mapSeq fun q => { q with barked := true }).raiseHere
      (if s.channelHeld c then Codes.inflightStall else Codes.sheepdog) 0))

/-- Commits, grants and the sheepdog of a cell: all of `Claims.CommitsAndGrants`, `Claims.SheepdogRaises`. -/
def Obligations.SequencerEvents : Prop := Claims.CommitsAndGrants ∧ Claims.SheepdogRaises

/-- What committed effects do (R42, R45, R46, R61, R76, R250): a MAC accumulates into its accumulator, ANCHOR_SET replaces it, a predicate write sets the fold's
predicate register; a comparison that holds takes the value that its tally had at the cycle's start off the tally, so that the cycle's increments stay, while one
that fails leaves the tallies and raises TALLY_UNDERFLOW or TALLY_OVERFLOW. A MAC leaves the other accumulators, tallies, scratchpad and fabric, an ANCHOR_SET
the other accumulators and the scratchpad, a predicate write the other folds, accumulators and the scratchpad. -/
def Obligations.CommittedEffects : Prop :=
  ∀ (w : Work) (i : Inflight),
    (∀ n fmt a b scale, w.cell.accs.wf 0 = true →
      let t := w.applyEffect i (.mac n fmt a b scale)
      t.cell.accs.get 0 n = macWord (w.cell.accs.get 0 n) fmt a b scale ∧ (∀ m, m ≠ n → t.cell.accs.get 0 m = w.cell.accs.get 0 m) ∧
      t.cell.tallies = w.cell.tallies ∧ t.cell.pad = w.cell.pad ∧ t.cell.fab = w.cell.fab) ∧
    (∀ n word, w.cell.accs.wf 0 = true →
      let t := w.applyEffect i (.accSet n word)
      t.cell.accs.get 0 n = word ∧ (∀ m, m ≠ n → t.cell.accs.get 0 m = w.cell.accs.get 0 m) ∧ t.cell.pad = w.cell.pad) ∧
    (∀ v, w.cell.seq.folds.wf .zero = true →
      let t := w.applyEffect i (.predSet v)
      (t.cell.seq.folds.get .zero i.fold).pred = v ∧ (∀ f, f ≠ i.fold → t.cell.seq.folds.get .zero f = w.cell.seq.folds.get .zero f) ∧
      t.cell.accs = w.cell.accs ∧ t.cell.pad = w.cell.pad) ∧
    (∀ t imm, w.cell.tallies.wf .zero = true →
      let u := w.applyEffect i (.cmpClear t imm)
      (w.cell.tallyAtStart t = imm → u.cell.tally t = w.cell.tally t - imm ∧ u.cell.fault = w.cell.fault) ∧
      (w.cell.tallyAtStart t < imm → u.cell.tallies = w.cell.tallies ∧ ∃ r, u.cell.fault = w.cell.fault.raise r ∧ r.code = Codes.tallyUnderflow) ∧
      (imm < w.cell.tallyAtStart t → u.cell.tallies = w.cell.tallies ∧ ∃ r, u.cell.fault = w.cell.fault.raise r ∧ r.code = Codes.tallyOverflow))

/-! ### The scratchpad (R107–R127) -/

/-- Scratchpad bytes (R19, R36, R125): a write is read back byte for byte, every byte outside it is as before, and the canonical form is kept. -/
def Obligations.ScratchpadReadAfterWrite : Prop :=
  ∀ (mem : Memory) (addr : Nat) (data : Payload), mem.wf PByte.zero = true →
    (padWrite mem addr data).wf PByte.zero = true ∧
    (∀ i (h : i < data.length), (padWrite mem addr data).get PByte.zero (addr + i) = data[i]) ∧
    ∀ a, (a < addr ∨ addr + data.length ≤ a) → (padWrite mem addr data).get PByte.zero a = mem.get PByte.zero a

/-- A write that the channels check (R120, R121, R123): into a full slot it is dropped, counted and raises SPAD_OVERFLOW; into a drifted ring it is dropped and
not counted (the model's choice, log entry 125); else the bytes land. Tallies and accumulators stay. -/
def Claims.ChannelWriteRules : Prop :=
  ∀ (w : Work) (addr f e i : Nat) (data : Payload), data ≠ [] →
    let t := w.writeChecked addr data f e i
    (w.cell.channelView addr = .full → t.cell.pad = w.cell.pad ∧ t.cell.fault.dropped = min 0xFFFF (w.cell.fault.dropped + 1) ∧
      ∃ r, r.code = Codes.spadOverflow ∧ t.cell.fault.reports = w.cell.fault.reports ++ [r]) ∧
    (w.cell.channelView addr = .drifted → t = w) ∧
    (w.cell.channelView addr = .free ∨ w.cell.channelView addr = .empty →
      t.cell.pad.bytes = padWrite w.cell.pad.bytes addr data ∧ t.cell.fault.reports = w.cell.fault.reports) ∧
    t.cell.tallies = w.cell.tallies ∧ t.cell.accs = w.cell.accs ∧ t.cell.regs = w.cell.regs

/-- A read that the channels check (R120–R122, R126): from an empty slot it returns poison and reports SPAD_UNDERFLOW, from a drifted ring poison, from bytes
with bad parity poison and PARITY_SPAD; else the stored bytes. Nothing that is stored changes. -/
def Claims.ChannelReadRules : Prop :=
  ∀ (w : Work) (addr len f e i : Nat),
    let r := w.read addr len f e i
    (w.cell.channelView addr = .empty → r.1 = Payload.poison len ∧ ∃ q ∈ r.2.cell.fault.reports, q.code = Codes.spadUnderflow) ∧
    (w.cell.channelView addr = .drifted → r.1 = Payload.poison len) ∧
    ((w.cell.stored addr len).parityError = true → r.1 = Payload.poison len ∧ ∃ q ∈ r.2.cell.fault.reports, q.code = Codes.paritySpad) ∧
    ((w.cell.stored addr len).parityError = false → w.cell.channelView addr = .free ∨ w.cell.channelView addr = .full →
      r.1 = w.cell.stored addr len ∧ r.2 = w) ∧
    r.2.cell.pad = w.cell.pad ∧ r.2.cell.tallies = w.cell.tallies ∧ r.2.cell.accs = w.cell.accs ∧ r.2.cell.regs = w.cell.regs

/-- What the channels let a scratchpad write and read do: all of `Claims.ChannelWriteRules`, `Claims.ChannelReadRules`. -/
def Obligations.ChannelRules : Prop := Claims.ChannelWriteRules ∧ Claims.ChannelReadRules

/-! ### Tallies and faults (R46, R60, R244) -/

/-- A tally takes increments up to its 32 bits (R46, R244): the value and the last signaller change (a local signal leaves that of an arrival which the mesh port
took in the same cycle, the port coming last), a carry past the top saturates and raises TALLY_OVERFLOW, and no other tally changes. -/
def Obligations.TallyIncrements : Prop :=
  ∀ (w : Work) (t n : Nat) (src : Option Coord), w.cell.tallies.wf .zero = true → 0 < n →
    let u := w.addTally t n src
    u.cell.tallies.get .zero t = { value := min 0xFFFFFFFF ((w.cell.tally t) + n), last := w.cell.lastAfter t src } ∧
    (src.isSome ∨ t ∉ w.cell.seq.arrivals → w.cell.lastAfter t src = src) ∧
    (src = none → t ∈ w.cell.seq.arrivals → w.cell.lastAfter t src = (w.cell.tallies.get .zero t).last) ∧
    (∀ k, k ≠ t → u.cell.tallies.get .zero k = w.cell.tallies.get .zero k) ∧
    (w.cell.tally t + n ≤ 0xFFFFFFFF → u.cell.fault = w.cell.fault) ∧
    (0xFFFFFFFF < w.cell.tally t + n → ∃ r, r.code = Codes.tallyOverflow ∧ u.cell.fault = w.cell.fault.raise r) ∧
    u.cell.tallies.wf .zero = true ∧ u.cell.pad = w.cell.pad ∧ u.cell.accs = w.cell.accs ∧ u.cell.regs = w.cell.regs

/-- A raised fault (R57, R60): the first of the step stays latched, every one is reported, and only SHEEPDOG and CELL_DEAD stop the sequencer. -/
def Obligations.FaultLatch : Prop :=
  ∀ (w : Work) (code : Code) (f e i d : Nat),
    let t := w.raise code f e i d
    (w.cell.fault.first.isSome = true → t.cell.fault.first = w.cell.fault.first) ∧
    (w.cell.fault.first = none → t.cell.fault.first = some { code, fold := f, entry := e, iter := i, detail := d }) ∧
    t.cell.fault.reports = w.cell.fault.reports ++ [{ code, fold := f, entry := e, iter := i, detail := d }] ∧
    t.cell.seq.stopped = (w.cell.seq.stopped || decide (code = Codes.sheepdog ∨ code = Codes.cellDead)) ∧
    t.cell.mode = w.cell.mode ∧ t.cell.tallies = w.cell.tallies ∧ t.cell.pad = w.cell.pad ∧ t.cell.regs = w.cell.regs ∧ t.cell.accs = w.cell.accs

/-! ### The static fabric (R132–R156) -/

/-- A token that reaches an input port (R52, R133, R153, R155): with good sideband and payload it enters its slice; in a sweep a token of the old generation is
dropped and counted stale; a tag without a slice drops it and raises FOLD_PARTITION; bad sideband parity drops it, counted, with PARITY_LINK. -/
def Claims.TokenArrivals : Prop :=
  ∀ (s : State) (c : Coord) (port : Nat) (t : Token) (rest : List Token), c.present = true → port < 56 → (s.cell c).mode ≠ .dead → (s.cell c).mode ≠ .fenced →
    (s.cell c).fab.wires.get [] port = t :: rest →
    let x := s.cell c
    let u := s.setCell c { x with fab := { x.fab with wires := x.fab.wires.set [] port rest } }
    let w := u.work c
    (t.sideBad = false → t.payload.parityError = false → t.ctlBad = false →
      let err : TokenErr := { sideband := false, flips := [] }
      (w.cell.fab.sweep = false ∨ t.gen = w.cell.regs.gen → w.cell.regs.slice port t.tag ≠ 0 →
        exec (.tokenArrival c port err) s = .next (u.absorb (w.mapFab fun fb => { fb with slices := fb.slices.upd [] (8 * port + t.tag) (· ++ [t]) }))) ∧
      (w.cell.fab.sweep = true → t.gen ≠ w.cell.regs.gen →
        exec (.tokenArrival c port err) s = .next (u.absorb (w.mapFab fun fb => { fb with stale := satAdd 0xFFFF fb.stale 1 }))) ∧
      (w.cell.fab.sweep = false ∨ t.gen = w.cell.regs.gen → w.cell.regs.slice port t.tag = 0 →
        exec (.tokenArrival c port err) s = .next (u.absorb (w.raiseHere Codes.foldPartition port)))) ∧
    (t.sideBad = false →
      let v : State := { u with defects := u.defects.countFabric (edgeNetwork c (trackDir port) (networkOf port)) }
      exec (.tokenArrival c port { sideband := true, flips := [] }) s = .next (v.absorb
        (((v.work c).mapFab fun fb => { fb with linkParity := satAdd 0xFFFF fb.linkParity 1 }).raiseHere Codes.parityLink port)))

/-- Credits on their way back (R141): each counter rises by what was on its way, to 16 at most, and nothing is on its way any more; no other part of the
cell, and no other cell, changes. -/
def Claims.CreditReturn : Prop :=
  ∀ (s : State) (c : Coord), c.present = true → s.cells.wf .reset = true → (s.cell c).fab.credits.wf 0 = true → (s.cell c).fab.creditWire.wf 0 = true →
    ∃ t, exec (.creditReturn c) s = .next t ∧ (t.cell c).fab.creditWire = [] ∧
      (∀ k, (t.cell c).fab.credits.get 0 k = (let n := (s.cell c).fab.creditWire.get 0 k
        let old := (s.cell c).fab.credits.get 0 k
        if n = 0 then old else min 16 (old + n))) ∧
      (t.cell c).fab.slices = (s.cell c).fab.slices ∧ (t.cell c).regs = (s.cell c).regs ∧ (t.cell c).tallies = (s.cell c).tallies ∧
      (t.cell c).pad = (s.cell c).pad ∧ (∀ d : Coord, d.key ≠ c.key → t.cell d = s.cell d) ∧ t.routers = s.routers ∧ t.regions = s.regions

/-- Tokens and credits that arrive: all of `Claims.TokenArrivals`, `Claims.CreditReturn`. -/
def Obligations.FabricLinks : Prop := Claims.TokenArrivals ∧ Claims.CreditReturn

/-- A grant pass of a cell that runs or has halted (R138, R139): the tokens it sends reach the wires of the neighbours, and in a cell of any other state
nothing moves. -/
def Claims.SwitchGrants : Prop :=
  ∀ (s : State) (c : Coord), c.present = true →
    ((s.cell c).mode = .running ∨ (s.cell c).mode = .halted →
      ∃ t, exec (.switchGrantCycle c) s = .next (((s.work c).switchCycle.2).foldl (fun (s : State) (e : Nat × Token) =>
          match c.neighbour (trackDir e.1) with
          | some n => s.mapCell n fun x => { x with fab := { x.fab with wires := x.fab.wires.upd [] (facing e.1) (· ++ [e.2]) } }
          | none => s) t) ∧ t = s.absorb (s.work c).switchCycle.1) ∧
    ((s.cell c).mode ≠ .running → (s.cell c).mode ≠ .halted → exec (.switchGrantCycle c) s = .next s)

/-- In one cycle a track sends one token at most (R139). -/
def Claims.OneTokenPerTrack : Prop :=
  ∀ w : Work, (w.switchCycle.2.map (·.1)).Nodup

/-- A grant pass of a switch, and one token per track: all of `Claims.SwitchGrants`, `Claims.OneTokenPerTrack`. -/
def Obligations.SwitchPass : Prop := Claims.SwitchGrants ∧ Claims.OneTokenPerTrack

/-- A steering unit whose heads pair and whose output holds a credit fires (R149): the control token's bit chooses one of two data tokens, or keeps or zeroes one in mask mode; the heads leave the queues
and the wait starts again. -/
def Claims.SteeringFires : Prop :=
  ∀ (s : State) (c : Coord) (u f : Nat) (ct a : Token) (ctrl rest : List Token), c.present = true → u < 4 →
    (s.cell c).regs.steerFold u = some f →
    let x := s.cell c
    let cfg := x.regs.steerOf f u
    let q := x.fab.steer.get .zero u
    q.ctrl = ct :: ctrl → a.tag = ct.tag → a.gen = ct.gen → x.unitCredit f 3 u q.out.length = true →
    let fired := fun (data : List Token) (out : Token) =>
      let new : PairUnit := { data, ctrl, out := q.out ++ [out], wait := 0, timedOut := q.timedOut }
      Host.Outcome.next (φ := Fault) (ρ := Refusal) (s.setCell c { x with fab := { x.fab with steer := x.fab.steer.set .zero u new } })
    (∀ b : Token, cfg.mask = false → q.data = a :: b :: rest → b.tag = ct.tag → b.gen = ct.gen →
      exec (.steerFire c u) s = fired rest (if ct.ctl.getLsbD cfg.bit != cfg.polarity then a else b)) ∧
    (cfg.mask = true → q.data = a :: rest →
      exec (.steerFire c u) s = fired rest (if ct.ctl.getLsbD cfg.bit != cfg.polarity then a
        else { a with payload := Payload.ofNat a.payload.length 0, ctl := 0 }))

/-- A junction whose heads pair and whose output holds a credit fires (R152): its output is the first head with the reduction of both payloads by R80, and the heads
leave the queues. -/
def Claims.JunctionFires : Prop :=
  ∀ (s : State) (c : Coord) (j f : Nat) (a b : Token) (data ctrl : List Token), c.present = true → j < 2 →
    (s.cell c).regs.junctionFold j = some f →
    let x := s.cell c
    let q := x.fab.junction.get .zero j
    q.data = a :: data → q.ctrl = b :: ctrl → a.tag = b.tag → a.gen = b.gen → x.unitCredit f 4 j q.out.length = true →
    let new : PairUnit :=
      { data, ctrl, out := q.out ++ [{ a with payload := reducePayload 0 a.payload b.payload }], wait := 0, timedOut := q.timedOut }
    exec (.junctionFire c j) s = .next (s.setCell c { x with fab := { x.fab with junction := x.fab.junction.set .zero j new } })

/-- A steering unit whose heads wait without a pair and that has not timed out does so at its limit (R150): WAIT stands at the limit at least, TIMED_OUT is set,
and STEER_TIMEOUT is raised. -/
def Claims.SteeringTimesOut : Prop :=
  ∀ (s : State) (c : Coord) (u : Nat), c.present = true → u < 4 →
    let w := s.work c
    let q := w.cell.fab.steer.get .zero u
    q.waiting = true → q.pairs (w.cell.regs.steerNeed u) = false → q.timedOut = false →
    let new : PairUnit := { q with wait := max q.wait w.cell.regs.steerTimeout, timedOut := true }
    exec (.steerTimeout c u) s =
      .next (s.absorb ((w.mapFab fun fb => { fb with steer := fb.steer.set .zero u new }).raiseHere Codes.steerTimeout u))

/-- Steering units and junctions fire and time out: all of `Claims.SteeringFires`, `Claims.JunctionFires`, `Claims.SteeringTimesOut`. -/
def Obligations.PairingUnits : Prop := Claims.SteeringFires ∧ Claims.JunctionFires ∧ Claims.SteeringTimesOut

/-! ### The packet mesh (R183–R218) -/

/-- A PUT for the cell or a FLOCK_DOWN copy that is delivered (R19, R108, R189, R193, R196): with a good CRC, not seen before, inside one line of the scratchpad
and with nothing to wait for, its bytes are written under the channel rules, its tally rises where it names one, and it is recorded and acknowledged; where it
must wait, it holds the mesh port; a repetition is acknowledged, and a re-send that cannot be told from one answered E2E_GIVEUP, with no write; one with a bad
CRC is answered PARITY_LINK. -/
def Claims.PutArrives : Prop :=
  ∀ (s t : State) (c : Coord) (p : Packet) (row : Instr × Nat), row ∈ [(.putArrival c, tPut), (.flockDownArrival c, tFlockDown)] →
    s.Delivers c (isRequestOf row.2) p t → (row.2 = tPut → p.forGate = false) → (s.cell c).mesh.port = none →
    let w := t.work c
    let view := w.cell.mesh.view p.src p.req p.tag p.seq p.attempt w.now
    (p.crcOk = true → view = .fresh → inPadWindow p.offset = true → padAccessOk w.here.kind p.offset p.len = true → w.mustWait p p.offset p.len = false →
      let v := (w.takeSlots p p.offset p.len).writeHere p.offset p.cleanPayload
      exec row.1 s = .next (t.absorb ((if p.tallyEn then v.addTally p.tally 1 (some p.src) else v).recordAck p))) ∧
    (p.crcOk = true → view = .fresh → inPadWindow p.offset = true → padAccessOk w.here.kind p.offset p.len = true → w.mustWait p p.offset p.len = true →
      exec row.1 s = .next (t.mapCell c fun x => { x with mesh := { x.mesh with port := some (p, x.askCycle p.slots.2) } })) ∧
    (p.crcOk = true → view = .duplicate → exec row.1 s = .next (t.absorb (w.ack p))) ∧
    (p.crcOk = true → view = .unsure → exec row.1 s = .next (t.absorb (w.nack p Codes.e2eGiveup))) ∧
    (p.crcOk = false → exec row.1 s = .next (t.absorb (w.nack p Codes.parityLink)))

/-- A GET for the cell that is delivered with a good CRC (R19, R100, R188, R189): a length of 0 is answered with no bytes; outside M-cells a read of the scratchpad
that has nothing to wait for is answered with the bytes it gives; in an M-cell with no merge window open it opens one with the line as it saw it, and one that joins an open window takes the port's
turn and no bank slot (log entry 147 for its checks); a register read is answered with the register's bytes. -/
def Claims.GetArrives : Prop :=
  ∀ (s t : State) (c : Coord) (p : Packet), s.Delivers c (isRequestOf tGet) p t → p.forGate = false → (s.cell c).mesh.port = none → p.crcOk = true →
    let w := t.work c
    (inPadWindow p.offset = true → padAccessOk w.here.kind p.offset p.len = true → p.len = 0 →
      exec (.getArrival c) s = .next (t.absorb (w.replyTo p []))) ∧
    (inPadWindow p.offset = true → padAccessOk w.here.kind p.offset p.len = true → 0 < p.len → w.cell.mesh.windows = [] →
      w.mustWait p p.offset p.len = false →
      let r := w.readHere p.offset p.len
      let v := r.2.takeSlots p p.offset p.len
      (w.here.kind ≠ .m → exec (.getArrival c) s = .next (t.absorb (v.replyTo p r.1))) ∧
      (w.here.kind = .m → exec (.getArrival c) s = .next (t.absorb (v.mapMesh fun m => { m with windows :=
        [{ line := p.offset / 64, data := v.cell.snapshot (p.offset / 64), since := v.cell.seq.cycle, reads := [p.asRead], closed := false }] })))) ∧
    (∀ v, inPadWindow p.offset = true → padAccessOk w.here.kind p.offset p.len = true → 0 < p.len → w.merges p = some v →
      w.portBusy = false → w.cell.mayRead = true →
      exec (.getArrival c) s = .next (t.absorb (((w.readHere p.offset p.len).2.takePort 1).mapMesh fun m => { m with windows := m.windows.map fun u =>
        if u = v then { u with reads := u.reads ++ [p.asRead], closed := decide (16 ≤ u.reads.length + 1) } else u }))) ∧
    (∀ d, inPadWindow p.offset = false → w.cell.readRegs w.here (s.dmaWait c) p.offset p.len = some d →
      exec (.getArrival c) s = .next (t.absorb (w.replyTo p d)))

/-- A TALLY_ADD or a RED packet that is delivered with a good CRC and is no repetition (R189, R196, R218): a TALLY_ADD raises its tally by its increment and is
recorded and acknowledged; a RED packet of a known operation, of 32 aligned bytes inside the scratchpad and outside every ring, with nothing to wait for and
every contributor new, is applied (`RedCombinesInMemory` says what that leaves). -/
def Claims.TallyAddAndRedArrive : Prop :=
  ∀ (s t : State) (c : Coord) (p : Packet), p.crcOk = true →
    (s.Delivers c (isRequestOf tTallyAdd) p t → (t.work c).cell.mesh.view p.src p.req p.tag p.seq p.attempt (t.work c).now = .fresh →
      exec (.tallyAddArrival c) s = .next (t.absorb (((t.work c).addTally p.tally (p.offset % 2 ^ 16) (some p.src)).recordAck p))) ∧
    (s.Delivers c (isRequestOf tRed) p t → (s.cell c).mesh.port = none →
      let w := t.work c
      p.offset % 32 = 0 → inPadWindow p.offset = true → p.offset + 32 ≤ w.here.kind.spadBytes → w.cell.channelAt p.offset = none → p.aux % 16 ≤ 8 →
      (∀ e ∈ p.entries, w.cell.mesh.view e.at_ e.req e.tag e.seq e.attempt w.now = .fresh) → w.mustWait p p.offset 32 = false →
      exec (.redArrival c) s = .next (t.absorb (w.applyRed p)))

/-- Requests delivered to a cell by the mesh: all of `Claims.PutArrives`, `Claims.GetArrives`, `Claims.TallyAddAndRedArrive`. -/
def Obligations.RequestsArrive : Prop := Claims.PutArrives ∧ Claims.GetArrives ∧ Claims.TallyAddAndRedArrive

/-- What a RED packet leaves in the scratchpad (R80, R218): the 32 stored bytes become their reduction with the packet's by its operation, and no byte outside
them changes. -/
def Obligations.RedCombinesInMemory : Prop :=
  ∀ (w : Work) (p : Packet) (a : Nat), w.cell.pad.bytes.wf PByte.zero = true → w.cell.channelAt p.offset = none →
    let cur := if (w.cell.stored p.offset 32).parityError then Payload.poison 32 else w.cell.stored p.offset 32
    let new := reducePayload (p.aux % 16) cur p.cleanPayload
    (a < p.offset ∨ p.offset + new.length ≤ a → (w.applyRed p).cell.pad.bytes.get PByte.zero a = w.cell.pad.bytes.get PByte.zero a) ∧
    (∀ i (h : i < new.length), (w.applyRed p).cell.pad.bytes.get PByte.zero (p.offset + i) = new[i])

/-- A FLOCK_UP that reaches its root (R191, R193, R210): with a good CRC the source is told MEMBERS by a FANOUT, unless it is posted, and a FLOCK_DOWN goes out; with
a bad one it is answered PARITY_LINK, and a posted one dropped and counted. -/
def Claims.FlockUpArrives : Prop :=
  ∀ (s t : State) (c : Coord) (p : Packet), s.Delivers c (fun p => p.type == tFlockUp) p t →
    (p.crcOk = true → p.posted = false → exec (.flockUpArrival c) s =
      .next ((t.routerSend c (p.respond tFanout c t.epoch t.clock (((t.router c).roots.find p.flock).getD 0) 0 [])).routerSend c p.flockDown)) ∧
    (p.crcOk = true → p.posted = true → exec (.flockUpArrival c) s = .next (t.routerSend c p.flockDown)) ∧
    (p.crcOk = false → p.posted = false →
      exec (.flockUpArrival c) s = .next (t.routerSend c (p.respond tNack c t.epoch t.clock Codes.parityLink.toNat 0 []))) ∧
    (p.crcOk = false → p.posted = true → exec (.flockUpArrival c) s = .next (t.mapRouter c fun r => r.count cDropCrc 1))

/-- A LOFT_RD or a LOFT_WR that is delivered at a vault in service with a good CRC and a line that exists (R106, R196, R222, R228): a read waits at the vault's
port; a write that is no repetition and of whose transfers at most two showed bad parity counts those and waits there with its data. -/
def Claims.LoftRequestsArrive : Prop :=
  ∀ (s t : State) (c : Coord) (p : Packet), p.crcOk = true → loftRequestBad c p = false → (t.vault (cellVault c)).lost = false →
    (s.Delivers c (isRequestOf tLoftRd) p t → exec (.loftRdArrival c) s = .next (t.mapVault (cellVault c) fun v =>
      { v with queue := v.queue ++ [{ src := .mesh p, line := p.offset % 2 ^ 19, write := none, accepted := false }] })) ∧
    (∀ bad, bad < 3 → s.Delivers c (isRequestOf tLoftWr) p t → (t.cell c).mesh.view p.src p.req p.tag p.seq p.attempt t.clock = .fresh →
      (∀ q ∈ (t.vault (cellVault c)).queue, q.copyOf p = false) →
      let u := t.mapVault (cellVault c) fun v => { v with portParity := satAdd 0xFFFF v.portParity (min 3 bad) }
      exec (.loftWrArrival c bad) s = .next ((u.mapVault (cellVault c) fun v =>
        { v with queue := v.queue ++ [{ src := .mesh p, line := p.offset % 2 ^ 19, write := some p.cleanPayload, accepted := false }] }).declareFailed (cellVault c)))

/-- Responses with a good CRC that reach the unit of a cell whose request they answer (R37, R194, R197, R212): an ACK ends the request with its status, or, from a
flock's member, counts it; a NACK ends it with its status, or with PARITY_LINK draws a re-send while attempts are left and ends it after the last; FANOUT tells
the number of members; a DROP counts among those of its kind; a REPLY of status OK with nothing to wait for lands a GET's data in the scratchpad of its
requester; the one entry of a MULTI_REPLY acts as its own REPLY would. What the response frees moves on. -/
def Claims.ResponsesArrive : Prop :=
  ∀ (s t : State) (c : Coord) (p : Packet) (o : Outstanding), p.crcOk = true → (t.work c).cell.matching p = some o →
    (s.Delivers c (fun p => p.type == tAck) p t →
      exec (.ackArrival c) s = .next ((t.absorb (if p.aux % 2 = 1 then (t.work c).updateFlock o fun o => { o with acks := o.acks + 1 }
        else (t.work c).complete o (BitVec.ofNat 16 p.offset) 0 [])).pumpAll c)) ∧
    (s.Delivers c (fun p => p.type == tNack) p t →
      exec (.nackArrival c) s = .next ((t.absorb (
        if BitVec.ofNat 16 p.offset = Codes.parityLink then (if o.pkt.attempt < 3 then (t.work c).resend o else (t.work c).lastFailed o)
        else (t.work c).complete o (BitVec.ofNat 16 p.offset) 0 [])).pumpAll c)) ∧
    (s.Delivers c (fun p => p.type == tFanout) p t →
      exec (.fanoutArrival c) s = .next ((t.absorb ((t.work c).updateFlock o fun o => { o with members := some (p.offset % 2 ^ 20) })).pumpAll c)) ∧
    (s.Delivers c (fun p => p.type == tDrop) p t →
      exec (.dropArrival c) s = .next ((t.absorb ((t.work c).updateFlock o fun o =>
        if p.aux % 2 = 0 then { o with drops0 := o.drops0 + 1 } else { o with drops1 := o.drops1 + 1 })).pumpAll c)) ∧
    (∀ addr, s.Delivers c (fun p => p.type == tReply) p t → (s.cell c).mesh.port = none → BitVec.ofNat 16 p.offset = Codes.ok → o.local_ = some addr →
      (t.work c).mustWait p addr p.len = false →
      exec (.replyArrival c) s = .next ((t.absorb (((t.work c).takeSlots p addr p.len).landReply o p.cleanPayload p.src)).pumpAll c)) ∧
    (∀ q e, s.Delivers c (fun p => p.type == tMultiReply) q t → q.crcOk = true → q.entries = [e] → q.entryReply e = p → (t.cell c).mesh.port = none →
      ∀ w, (t.work c).replyArrive p = some w → exec (.multiReplyArrival c) s = .next ((t.absorb w).pumpAll c))

/-- Flock, loft and response packets delivered by the mesh: all of `Claims.FlockUpArrives`, `Claims.LoftRequestsArrive`, `Claims.ResponsesArrive`. -/
def Obligations.PacketsArrive : Prop := Claims.FlockUpArrives ∧ Claims.LoftRequestsArrive ∧ Claims.ResponsesArrive

/-- Timers of a cell's requests (R100, R194, R195, R197, R212): 4 µs after an attempt, no flip pending, a request is sent again, or ends after its last; a tag that
rested rests no more; a merge window that is due sends its reply; a packet at the head of a buffer whose age has run out is dropped and counted, and one whose
age has not runs out with every other that does by then, as the time passes. -/
def Obligations.MeshTimers : Prop :=
  ∀ (s : State) (c : Coord), c.present = true →
    (∀ (req tag : Nat) (o : Outstanding), req < 5 → tag < 16 → s.flipPending = false →
      (s.cell c).mesh.out.find? (fun o => o.pkt.req == req && o.pkt.tag == tag) = some o →
      let t := s.advanceTo (o.sentAt + 4)
      exec (.resendTimerExpiry c req tag) s =
        .next ((t.absorb (if o.pkt.attempt < 3 then (t.work c).resend o else (t.work c).lastFailed o)).pumpAll c)) ∧
    (∀ req tag : Nat, req < 5 → tag < 16 → (s.cell c).mesh.resting.get 0 (16 * req + tag) ≠ 0 →
      exec (.tagRestEnd c req tag) s = .next (((s.advanceTo ((s.cell c).mesh.resting.get 0 (16 * req + tag))).mapCell c fun x =>
        { x with mesh := { x.mesh with resting := x.mesh.resting.erase (16 * req + tag) } }).pumpAll c)) ∧
    (∀ (line : Nat) (w : Work), (s.cell c).windowDue line = true → (s.work c).closeWindow line = some w →
      exec (.mergeWindowClose c line) s = .next (s.absorb w)) ∧
    (∀ (port lane : Nat) (p : Packet), port < 8 → lane < 5 → (s.router c).head port lane = some p →
      (p.expired s.clock = true → exec (.packetAgeExpiry c port lane) s = .next (s.dropHead c port lane cDropAge)) ∧
      (p.expired s.clock = false → ∃ t, exec (.packetAgeExpiry c port lane) s = .next t ∧ t = s.advanceTo (p.ageEnd s.clock) ∧
        t.clock = max s.clock (p.ageEnd s.clock)))

/-- A hop of the packet at the head of a buffer (R193, R195, R198, R202, R205; each try that R205 holds back counts as one mesh cycle, log entry 128): a header in error drops it; an age that ran out drops it, counted; an epoch that is not
valid any more drops it, counted, with EPOCH_MISMATCH recorded; an injection that R205 holds back stays, counted. Any other packet but a FLOCK_DOWN or a
MULTI_REPLY, for a paddock that is routed to, is delivered, takes the hop, waits, or is dropped, counted, as R198's choice says. -/
def Claims.PacketHops : Prop :=
  ∀ (s : State) (c : Coord) (port lane : Nat) (p : Packet), c.present = true → port < 8 → lane < 5 → (s.router c).head port lane = some p →
    (∀ err : HopErr, err.header = true → exec (.packetHop c port lane err) s = .next (s.headerDrop c port lane)) ∧
    (let err : HopErr := { header := false, crc := false }
     (p.typeOk = true → p.expired s.clock = true → exec (.packetHop c port lane err) s = .next (s.dropHead c port lane cDropAge)) ∧
     (p.typeOk = true → p.expired s.clock = false → p.epoch ≠ s.epoch → s.oldValid = false → exec (.packetHop c port lane err) s =
       .next ((s.dropHead c port lane cEpochDiscard).hubNote c.field recEvent Codes.epochMismatch 0 (placeOf c) [])) ∧
     (p.typeOk = true → p.expired s.clock = false → p.epoch = s.epoch ∨ s.oldValid = true → (s.router c).held port p = true →
       exec (.packetHop c port lane err) s = .next (s.holdBack c port lane p)) ∧
     (p.typeOk = true → p.expired s.clock = false → p.epoch = s.epoch ∨ s.oldValid = true → p.type ≠ tFlockDown → p.type ≠ tMultiReply →
       (s.router c).held port p = false → s.lostRoute p.epoch p.dst.paddock = false →
       ((s.router c).choose c p p.dst (onDroveRoad port lane) (s.roomAt c) = .deliver →
         exec (.packetHop c port lane err) s = .next (((s.mapRouter c fun r => r.setHead port lane none).injected c port p).deliver c p)) ∧
       (∀ d l, (s.router c).choose c p p.dst (onDroveRoad port lane) (s.roomAt c) = .move d l →
         exec (.packetHop c port lane err) s = .next (((s.mapRouter c fun r => r.setHead port lane none).injected c port p).crossTo c d l p)) ∧
       ((s.router c).choose c p p.dst (onDroveRoad port lane) (s.roomAt c) = .wait →
         exec (.packetHop c port lane err) s = .next (s.mapRouter c fun r => r.setHead port lane (some p))) ∧
       ((s.router c).choose c p p.dst (onDroveRoad port lane) (s.roomAt c) = .dropDown →
         exec (.packetHop c port lane err) s = .next (s.dropHead c port lane cDropDown))))

/-- The combining unit (R191, R205, R217): two heads that fit and of which neither is an injection held back, the unit being free, become one packet at the
router's own input, counted, where both CRCs hold; each whose CRC fails is dropped and counted. -/
def Claims.RedHeadsCombine : Prop :=
  ∀ (s : State) (c : Coord) (pa la pb lb : Nat) (a b : Packet), c.present = true → pa < 5 → la < 5 → pb < 5 → lb < 5 → (pa ≠ pb ∨ la ≠ lb) →
    (s.router c).head pa la = some a → (s.router c).head pb lb = some b → redFits a b = true →
    ((s.router c).lanes.get [] 56).any (fun p => p.type == tRed) = false → (s.router c).held pa a = false → (s.router c).held pb b = false →
    (a.crcOk = true → b.crcOk = true →
      exec (.redCombine c pa la pb lb) s = .next (((s.mapRouter c fun r =>
        (((r.setHead pa la none).setHead pb lb none).count cCombined 1).inject 7 (redMerge c s.clock a b)).injected c pa a).injected c pb b)) ∧
    (a.crcOk = false → b.crcOk = true → exec (.redCombine c pa la pb lb) s = .next (s.dropHead c pa la cDropCrc)) ∧
    (a.crcOk = true → b.crcOk = false → exec (.redCombine c pa la pb lb) s = .next (s.dropHead c pb lb cDropCrc)) ∧
    (a.crcOk = false → b.crcOk = false →
      exec (.redCombine c pa la pb lb) s = .next ((s.dropHead c pa la cDropCrc).dropHead c pb lb cDropCrc))

/-- A packet hops, and reductions combine in a router: all of `Claims.PacketHops`, `Claims.RedHeadsCombine`. -/
def Obligations.RouterHops : Prop := Claims.PacketHops ∧ Claims.RedHeadsCombine

/-- The routing flip (R200, R202): a link that comes to be marked down is marked at its ends, in the map, and triggers a flip; where the new version meets R200
it is installed in every router and becomes current, the old one staying valid, and where it does not nothing changes; once every hub has confirmed,
FLIP_PENDING clears; 4 µs after the change the old version is no longer valid. -/
def Obligations.RoutingFlip : Prop :=
  ∀ s : State,
    (∀ links : List (Coord × Nat), s.boot.routed = true → s.oldValid = false → s.flipPending = false → ∀ c d n, links = [(c, d)] → c.present = true → d < 4 →
      c.neighbour d = some n → edgeOf c d ∉ s.defects.meshDown →
      exec (.epochFlipTrigger links []) s = .next ((s.edgeOut c d).mapChanged.flipTrigger 1)) ∧
    (∀ entries, s.flipPending = true → s.oldValid = false →
      ((s.writeVersion (!s.epoch) entries).versionMeets (!s.epoch) = true →
        ∃ t, exec (.epochInstall entries) s = .next t ∧ t.epoch = !s.epoch ∧ t.oldValid = true ∧ t.flipPending = true ∧ t.flipAt = s.clock) ∧
      ((s.writeVersion (!s.epoch) entries).versionMeets (!s.epoch) = false → exec (.epochInstall entries) s = .next s)) ∧
    (s.flipPending = true → s.oldValid = true → (∀ f, f < fieldCount → s.defects.misses.get 0 f = 0) →
      ∃ t, exec .epochConfirm s = .next t ∧ t.flipPending = false ∧ t.oldValid = true ∧ t.epoch = s.epoch ∧ t.routers = s.routers) ∧
    (s.oldValid = true → s.flipPending = false → s.flipWaiting = 0 →
      ∃ t, exec .oldValidClear s = .next t ∧ t.oldValid = false ∧ t.flipPending = false ∧ t.epoch = s.epoch ∧ t.clock = max s.clock (s.flipAt + 4))

/-! ### Run control (R154, R168–R181, R322, R500) -/

/-- START of a LOADED or HALTED region whose cells are in service and may start (R174, R309, R382): tallies take their INIT values, latched faults and muster
state clear, the CHECK areas are zeros; a LOADED region has its credits start, is READY, and the command completes OK; of a HALTED one the generation sweep
starts, at whose end the command completes. -/
def Claims.StartMakesReady : Prop :=
  ∀ (s : State) (m : HcpMsg) (r : Region), s.Takes m opStart →
    let k := s.kept m
    k.mustQueue m.region = false → k.regions.find m.region = some r → r.peerLost = false → k.condemnedAt r = none →
    (k.liveCells r).all (fun c => (k.cell c).regs.startable) = true → k.windowsOpen (Image.ofBody r.body) = true → k.coreOnRef r = false →
    let t := (((k.startCells r).mustersAbandon r).abortDma r false).clearChecks m.region
    (r.mode = .loaded → exec (.start m) s =
      .next ((((t.creditsStart r).mapRegion m.region fun r => { r with mode := .ready }).finish (refOf m) m.region outOk 0 0).runWaiting)) ∧
    (r.mode = .halted → exec (.start m) s = .next (((t.startSweep r).mapRegion m.region fun r => { r with starting := some (refOf m) }).runWaiting))

/-- STEP of a READY region for the step after its last committed one (R165, R175): its bank patches take force and the region is RUNNING that step; its
completion comes with the step's end. -/
def Claims.StepRuns : Prop :=
  ∀ (s : State) (m : HcpMsg) (r : Region), s.Takes m opStep →
    let k := s.kept m
    k.mustQueue m.region = false → k.regions.find m.region = some r → r.mode = .ready → r.peerLost = false → r.peersMoved = [] → k.condemnedAt r = none →
    m.step = r.committed + 1 → r.committed < 0xFFFFFFFF → (bitAt m.flags 0 = true → (Image.ofBody r.body).collectives = []) →
    exec (.step m) s = .next ((((k.patchStep m.region r m.step).mapRegion m.region fun r => { r with
      mode := .running, pendingStep := none, forced := none, forcedBy := none, faults := [], suspects := []
      run := some { cmd := refOf m, step := m.step, hostCommit := bitAt m.flags 0, released := false, ended := none } })).runWaiting)

/-- COMMIT of the step that waits for it (R178): it becomes COMMITTED_STEP, and the command completes OK. -/
def Claims.CommitCommits : Prop :=
  ∀ (s : State) (m : HcpMsg) (r : Region), s.Takes m opCommit →
    let k := s.kept m
    k.mustQueue m.region = false → k.regions.find m.region = some r → r.mode = .ready ∨ r.mode = .halted → r.pendingStep = some m.step → k.condemned r = none →
    exec (.commit m) s = .next (((k.mapRegion m.region fun r => { r with committed := m.step, pendingStep := none }).finish (refOf m) m.region outOk 0 0).runWaiting)

/-- RELOCATE of a LOADED or HALTED region to a placement that the checks of R180 pass: the region's move begins. -/
def Claims.RelocateBegins : Prop :=
  ∀ (s : State) (m : HcpMsg) (r : Region), s.Takes m opRelocate →
    let k := s.kept m
    k.mustQueue m.region = false → k.regions.find m.region = some r → r.mode = .loaded ∨ r.mode = .halted → r.peerLost = false →
    rectsMeet r.bx r.oy r.w r.h m.bx m.oy r.w r.h = false → k.linksOk m.region m.bx m.oy (Image.ofBody r.body) r.body = true →
    k.placeOk m.region m.bx m.oy false (Image.ofBody r.body) r.body = true →
    let job : LoadJob :=
      { cmd := refOf m, kind := .relocate r.bx r.oy, body := r.body, step := r.committed, bx := m.bx, oy := m.oy, waitIdle := true,
        installed := false, sweeping := false, back := r.mode }
    exec (.relocate m) s =
      .next ((((k.mapRegion m.region fun r => { r with load := some job }).stageTry m.region).deliveredNow m.region).runWaiting)

/-- START, STEP, COMMIT and RELOCATE that are taken in: all of `Claims.StartMakesReady`, `Claims.StepRuns`, `Claims.CommitCommits`, `Claims.RelocateBegins`. -/
def Obligations.RunCommands : Prop := Claims.StartMakesReady ∧ Claims.StepRuns ∧ Claims.CommitCommits ∧ Claims.RelocateBegins

/-- HALT (R171, R175, R176): a READY region is HALTED and the command completes at once, as it does of a LOADED or HALTED region, which stays; for a RUNNING or
ABORTING region it waits. -/
def Claims.HaltHalts : Prop :=
  ∀ (s : State) (m : HcpMsg) (r : Region), s.Takes m opHalt → (s.kept m).regions.find m.region = some r →
    (r.mode = .ready → exec (.halt m) s =
      .next ((((s.kept m).setModes r .halted).mapRegion m.region fun r => { r with mode := .halted }).finish (refOf m) m.region outOk 0 0).runWaiting) ∧
    (r.mode = .loaded ∨ r.mode = .halted → exec (.halt m) s = .next ((s.kept m).finish (refOf m) m.region outOk 0 0).runWaiting) ∧
    (r.mode = .running ∨ r.mode = .aborting → exec (.halt m) s =
      .next ((s.kept m).mapRegion m.region fun r => { r with halts := r.halts ++ [refOf m] }).runWaiting)

/-- ABORT (R171, R176, R316, R500): of a RUNNING region a collective whose arrival is posted ends without commit, the ring slots stop and a boundary is forced, and
the command waits for the boundary's end; a READY one enters ABORTING with its cells HALTED and its channels aborted; of a region that is ABORTING it completes at once,
a collective whose arrival is posted ended; a LOADING, LOADED or HALTED one is released. -/
def Claims.AbortForces : Prop :=
  ∀ (s : State) (m : HcpMsg) (r : Region), s.Takes m opAbort → (s.kept m).regions.find m.region = some r →
    (r.mode = .running →
      exec (.abort m) s = .next ((((((s.kept m).endDoubt m.region r).stopRings m.region 6).force m.region Codes.aborted).mapRegion m.region fun r =>
        { r with aborts := r.aborts ++ [refOf m] }).runWaiting)) ∧
    (∀ u : State, u.hasPosted m.region r = false → u.endDoubt m.region r = u) ∧
    (r.mode = .ready → exec (.abort m) s =
      .next ((((s.kept m).setModes r .halted).abortDma r true).mapRegion m.region fun r =>
        { r with mode := .aborting, faults := [], suspects := [], aborts := r.aborts ++ [refOf m] }).runWaiting) ∧
    (r.mode = .aborting → (s.kept m).hasPosted m.region r = false → exec (.abort m) s = .next ((s.kept m).finish (refOf m) m.region outOk 0 0).runWaiting) ∧
    (r.mode = .aborting → (s.kept m).hasPosted m.region r = true →
      exec (.abort m) s = .next (((s.kept m).endDoubt m.region r).finish (refOf m) m.region outOk 0 0).runWaiting) ∧
    (r.mode = .loading ∨ r.mode = .loaded ∨ r.mode = .halted → exec (.abort m) s = .next ((s.kept m).abortRelease m r).runWaiting)

/-- A forced boundary (R27, R175, R176): a RUNNING region enters ABORTING with the first cause kept, its committed step, image and placement as they were; a READY
one is HALTED at once (log entry 50), and any other stays as it is. -/
def Claims.ForcedBoundary : Prop :=
  ∀ (s : State) (h : Nat) (r : Region) (code : Code) (cell : Option Coord), s.regions.find h = some r →
    (r.mode = .running → ∃ q, (s.force h code cell).regions.find h = some q ∧ q.mode = .aborting ∧ q.forced = some (r.forced.getD code) ∧
      q.committed = r.committed ∧ q.body = r.body ∧ q.bx = r.bx ∧ q.oy = r.oy) ∧
    (r.mode = .ready → s.force h code cell = (s.setModes r .halted).mapRegion h fun r => { r with mode := .halted }) ∧
    (r.mode ≠ .running → r.mode ≠ .ready → s.force h code cell = s)

/-- HALT and ABORT, and the forced boundary: all of `Claims.HaltHalts`, `Claims.AbortForces`, `Claims.ForcedBoundary`. -/
def Obligations.StopCommands : Prop := Claims.HaltHalts ∧ Claims.AbortForces ∧ Claims.ForcedBoundary

/-- LOAD, LOAD_DATA and LOAD_TIMEOUT (R168, R173): a LOAD whose envelope has not all arrived waits for its pieces; a piece is kept for the LOAD it names; 1 s after
the last piece a LOAD that is not whole is refused with CONFIG_INVALID. -/
def Claims.LoadTakesPieces : Prop :=
  ∀ s : State,
    (∀ m : HcpMsg, s.Takes m opLoad → (s.kept m).mustQueue m.region = false → s.modeOf m.region = .empty → s.regions.find m.region = none → 0 < m.length →
      s.hcp.loadOf m.src m.seq = none →
      ∃ l : PendingLoad, l.cmd = refOf m ∧ l.msg = m ∧ l.pieces = [] ∧ l.last = s.clock ∧
        exec (.load m) s = .next ({ s.kept m with hcp := { (s.kept m).hcp with loads := (s.kept m).hcp.loads ++ [l] } } : State).runWaiting) ∧
    (∀ (m : HcpMsg) (l : PendingLoad), m.opcode = opLoadData → m.src.port = .host → m.version = 1 → s.hcpServed = true → s.hcp.loadOf m.src m.seq = some l →
      m.payload.length = m.length → 1 ≤ m.length → m.length ≤ 8192 → m.dataOffset + m.length ≤ l.msg.length → l.msg ∉ s.hcp.waiting →
      let new : PendingLoad := { l with pieces := l.pieces ++ [(m.dataOffset, m.payload)], last := s.clock }
      let t : State := { s with hcp := { s.hcp with loads := s.hcp.loads.map fun q => if q.cmd = l.cmd then new else q } }
      (new.envelope = none → exec (.loadData m) s = .next t) ∧
      (new.envelope.isSome = true → exec (.loadData m) s = .next (t.loadTurn l.msg).runWaiting)) ∧
    (∀ (src : Source) (seq : Nat) (l : PendingLoad), s.hcp.loadOf src seq = some l → l.envelope = none →
      exec (.loadTimeout src seq) s = .next (((s.advanceTo (l.last + 1000000)).dropLoad src seq).refuse l.cmd l.msg.region Codes.configInvalid).runWaiting)

/-- The turn of a LOAD into an EMPTY handle whose envelope is whole (R168, R169): it is refused with the code of the envelope's failing check, or of the first rule that the image
breaks; where every check passes the image is accepted. The envelope is kept no longer. The signatures of FIPS 204 are checked as log entry 3 says. -/
def Claims.LoadAccepts : Prop :=
  ∀ (s : State) (m : HcpMsg) (l : PendingLoad) (b : List Byte), s.hcp.loadOf m.src m.seq = some l → l.envelope = some b → s.regions.find m.region = none →
    match s.verify kindRegion b with
    | .inl code => s.loadTurn m = (s.dropLoad m.src m.seq).refuse (refOf m) m.region code
    | .inr e => match s.checkImage m.region m.bx m.oy true e.body with
      | some code => s.loadTurn m = (s.dropLoad m.src m.seq).refuse (refOf m) m.region code
      | none => s.loadTurn m = (s.dropLoad m.src m.seq).acceptLoad m e

/-- Loading and releasing go on (R105, R154, R169, R174, R181, R500): staging starts once the region's channels are idle and no flip is in hand; a sweep window closes into LOADED for a
new region whose target has no fault, and into READY for a START; referrers of which none runs take a moved placement; a released region whose referrers do not run is freed and its ABORTs complete. -/
def Claims.LoadingGoesOn : Prop :=
  ∀ (s : State) (h : Nat) (r : Region), s.regions.find h = some r →
    (∀ j, r.load = some j → j.waitIdle = true → r.releasing = false → s.regionIdle r = true → r.mode = .loading → s.flipPending = false → s.oldValid = false →
      exec (.dmaChannelsIdle h) s =
        .next ((((s.mapRegion h fun r => { r with load := some { j with waitIdle := false } }).stage h j).deliveredNow h).runWaiting)) ∧
    (∀ j, r.load = some j → r.releasing = false → j.sweeping = true → j.kind = .new → (s.endSweep r).targetFault j = none →
      exec (.sweepWindowClose h) s = .next ((((s.endSweep r).mapRegion h fun r => { r with mode := .loaded, load := none }).finish j.cmd h outOk 0
        ((s.endSweep r).staleTotal r)).runWaiting)) ∧
    (∀ c, r.load = none → r.releasing = false → r.starting = some c →
      let t := ((s.endSweep r).setModes r .loaded).mapRegion h fun r => { r with mode := .ready, starting := none }
      exec (.sweepWindowClose h) s = .next ((t.finish c h outOk 0 (t.staleTotal r)).runWaiting)) ∧
    (r.load = none → (∀ e ∈ s.regions, h ∈ e.2.peersMoved → e.2.mode ≠ .running ∧ e.2.mode ≠ .aborting) →
      exec (.peerFixupRewrite h) s = .next ((((s.regions.filter fun e => decide (h ∈ e.2.peersMoved)).foldl
        (fun (s : State) e => s.rewritePeers e.1 h) s).relocateDone h).runWaiting)) ∧
    (r.releasing = true → s.referrerRuns h = false →
      exec (.peerReleaseFree h) s = .next ((r.aborts.foldl (fun (s : State) c => s.finish c h outOk 0 0) (s.release h)).runWaiting))

/-- LOAD and its pieces, and loading going on: all of `Claims.LoadTakesPieces`, `Claims.LoadAccepts`, `Claims.LoadingGoesOn`. -/
def Obligations.LoadCommands : Prop := Claims.LoadTakesPieces ∧ Claims.LoadAccepts ∧ Claims.LoadingGoesOn

/-- The step's start and end (R48, R175, R178): the step-start release sets every live cell RUNNING at its cleared state; at the step-end release of a step without
a fault, not linked and committed by itself, COMMITTED_STEP rises to it, the cells and the region go back, and STEP completes OK. -/
def Claims.StepStartsAndEnds : Prop :=
  ∀ (s : State) (h : Nat) (r : Region) (q : StepRun), s.regions.find h = some r → r.run = some q → r.mode = .running →
    (q.released = false →
      let t := (((s.mustersStart r).ringsStart h q.step).edgesStart r).mapRegion h fun r => { r with run := some { q with released := true } }
      exec (.stepStartRelease h) s = .next ((t.liveCells r).foldl (fun (s : State) c =>
        (s.mapCell c fun x => { x with mode := .running }).event c fun w =>
          w.stepStart ((Image.ofBody r.body).accs r.body (c.x - 8 * r.bx) (c.y - 8 * r.oy))) t)) ∧
    (q.ended = some false → r.faults = [] → r.halts = [] → (Image.ofBody r.body).collectives = [] → q.hostCommit = false →
      let t := ((s.mapRegion h fun r => { r with committed := q.step }).setModes r .loaded).mapRegion h fun r =>
        { r with mode := .ready, run := none, faults := [] }
      exec (.stepEndCompletion h) s =
        .next (((((t.finish q.cmd h outOk 0 0).haltsDone h r).leftRunning h).moveGates).runWaiting))

/-- A forced boundary that is over, and the reports and checks on its way (R60, R175, R176, R322): the hub takes the oldest report
of its first cell that has one; the check of an ABORTING region's suspect ends, and one that fails leaves the cell DEAD, recorded, the fault it raised standing as
CELL_DEAD; once everything outstanding is in, no report is due and no release is waited for, the region is swept and HALTED and what waited completes. -/
def Claims.BoundaryEnds : Prop :=
  ∀ s : State,
    (∀ (f : Nat) (c : Coord) (q : FaultReport) (rest : List FaultReport), f < fieldCount →
      (fieldCells f).find? (fun c => !(s.cell c).fault.reports.isEmpty) = some c → (s.cell c).fault.reports = q :: rest →
      exec (.hubFaultReport f) s =
        .next (((s.mapCell c fun x => { x with fault := { x.fault with reports := rest } }).faultReported c q).runWaiting)) ∧
    (∀ (c : Coord) (h : Nat) (r : Region), c.present = true → s.regions.find? (fun e => decide (c ∈ e.2.suspects)) = some (h, r) → r.mode = .aborting →
      let t := s.mapRegion h fun r => { r with suspects := r.suspects.erase c }
      exec (.cellCheckDone c true) s = .next t.runWaiting ∧
      exec (.cellCheckDone c false) s =
        .next ((((t.cellLeaves c .dead 8).mapChanged.hubNote c.field recFault Codes.cellDead h (placeOf c) []).mapRegion h fun r => r.suspectDead c).runWaiting)) ∧
    (∀ (h : Nat) (r : Region) (q : StepRun), s.regions.find h = some r → r.mode = .aborting → s.drained h r = true → r.suspects = [] →
      s.reportsDue r = false → s.inDoubt r = false → r.run = some q →
      let t := (((s.startSweep r).endSweep r).setModes r .halted).mapRegion h fun r =>
        { r with mode := .halted, run := none, forced := none, forcedBy := none, faults := [], aborts := [] }
      exec (.abortingComplete h) s = .next (((r.aborts.foldl (fun (s : State) c => s.finish c h outOk 0 0)
        ((t.finish q.cmd h outFault r.forcedCode 0).haltsDone h r)).moveGates.placeNodes h).runWaiting))

/-- A step begins, ends, or comes to a forced boundary: all of `Claims.StepStartsAndEnds`, `Claims.BoundaryEnds`. -/
def Obligations.StepBoundaries : Prop := Claims.StepStartsAndEnds ∧ Claims.BoundaryEnds

/-- HCP messages outside these rules (R171–R173, R343, R344, R364, R476): from the field port every one is discarded and counted; without REFCLK and in minimal mode none is
served; a repeated command is answered with its completion again, or waits for the first copy's; before bring-up is complete, or with a header that R172 does not allow (log entry
53), a command is refused with CONFIG_INVALID; a piece that belongs to no LOAD changes nothing. -/
def Obligations.CommandsTurnedAway : Prop :=
  ∀ (s : State) (m : HcpMsg),
    let rows := [(Instr.load m, opLoad), (.start m, opStart), (.step m, opStep), (.halt m, opHalt), (.abort m, opAbort), (.relocate m, opRelocate), (.commit m, opCommit)]
    (∀ i ∈ (Instr.loadData m, opLoadData) :: rows, m.opcode = i.2 → m.src.port = .field →
      exec i.1 s = .next { s with eth := { s.eth with fieldDiscards := s.eth.fieldDiscards + 1 } }) ∧
    (∀ i ∈ (Instr.loadData m, opLoadData) :: rows, m.opcode = i.2 → m.src.port = .host → s.boot.refclk = false ∨ s.boot.minimal = true → exec i.1 s = .next s) ∧
    (∀ i ∈ rows, ∀ r : CmdRecord, m.opcode = i.2 → m.src.port = .host → s.hcpServed = true → s.hcp.record m.src m.seq = some r →
      exec i.1 s = .next (match r.done with
        | some b => { s with completions := s.completions ++ [(m.src, b)] }
        | none => s)) ∧
    (∀ i ∈ rows, m.opcode = i.2 → m.src.port = .host → s.hcpServed = true → s.hcp.record m.src m.seq = none → s.boot.stage ≠ some 9 ∨ headerFits m = false →
      exec i.1 s = .next ((s.kept m).refuse (refOf m) m.region Codes.configInvalid)) ∧
    (m.opcode = opLoadData → m.src.port = .host → s.hcp.loadOf m.src m.seq = none → exec (.loadData m) s = .next s)

/-! ### Firmware and image broadcasts (R357–R362) -/

/-- Broadcasts (R357–R361): a hub sends the round of its next transfer through its port, fetches of bad digest before the third notwithstanding, and with three it records
DIGEST_MISMATCH and its controller fails; a delivered posted packet with a good CRC that completes no chunk joins the receiver of an EMPTY cell, and is discarded and counted by any
other; a status sweep that finds every live member complete, all of them answering, ends a firmware transfer. -/
def Obligations.Broadcasts : Prop :=
  ∀ s : State,
    (∀ (f bad : Nat) (t u : Transfer) (v : State), f < fieldCount → (s.hub f).transfers.find? Transfer.toSend = some t →
      (t.flock ≠ 0 ∨ bad < 3 → s.transferBegin f t = some (u, v) →
        exec (.broadcastTransfer ⟨f, bad⟩) s = .next ((((roundPackets v f u).foldl (fun (s : State) p => s.mapRouter (fieldOrigin f) fun r => r.inject 5 p) v).mapHub f
          fun h => h.setTransfer Transfer.toSend fun u => { u with sent := true }).runWaiting)) ∧
      (t.flock = 0 → 3 ≤ bad →
        exec (.broadcastTransfer ⟨f, bad⟩) s = .next (((s.hubNote f recFault Codes.digestMismatch t.handle noPlace []).hubFails f).runWaiting))) ∧
    (∀ (c : Coord) (p : Packet) (t : State), s.Delivers c (fun p => p.posted && (p.type == tPut || p.type == tFlockDown)) p t → p.crcOk = true →
      (∀ r, (t.cell c).mode = .empty →
        ((t.receivers.get .zero c.key).take (bits p.offset 13 11) (bits p.offset 7 6) (bits p.offset 0 7) (p.payload.map (·.data))) = (r, none) →
        exec (.broadcastPacketReceive c) s = .next { t with receivers := t.receivers.set .zero c.key r }) ∧
      ((t.cell c).mode ≠ .empty → exec (.broadcastPacketReceive c) s =
        .next { t with receivers := t.receivers.upd .zero c.key fun r => { r with discards := r.discards + 1 } })) ∧
    (∀ (f : Nat) (t : Transfer) (k : CellKind), f < fieldCount → (s.hub f).transfers.find? (fun t => t.sent) = some t → t.use = .firmware k →
      ((s.advanceTo (s.clock + 4)).sweepFinds t []).2 = [] →
      exec (.statusSweep ⟨f, []⟩) s = .next (((s.advanceTo (s.clock + 4)).mapHub f fun h =>
        { h with transfers := h.transfers.filter fun u => !(u.sent && u.number == t.number), rounds := max h.rounds t.round }).clearField f t.flock))

/-! ### Musters (R251–R262, R295) -/

/-- A muster round (R253–R256, R295): the completion longest on its way to a node that is in service reaches it, counts, and goes upward when the count is full, or releases the round
of a muster that is not linked at its top; a release at its cell takes effect there (`MusterReleaseAtCell` says how); 10 µs after its last MUSTER_ARRIVE a member that still waits
sends it again. -/
def Claims.MusterRounds : Prop :=
  ∀ (s : State) (m : Nat), m < 256 →
    (∀ (n : Nat) (p f : Bool) (rest : List (Nat × Bool × Bool)), (s.muster m).transit = (n, p, f) :: rest → s.nodeOut n = false →
      let t := s.mapMuster m fun u => { u with transit := rest }
      let u := t.muster m
      let v := if n < 10000 then t.mapMuster m fun u => { u with arrived := if p then (u.arrived.1, u.arrived.2 + 1) else (u.arrived.1 + 1, u.arrived.2) } else t
      (u.countAt n p + 1 < u.need n →
        exec (.musterNodeArrival m) s = .next (v.mapMuster m fun q => q.setNode n p (u.countAt n p + 1) (u.flagAt n p || f))) ∧
      (u.need n ≤ u.countAt n p + 1 → n ≠ u.topNode →
        exec (.musterNodeArrival m) s = .next ((v.mapMuster m fun q => q.setNode n p 0 false).mapMuster m fun q =>
          { q with transit := q.transit ++ [(treeParent n, p, u.flagAt n p || f)] })) ∧
      (u.need n ≤ u.countAt n p + 1 → n = u.topNode → u.isLinked = false →
        exec (.musterNodeArrival m) s = .next ((v.mapMuster m fun q => q.setNode n p 0 false).treeRelease m p (u.flagAt n p || f)))) ∧
    (∀ c : Coord, c.present = true → c.key ∈ (s.muster m).releases → exec (.musterReleaseAtCell m c) s =
      .next ((s.mapMuster m fun u => { u with releases := u.releases.erase c.key }).event c fun w => w.musterRelease m)) ∧
    (∀ (p f : Bool) (at_ : Nat), (s.muster m).waiting = some (p, f, at_) → (s.muster m).leader ≠ s.relend.engineId →
      let t := s.advanceTo (at_ + 10)
      exec (.musterArriveResend m) s = .next ((t.mapMuster m fun u => { u with waiting := some (p, f, t.clock) }).sendArrive m p f))

/-- A release at a cell (R57, R256): the oldest pending round's signal raises its tally and the round is pending no more; with no arrival held, nothing is posted; an
increment that carries past the tally's 32 bits raises TALLY_OVERFLOW of the entry that entered the muster. -/
def Claims.MusterReleaseAtCell : Prop :=
  ∀ (w : Work) (m t amount : Nat) (by_ : Origin) (rest : List RoundSignal) (parity : Bool), w.cell.must.parts.wf { nextParity := false, pending := [] } = true →
    w.cell.tallies.wf .zero = true → w.cell.must.parts.get { nextParity := false, pending := [] } m = { nextParity := parity, pending := { tally := t, amount, by_ } :: rest } →
    w.cell.must.overrun = none →
    (w.musterRelease m).cell.must.parts.get { nextParity := false, pending := [] } m = { nextParity := parity, pending := rest } ∧
    (w.musterRelease m).posts = w.posts ∧ (0 < amount → (w.musterRelease m).cell.tally t = min 0xFFFFFFFF (w.cell.tally t + amount)) ∧
    (amount = 0 → (w.musterRelease m).cell.tallies = w.cell.tallies) ∧
    (0 < amount → 0xFFFFFFFF < w.cell.tally t + amount → (w.musterRelease m).cell.fault =
      w.cell.fault.raise { code := Codes.tallyOverflow, fold := by_.fold, entry := by_.entry, iter := by_.iter, detail := t }) ∧
    (∀ k, k ≠ t → (w.musterRelease m).cell.tally k = w.cell.tally k) ∧ (w.musterRelease m).cell.pad = w.cell.pad

/-- Rounds of a muster and their release: all of `Claims.MusterRounds`, `Claims.MusterReleaseAtCell`. -/
def Obligations.MusterRounds : Prop := Claims.MusterRounds ∧ Claims.MusterReleaseAtCell

/-! ### DMA channels and the loft (R102–R106, R221–R245) -/

/-- A DMA channel (R103–R105, R111, R241, R242): its oldest descriptor, where it waits for nothing, starts, and one that is not valid starts as failed with CONFIG_INVALID; a line that was
read with status OK is written on; a head descriptor all of whose lines are over completes in the cycle in which its status has its write slot, with the status written back and
its tally signalled, and asks for the slot where it has none. -/
def Obligations.DmaChannel : Prop :=
  ∀ (s : State) (c : Coord) (ch : Nat), channelOk c ch = true →
    (∀ (d : DmaDesc) (rest : List DmaDesc), (s.channel c ch).queue = d :: rest → d.started = false → (s.channel c ch).aborted = false → d.desc.waitEn = false →
      let bad := d.invalid || !d.desc.ok ((s.router c).senders.map (·.1))
      let new : DmaDesc := { d with started := true, base := (s.channel c ch).serial, invalid := bad, failed := if bad then some (0, Codes.configInvalid, 0) else none }
      exec (.dmaDescriptorStart c ch) s = .next ((s.mapChannel c ch fun x => { x with queue := new :: rest, serial := x.serial + new.total }).pump c ch)) ∧
    (∀ (d : DmaDesc) (l : DmaLine) (t : State), ((s.settle c ch).channel c ch).aborted = false →
      ((s.settle c ch).channel c ch).queue.findSome? (fun d => (d.lines.find? fun l => l.phase == .arrived).map fun l => (d, l)) = some (d, l) →
      l.status = Codes.ok → (s.settle c ch).startWrite c ch (d.base + l.index) d.desc l.index l.data = some t →
      exec (.dmaLineReadDone c ch) s = .next (t.pump c ch)) ∧
    (∀ (d : DmaDesc) (rest : List DmaDesc), ((s.settle c ch).channel c ch).queue = d :: rest → d.started = true → d.lines = [] → d.total ≤ d.next →
      ((s.settle c ch).channel c ch).aborted = false → d.failed = none → d.desc.signalTally ≤ 47 →
      (∀ u, (s.settle c ch).padTurn c ch ((d.addr + 30) / 64) .status = some u →
        exec (.dmaDescriptorComplete c ch) s = .next (((u.mapChannel c ch fun x => { x with queue := rest }).event c fun w =>
          (w.writeHere (d.addr + 30) (Payload.ofNat 2 Codes.ok.toNat)).addTally d.desc.signalTally d.desc.signalAmount none).pump c ch)) ∧
      ((s.settle c ch).padTurn c ch ((d.addr + 30) / 64) .status = none →
        exec (.dmaDescriptorComplete c ch) s = .next ((s.settle c ch).padAsk c ch ((d.addr + 30) / 64) .status)))

/-- A vault at work (R106, R222, R224–R228, R236): while its queue has room its port accepts the request whose turn it is, a read in silence, a write of the mesh recorded in the
duplicate filter with its acknowledgement, a write of the cell's own channel with its line over, or failed with LOFT_UNCORRECTABLE after three bad transfers; the oldest accepted request of a bank completes, a write landing
and a read answered; the bank of a powered paddock is refreshed; a scrub of a line that finds nothing uncorrectable leaves what its read leaves; a loss retires the vault, and one declared
failed enters the defect history. -/
def Claims.VaultRequests : Prop :=
  ∀ (s : State) (pv : Nat), pv < physicalVaults →
    (∀ (q : LoftRequest) (bad : Nat), (s.vault pv).lost = false → ((s.vault pv).queue.filter (·.accepted)).length < 256 → (s.vault pv).nextRequest = some q →
      (q.write = none → exec (.vaultRequestAccept ⟨pv, bad⟩) s = .next (s.mapVault pv fun v => v.accept q)) ∧
      (∀ p data, q.src = .mesh p → q.write = some data →
        exec (.vaultRequestAccept ⟨pv, bad⟩) s = .next ((s.mapVault pv fun v => v.accept q).event (vaultCell pv) fun w =>
          (w.mapMesh fun m => m.record p.src p.req p.tag p.seq w.now).ack p)) ∧
      (∀ ch line data, q.src = .channel ch line → q.write = some data → bad < 3 → exec (.vaultRequestAccept ⟨pv, bad⟩) s =
        .next ((((s.mapVault pv fun v => (v.accept q).countBad bad).lineDone (vaultCell pv) ch line Codes.ok).pump (vaultCell pv) ch).declareFailed pv)) ∧
      (∀ ch line data, q.src = .channel ch line → q.write = some data → 3 ≤ bad → exec (.vaultRequestAccept ⟨pv, bad⟩) s =
        .next ((((s.mapVault pv fun v => ({ v with queue := v.queue.filter (· != q), lastMesh := false } : Vault).countBad bad).lineDone (vaultCell pv) ch line
          Codes.loftUncorrectable).pump (vaultCell pv) ch).declareFailed pv))) ∧
    (∀ (bank bad : Nat) (errs : List LineErr) (q : LoftRequest) (rest : List LoftRequest), bank < 32 →
      takeFirst (fun (q : LoftRequest) => q.accepted && q.line % 32 == bank) (s.vault pv).queue = some (q, rest) →
      let u := s.mapVault pv fun v => { v with queue := rest }
      (∀ data, q.write = some data →
        exec (.vaultLineComplete pv bank bad errs) s = .next ((u.mapVault pv fun v => v.write q.line data).declareFailed pv)) ∧
      (q.write = none → bad < 3 →
        let r := (u.vault pv).read q.line errs
        exec (.vaultLineComplete pv bank bad errs) s =
          .next (((u.mapVault pv fun _ => { r.2.2 with portParity := satAdd 0xFFFF r.2.2.portParity (min 3 bad) }).loftAnswer pv q r.1 r.2.1).declareFailed pv))) ∧
    (∀ bank : Nat, bank < 32 → s.boot.powered = true → s.paddockLive (vaultCell pv).paddock = true →
      exec (.loftRefresh pv bank) s = .next (s.mapVault pv fun v => { v with refreshes := v.refreshes.upd 0 bank (· + 1) })) ∧
    (∀ (line : Nat) (errs : List LineErr), line < vaultLines → (s.vault pv).lost = false → (s.vault pv).queue = [] →
      ((s.vault pv).read line errs).2.2.uncorrectable ≤ (s.vault pv).uncorrectable →
      exec (.loftScrub pv line errs) s = .next ((s.mapVault pv fun _ => ((s.vault pv).read line errs).2.2).declareFailed pv)) ∧
    (∀ cause, (s.vault pv).lost = false → cause ≠ .declared → exec (.vaultLost pv cause) s = .next (s.retireVault pv cause)) ∧
    ((s.vault pv).lost = false → exec (.vaultLost pv .declared) s = .next (({ s with defects := { s.defects with
      history := s.defects.history ++ [(s.flash.powerCycle, HistoryUnit.vault pv)] } } : State).failVault pv))

/-- The last line of the spare chosen for a PENDING logical vault is written (R237): the vault is REMAPPED to its spare and that is recorded. -/
def Claims.SpareTakesOver : Prop :=
  ∀ (s : State) (lv sp l : Nat), lv < logicalVaults → s.loft.map.find lv = some .pending →
    s.loft.assigned.find? (fun e => e.2 == lv) = some (sp, l) →
    exec (.spareWriteDone lv) s = .next ((({ s with loft := { s.loft with map := s.loft.map.put lv (.remapped sp) } } : State).noteRemap lv sp 1).vaultsSettled)

/-- Loft requests at a vault, and the spare that takes over: all of `Claims.VaultRequests`, `Claims.SpareTakesOver`. -/
def Obligations.LoftVaults : Prop := Claims.VaultRequests ∧ Claims.SpareTakesOver

/-! ### Relend (R263–R293) -/

/-- Ports (R263, R265, R267, R320, R329): an UP port whose units no acknowledgement has reached for 2 µs goes down, counted and recorded, and trains again (that it
does so at once is the model's choice, log entry 150), and a TRAINING port that
loses its light is DOWN; light makes a DOWN port train once S8 trains ports and outside minimal mode; a trained port whose lanes hold is UP and sends what waits; a
first failed lane waits for its swap, made at once where no region runs; a second one fences the port; a swap that is due puts the spare in the lane's place. -/
def Claims.PortsChange : Prop :=
  ∀ (s : State) (p : Nat), p < 64 →
    ((s.port p).mode = .up → (s.port p).replay ≠ [] → exec (.linkDown p) s =
      .next (((s.advanceTo ((s.port p).ackAt + 2)).mapPort p fun x => (x.drop .training).count pLinkDowns 1).note recEvent Codes.linkDown 0 noPlace (leBytes 1 p))) ∧
    ((s.port p).mode = .training → exec (.linkDown p) s = .next (s.mapPort p fun x => { x with mode := .down })) ∧
    ((s.port p).mode = .down → s.opticsOn = true → exec (.lightArrival p) s = .next (s.mapPort p fun x => { x with mode := .training })) ∧
    ((s.port p).mode = .training → (s.port p).laneFailed = [] → s.opticsOn = true →
      exec (.portTrainingDone p) s = .next (s.mapPort p fun x => ({ x with mode := .up, ackAt := s.clock } : Port).cutAll s.clock)) ∧
    (∀ lane, lane < 9 → (s.port p).mode = .up → (s.port p).laneFailed = [] → (s.port p).spareFor = none →
      exec (.laneFailure p lane .correctedRatio) s = .next ((s.mapPort p fun x => { x with laneFailed := [lane], laneDue := false }).swapLane p)) ∧
    (∀ lane spare, lane < 9 → (s.port p).mode = .up → lane ∉ (s.port p).laneFailed → (s.port p).spareFor = some spare → spare ≠ lane →
      exec (.laneFailure p lane .uncorrectable) s =
        .next ((((s.mapPort p fun x => { x.drop .fenced with laneFailed := [], laneDue := false }).unitFailed 4 p).noteUnit 4 p 0 2).mapChanged)) ∧
    (∀ lane rest, (s.port p).laneFailed = lane :: rest → ((s.port p).laneDue = true ∨ ∀ e ∈ s.regions, e.2.mode ≠ .running) → exec (.laneSwap p) s =
      .next ((s.mapPort p fun x => { x with spareFor := some lane, laneFailed := [], laneDue := false }).noteUnit 4 p 8 1)) ∧
    (∀ lane rest, (s.port p).laneFailed = lane :: rest → (s.port p).laneDue = false → (∃ e ∈ s.regions, e.2.mode = .running) → exec (.laneSwap p) s = .next s)

/-- A link unit at an UP port (R264, R266, R267): an uncorrectable one is counted and NAKed; a clean one brings its acknowledgement, and its credits and data are
taken by its number; one that carries a NAK makes the port send every unacknowledged unit again, unless that is one replay too many. -/
def Claims.LinkUnits : Prop :=
  ∀ (s : State) (p : Nat) (u : LinkUnit), p < 64 → (s.port p).mode = .up →
    (u.decoded = .uncorrectable → exec (.linkUnitReceive p u) s = .next (s.mapPort p fun x => (x.count pUncorrectable 1).gap.speak s.clock)) ∧
    (u.decoded = .clean →
      let y := ((s.port p).acked s.clock u.ack).unitData u
      (u.nak = false → exec (.linkUnitReceive p u) s = .next (s.mapPort p fun _ => y.speak s.clock)) ∧
      (∀ z, u.nak = true → y.replay ≠ [] → y.replays s.clock = some z → exec (.linkUnitReceive p u) s = .next (s.mapPort p fun _ => z.again)) ∧
      (u.nak = true → y.replay ≠ [] → y.replays s.clock = none → exec (.linkUnitReceive p u) s = .next ((s.mapPort p fun _ => y).linkGivesUp p)))

/-- A unit's number decides what becomes of its data (R266, R267): the expected one, with none held behind it, is taken and counted on; one ahead of it that another
lane may have brought early is held; one by which the expected unit must be lost (8, 16 … or 64 and more ahead: the model's reading, log entry 132), and any after a
gap, is discarded with the expected one NAKed; an old one is ignored. -/
def Claims.UnitOrder : Prop :=
  ∀ (p : Port) (u : LinkUnit), u.decoded ≠ .uncorrectable → p.rxSeq < 65536 →
    (u.seq = p.rxSeq → p.early = [] → (p.unitData u).rxSeq = (p.rxSeq + 1) % 65536 ∧ (p.unitData u).nak = none) ∧
    (∀ n, 0 < n → n < 32768 → u.seq = (p.rxSeq + n) % 65536 → (p.early.any fun v => v.seq == u.seq) = false →
      (p.nak.isSome = true ∨ n % 8 = 0 ∨ 64 ≤ n → p.unitData u = { p with nak := some p.rxSeq, early := [] }) ∧
      (p.nak = none → n % 8 ≠ 0 → n < 64 → p.unitData u = { p with early := p.early ++ [u] })) ∧
    (∀ n, 32768 ≤ n → n < 65536 → u.seq = (p.rxSeq + n) % 65536 → p.unitData u = p)

/-- Ports of the Relend fabric and the units on their links: all of `Claims.PortsChange`, `Claims.LinkUnits`, `Claims.UnitOrder`. -/
def Obligations.RelendLinks : Prop := Claims.PortsChange ∧ Claims.LinkUnits ∧ Claims.UnitOrder

/-- A frame for another engine gives up its room on its link and goes on through the port that the route table gives, one hop older and with its CRC anew; at 15
hops it is dropped and counted (R272). -/
def Claims.FramesTransit : Prop :=
  ∀ (s t : State) (p q : Nat) (f : Frame), p < 64 → s.takeFrame p (fun f => f.dst != s.relend.engineId) = some (f, t) →
    (14 ≤ f.hop → exec (.frameTransit p) s = .next ((t.freeRoom p f).mapPort p fun x => x.count pDropHops 1)) ∧
    (f.hop < 14 → (t.freeRoom p f).egress f.dst = some q →
      exec (.frameTransit p) s = .next ((t.freeRoom p f).mapPort q fun x => x.send (t.freeRoom p f).clock ({ f with hop := f.hop + 1 } : Frame).seal))

/-- Inbound requests (R231, R274–R279, R286, R291–R294): a first request for a whole access that a window allows joins its gateway; for less than a whole access it is
refused CONFIG_INVALID (after the window's check: the model's order, log entry 133); one that no window allows is counted and answered WINDOW_CLOSED; one whose mesh requests are all acknowledged is answered and its outcome
stored; 4 µs without an answer draws an ACCEPT. -/
def Claims.RelendServes : Prop :=
  ∀ s : State,
    (∀ (row : (Nat → Instr) × Nat) (p : Nat) (f : Frame) (t u : State) (n : Nat),
      row ∈ [(Instr.relendRead, kRead), (Instr.relendWrite, kWrite), (Instr.relendInc, kInc)] → p < 64 →
      s.heldKind p row.2 = some (f, t) → f.kind = row.2 → f.attempt = 0 → bits f.addr 48 4 ≤ 2 →
      let g := t.serveGate f
      (t.gate g).outcomes = [] → (t.gate g).inbound = [] →
      let len := if f.kind = kInc then 8 else if f.kind = kRead then f.len else f.payload.length
      (t.windowCheck f.kind (bits f.addr 48 4) (bits f.addr 0 48) len = (some n, u) → f.wholeAccess len = true →
        exec (row.1 p) s = .next ((u.mapGate g fun x => { x with
          inbound := x.inbound ++ [{ id := x.nextId, port := p, frame := f, window := n, since := u.clock, told := false, issued := false, done := none,
                                     open_ := 0, arrivalSent := false }]
          nextId := x.nextId + 1 }).gatePump g)) ∧
      (t.windowCheck f.kind (bits f.addr 48 4) (bits f.addr 0 48) len = (some n, u) → f.wholeAccess len = false →
        exec (row.1 p) s = .next (((u.freeRoom p f).mapWindow n fun w => { w with busy := w.busy - 1 }).sendReply f kNack false Codes.configInvalid false [])) ∧
      (t.windowCheck f.kind (bits f.addr 48 4) (bits f.addr 0 48) len = (none, u) →
        exec (row.1 p) s = .next (((u.freeRoom p f).mapPort p fun x => x.count pRejected 1).sendReply f kNack false Codes.windowClosed false []))) ∧
    (∀ (g : Nat) (i : Inbound) (status : Code) (data : Payload), g < 16384 → (s.gate g).inbound.find? s.served = some i → i.done = some (status, data) →
      exec (.relendServeComplete g) s = .next (s.respond g i status data)) ∧
    (∀ (g : Nat) (i : Inbound), g < 16384 → (s.gate g).inbound = [i] → i.told = false →
      let t := (s.advanceTo (i.since + 4)).mapInbound g i.id fun i => { i with told := true, since := (s.advanceTo (i.since + 4)).clock }
      exec (.acceptTimer g) s = .next (t.sendReply i.frame kAccept t.flipPending Codes.ok false []))

/-- The requester's tags (R286–R290): a RESPONSE or a NACK ends the request of its tag; an ACCEPT starts the completion timer, and one with HOLD starts it again; a SENT tag whose attempt timer runs
out is sent again while re-sends are left and given up after them; an ACCEPTED tag that runs out is given up; a rest ends; an answer that fits no tag is counted. -/
def Claims.RelendTags : Prop :=
  ∀ (s : State) (p : Nat), p < 64 →
    (∀ (f : Frame) (t : State) (u : TagUse), s.takeKind p kResponse = some (f, t) → t.tagOf f = some u →
      exec (.relendResponse p) s = .next ((t.tagEnded f.srcPort f.tag).relendEnded u f.status f.data)) ∧
    (∀ (f : Frame) (t : State) (u : TagUse), s.takeKind p kNack = some (f, t) → t.tagOf f = some u →
      exec (.relendNack p) s = .next ((t.tagEnded f.srcPort f.tag).relendEnded u f.status [])) ∧
    (∀ (f : Frame) (t : State) (u : TagUse), s.takeKind p kAccept = some (f, t) → t.tagOf f = some u → u.phase = .sent →
      exec (.accept p) s = .next (t.mapPort f.srcPort fun x => { x with tags := x.tags.put f.tag { u with phase := .accepted, since := t.clock } })) ∧
    (∀ (f : Frame) (t : State) (u : TagUse), s.takeKind p kAccept = some (f, t) → t.tagOf f = some u → u.phase = .accepted → f.hold = true →
      exec (.accept p) s = .next (t.mapPort f.srcPort fun x => { x with tags := x.tags.put f.tag { u with since := t.clock } })) ∧
    (∀ (f : Frame) (t : State), s.takeKind p kResponse = some (f, t) → t.tagOf f = none →
      exec (.relendResponse p) s = .next (t.mapPort p fun x => x.count pStray 1)) ∧
    (∀ (tag : Nat) (u : TagUse), tag < 4096 → (s.port p).tags.find tag = some u →
      (u.phase = .sent → s.odp.resends ≤ u.frame.attempt → exec (.attemptTimerExpiry p tag) s =
        .next (((s.advanceTo (u.since + s.odp.attemptUs)).tagEnded p tag).relendEnded u Codes.e2eGiveup [])) ∧
      (∀ t, u.phase = .sent → u.frame.attempt < s.odp.resends → (s.advanceTo (u.since + s.odp.attemptUs)).tagResend p tag u = (none, t) →
        exec (.attemptTimerExpiry p tag) s = .next t) ∧
      (u.phase = .accepted → exec (.completionTimerExpiry p tag) s =
        .next (((s.advanceTo (u.since + s.odp.completionUs)).tagEnded p tag).relendEnded u Codes.e2eGiveup [])) ∧
      (u.phase = .resting → exec (.tagRestingEnd p tag) s =
        .next ((s.advanceTo (u.since + 64)).mapPort p fun x => { x with tags := x.tags.erase tag }))) ∧
    ((s.port p).freeTag.isSome = true → exec (.tagAvailable p) s =
      .next (let t := s.relend.gateways.foldl (fun (s : State) e =>
          e.2.records.foldl (fun (s : State) r => if r.2.stalledAt.isSome then s.streamPump e.1 r.1 else s) s) s
        t.rings.foldl (fun (s : State) e => if e.2.sends.isEmpty then s else s.ringPump 4096 e.1) t))

/-- Relend frames in transit, requests served, tags: all of `Claims.FramesTransit`, `Claims.RelendServes`, `Claims.RelendTags`. -/
def Obligations.RelendRequests : Prop := Claims.FramesTransit ∧ Claims.RelendServes ∧ Claims.RelendTags

/-- Streams (R105, R281–R284, R330): a channel that is not aborted PUTs the record of its next Relend descriptor to its slot, to the record that the last one did not
use, where no earlier descriptor uses that, and polls a record that was acknowledged, one poll at a time; a descriptor whose slot has no gateway ends with LINK_DOWN. A gateway
takes a record of 32 bytes that is not busy, and refuses one that is with CONFIG_INVALID; it answers a poll at once when the stream is done or has changed, and holds it for
2 µs otherwise. -/
def Claims.StreamRecords : Prop :=
  ∀ s : State,
    (∀ (c : Coord) (ch : Nat) (d : DmaDesc), channelOk c ch = true →
      let x := s.channel c ch
      x.queue.find? DmaDesc.toPlace = some d → x.aborted = false →
      (s.slotOf c ch = none → exec (.streamRecordPut c ch) s =
        .next (s.mapDesc c ch DmaDesc.toPlace fun d => { d with next := d.total, failed := some (0, Codes.linkDown, 0) })) ∧
      (∀ g slot u, s.slotOf c ch = some (g, slot) →
        let r := if x.record then 1 else 0
        (∀ e ∈ x.queue, e.placed = some r → e.total ≤ e.next) →
        ((s.mapDesc c ch DmaDesc.toPlace fun d => { d with placed := some r }).mapChannel c ch fun x => { x with record := !x.record }).lineRequest c ch 0 tPut
          (gateCoord g) (recordOffset slot r) 32 0 false 0 (Payload.ofNat 32 (s.recordOf c d).toNat) = some u →
        exec (.streamRecordPut c ch) s = .next u)) ∧
    (∀ (c : Coord) (ch : Nat) (d : DmaDesc), channelOk c ch = true → (s.channel c ch).queue.find? DmaDesc.polled = some d →
      (s.slotOf c ch = none → exec (.streamPoll c ch) s =
        .next (s.mapDesc c ch DmaDesc.polled fun d => { d with next := d.total, failed := some (0, Codes.linkDown, 0) })) ∧
      (∀ g slot u, s.slotOf c ch = some (g, slot) → (s.cell c).polling ch = false →
        s.lineRequest c ch 0 tGet (gateCoord g) (recordOffset slot (d.placed.getD 0)) 16 0 false 0 [] = some u → exec (.streamPoll c ch) s = .next u)) ∧
    (∀ (c : Coord) (g slot rec_ : Nat) (p : Packet) (t : State), c.present = true → s.toGate c tPut = some (g, p, t) → p.crcOk = true → p.payload.length = 32 →
      gateOffset p.offset = (slot, rec_, true) → p.payload.poisoned = false →
      (t.cell (gateCoord g)).mesh.view p.src p.req p.tag p.seq p.attempt t.clock = .fresh →
      let key := 2 * slot + rec_
      (t.recordBusy g key = false → exec (.putArrival c) s = .next
        (((t.mapCell (gateCoord g) fun x => { x with mesh := x.mesh.record p.src p.req p.tag p.seq t.clock }).gateRespond g p tAck Codes.ok 0 []).recordTaken g key
          (BitVec.ofNat 256 p.payload.toNat))) ∧
      (t.recordBusy g key = true → exec (.putArrival c) s = .next (t.gateRespond g p tNack Codes.configInvalid 0 []))) ∧
    (∀ (c : Coord) (g slot rec_ : Nat) (p : Packet) (t : State) (r : StreamRecord), c.present = true → s.toGate c tGet = some (g, p, t) → p.crcOk = true →
      p.aux = 16 → gateOffset p.offset = (slot, rec_, true) →
      let key := 2 * slot + rec_
      (t.gate g).records.find key = some r →
      (r.done = true ∨ r.changed = true → exec (.getArrival c) s = .next (t.pollReply g key r p)) ∧
      (r.done = false → r.changed = false → r.polledAt = none →
        exec (.getArrival c) s = .next (t.mapRecord g key fun r => { r with polledAt := some (t.clock, p) }))) ∧
    (∀ (g slot key at_ : Nat) (p : Packet) (r : StreamRecord), g < 16384 → slot < 16 → s.heldPoll g slot = some (key, at_, p) →
      (s.gate g).records.find key = some r → exec (.streamPollDeferred g slot) s = .next ((s.advanceTo (at_ + 2)).pollReply g key r p))

/-- Linked musters and PACE between engines (R259, R295, R296, R408, R409): a leader counts an arrival with its stamp, a member takes a release, a member's first PACE and one
newer than what is kept are kept, PACE is sent again 1 ms after the last while the engine is lowered, and 3 ms after its last PACE a member counts no more. -/
def Claims.LinkedEngines : Prop :=
  ∀ (s : State) (p : Nat), p < 64 →
    (∀ (f : Frame) (t : State) (cycles : Nat), s.takeKind p kMusterArrive = some (f, t) →
      exec (.musterArrive p cycles) s =
        .next (t.leaderCount (numAt f.payload 0 1) f.src (bitAt (numAt f.payload 1 1) 0) (bitAt (numAt f.payload 1 1) 1) cycles)) ∧
    (∀ (f : Frame) (t : State), s.takeKind p kMusterRelease = some (f, t) → (t.muster (numAt f.payload 0 1)).lastRelease = [] →
      let u := t.releaseReaches (numAt f.payload 0 1) (bitAt (numAt f.payload 1 1) 0) (bitAt (numAt f.payload 1 1) 1) (numAt f.payload 2 2 % 4096) (numAt f.payload 4 4)
      exec (.musterRelease p) s =
        .next (if (u.muster (numAt f.payload 0 1)).isLinked then u.skewStep (numAt f.payload 2 2 % 4096) (numAt f.payload 4 4) else u).runWaiting) ∧
    (∀ (f : Frame) (t : State), s.takeKind p kPace = some (f, t) → numAt f.payload 4 1 ≤ 4 →
      (∀ h, t.relend.heard.find f.src = some h → (numAt f.payload 6 2 + 65536 - h.seq) % 65536 < 32768) →
      ∃ u, exec (.pace p) s = .next u ∧ u.relend.heard.find f.src =
          some { khz := numAt f.payload 0 4, reason := numAt f.payload 4 1, seq := numAt f.payload 6 2, at_ := t.clock } ∧
        (∀ e, e ≠ f.src → u.relend.heard.find e = t.relend.heard.find e) ∧ u.pwr = t.pwr ∧ u.musters = t.musters) ∧
    (∀ r, s.relend.paceReason = some r → exec .paceResend s = .next ((s.advanceTo (s.relend.paceAt + 1000)).sendPace r)) ∧
    (∀ (engine : Nat) (h : PaceHeard), engine < 4096 → s.relend.heard.find engine = some h →
      ∃ t, exec (.paceTimeout engine) s = .next t ∧ t.clock = max s.clock (h.at_ + 3000) ∧ h.counts t.clock = false ∧ t.relend = s.relend)

/-- Streams between engines and what links their steps: all of `Claims.StreamRecords`, `Claims.LinkedEngines`. -/
def Obligations.LinkedEngines : Prop := Claims.StreamRecords ∧ Claims.LinkedEngines

/-! ### Collectives (R300–R314) -/

/-- A slot of the ring unit (R307, R313, R314): the gather's release starts the reduction at the segment before the own one; the arrival is posted once every segment lies in
RESULT and every WRITE is answered; a deadline without progress aborts. -/
def Claims.CollectiveSlots : Prop :=
  ∀ (s : State) (k : Nat) (r : Region) (im : Image) (d : Collective), k < 16 → s.declOf k = some (r, im, d) →
    ((s.ring k).phase = .gathering → r.mode = .running → s.gathered r d = true → 1 < d.members.length →
      let j := (s.ringIndex d + d.members.length - 1) % d.members.length
      let q := (s.mapRing k fun t => { t with phase := .reducing, since := s.clock, hand := (j, false) }).partialOf k d j
      exec (.collectiveGatherRelease k) s = .next (q.2.ringSend k d j false (csLines (d.mode == 1) q.1) q.1)) ∧
    (∀ m, (s.ring k).phase = .reducing ∨ (s.ring k).phase = .distributing → (s.ring k).sends = [] →
      (∀ j, j < d.members.length → j ∈ (s.ring k).written) → r.musters[1]? = some m →
      exec (.ringArrivalPost k) s = .next ((s.mapRing k fun t => { t with phase := .posted, postedFlag := some (s.ring k).failure.isSome }).mapMuster m fun u =>
        { u with transit := u.transit ++ [(12000, false, (s.ring k).failure.isSome)] })) ∧
    ((s.ring k).phase = .reducing ∨ (s.ring k).phase = .distributing →
      exec (.collectiveDeadline k) s = .next ((s.advanceTo ((s.ring k).since + d.deadline)).ringAbort k 3))

/-- A record of either phase that is in its place (R307, R309, R311): the segment is noted as taken and the progress timer starts again. In the first phase the received lines and
the record are checked, each line is combined with the own partial's, and the sum is made the total by the segment's owner, sent on with its check value by any other member. In
the second phase the segment lies in RESULT, its record is checked, and it is sent on unless the successor owns it. -/
def Claims.CollectiveRecords : Prop :=
  ∀ (s : State) (k j : Nat) (r : Region) (im : Image) (d : Collective), k < 16 → s.declOf k = some (r, im, d) → (s.ring k).phase = .reducing → j < d.members.length →
    let i := s.ringIndex d
    let sender := (i + d.members.length - 1) % d.members.length
    let sound := fun (ls : List Payload) => ls.all fun l => !(Payload.poisoned (l.take 32)) && !(Payload.poisoned (l.drop 32))
    (j ∉ (s.ring k).first → i ≠ (j + 1) % d.members.length →
      let read := s.ringRead k j false (d.checkLine j false)
      let b := read.1.map (·.data)
      recordPlaced b (s.ring k).step j false sender = true →
      let carried := numAt b 0 8
      let u := read.2.mapRing k fun t => { t with first := t.first ++ [j], since := read.2.clock, hand := (j, false) }
      let got := (u.ringCheck k j false (recordAgrees d b)).ringLines k j false d.recvBase (d.segment j)
      let own := ((got.2.ringCheck k j false (sound got.1)).ringCheck k j false (csLines (d.mode == 1) got.1 == carried)).partialOf k d j
      let sum := List.zipWith combineLines got.1 own.1
      let grown := (carried + csLines (d.mode == 1) own.1) % csMod
      let v := own.2.ringCheck k j false (sum.all (lineFits d))
      exec (.phase1Record k j) s = .next (if i = j then v.ringTotal k d (s.ring k).step j (if d.mode = 1 then some grown else none) sum
        else v.ringSend k d j false (if d.mode = 1 then grown else csLines false sum) sum)) ∧
    (j ∉ (s.ring k).second → i ≠ j →
      let read := s.ringRead k j true (d.checkLine j true)
      let b := read.1.map (·.data)
      recordPlaced b (s.ring k).step j true sender = true →
      let carried := numAt b 0 8
      let u := read.2.mapRing k fun t => { t with second := t.second ++ [j], since := read.2.clock, hand := (j, true), phase := .distributing }
      let got := (u.ringCheck k j true (recordAgrees d b)).ringLines k j true (d.result (s.ring k).step) (d.segment j)
      let v := ((got.2.ringCheck k j true (sound got.1)).ringCheck k j true (csLines (d.mode == 1) got.1 == carried)).mapRing k
        fun t => { t with written := addOnce t.written j }
      exec (.phase2Record k j) s = .next (if (i + 1) % d.members.length = j then v else v.ringSend k d j true carried got.1))

/-- Slots and records of a ring collective: all of `Claims.CollectiveSlots`, `Claims.CollectiveRecords`. -/
def Obligations.RingCollectives : Prop := Claims.CollectiveSlots ∧ Claims.CollectiveRecords

/-- Units lost in service (R327, R328, R331, R392, R394): a paddock whose fuse opens, on undervoltage only a settled one, 200 µs after its target one that has not
settled, is recorded with its cause and goes off; the third missed heartbeat in a row, or an internal parity
fault, fails a hub controller; an answered heartbeat clears the misses; a lost node takes its rule. -/
def Obligations.UnitsLost : Prop :=
  ∀ s : State,
    (∀ (f : Nat), f < fieldCount → s.hubAlive f = true →
      exec (.hubHeartbeat f true) s = .next ({ s with defects := { s.defects with misses := s.defects.misses.set 0 f 0 } } : State).runWaiting ∧
      (s.defects.misses.get 0 f < 2 → exec (.hubHeartbeat f false) s =
        .next ({ s with defects := { s.defects with misses := s.defects.misses.set 0 f (s.defects.misses.get 0 f + 1) } } : State).runWaiting) ∧
      (2 ≤ s.defects.misses.get 0 f → exec (.hubHeartbeat f false) s = .next (s.hubFails f).runWaiting) ∧
      exec (.hubInternalParityFault f) s = .next (s.hubFails f).runWaiting ∧
      exec (.nodeLost (.field f)) s = .next (s.hubFails f).runWaiting) ∧
    (∀ n, n < 8 → exec (.nodeLost (.row n)) s = .next (s.rowFails n).runWaiting) ∧ exec (.nodeLost .apex) s = .next (s.rowFails 8).runWaiting ∧
    (∀ f kx ky, f < fieldCount → kx < 12 → ky < 10 → exec (.nodeLost (.block f kx ky)) s = .next (s.blockFails f kx ky).runWaiting) ∧
    (∀ (p : Nat) (cause : TripCause), p < 272 → s.paddockLive p = true → (cause = .undervoltage → (s.paddockRegs p).settled = true) →
      (cause = .settleTimeout → (s.paddockRegs p).settled = false) →
      let v := if cause = .settleTimeout then s.advanceTo ((s.paddockRegs p).targetAt + 200) else s
      let t := (v.hubNote (p / 4) recFault Codes.paddockTrip 0 noPlace (leBytes 2 p ++ leBytes 1 (tripCode cause))).mapPaddock p
        fun r => { r with cause := tripCode cause }
      let u : State := { t with defects := { t.defects with history := t.defects.history ++ [(t.flash.powerCycle, HistoryUnit.paddock p)] } }
      exec (.paddockTrip p cause) s = .next (u.paddockOff p .tripped 6 Codes.paddockTrip).runWaiting)

/-! ### Clocks (R371–R386) -/

/-- Roots and sources (R372, R374, R376, R381, R383, R384): a root that locks is READY, its hold count full; one that loses lock in bring-up is not, and the count is 0; 5 ms
without lock fence the number of a field's hub and take its paddocks off; a pending switch to REFCLK completes, and one to a root that is READY, but for the return of a field whose
region runs; one to a root that is not READY is abandoned and recorded. At a gate of 1 ms each counter of a domain that did not run for all of it shows 0, any other at least what its clock must
have counted, and the count that the command brings where the clock allows it (log entry 140). -/
def Claims.ClockEvents : Prop :=
  ∀ (s : State) (f : Nat), f < fieldCount →
    (s.clk.refPresent = true → s.clk.lostAt.find f = none → s.clk.held.wf 0 = true → ∃ t, exec (.rootReady f) s = .next t ∧ f ∈ t.clk.ready ∧
      t.clk.held.get 0 f = 65536 ∧ (∀ g, g ∈ s.clk.ready → g ∈ t.clk.ready) ∧ t.pwr = s.pwr ∧ t.cells = s.cells) ∧
    (f ∈ s.clk.ready → s.boot.stage ≠ some 9 → exec (.lockDrop f) s = .next { s with clk := { s.clk with
      ready := s.clk.ready.filter fun g => g != f, held := s.clk.held.set 0 f 0, returning := s.clk.returning.filter fun g => g != f } }) ∧
    (∀ t, s.clk.lostAt.find f = some t → s.hubAlive f = true →
      let u := s.advanceTo (t + 5000)
      let v : State := { u with clk := { u.clk with lostAt := u.clk.lostAt.erase f }, defects := { u.defects with hubPlace := u.defects.hubPlace.put f .fenced } }
      exec (.rootRelockTimeout f) s = .next (((v.noteUnit 1 f 0 2).mapChanged).fieldOff f Codes.clkNotReady).runWaiting) ∧
    (∀ (k : Nat) (ref : Bool), k < 4 → 4 * f + k ∈ s.clk.pending → s.clk.src.get false (4 * f + k) = ref →
      (ref = true ∨ (f ∈ s.clk.ready ∧ (f ∉ s.clk.returning ∨ s.fieldRuns f = false)) →
        ∃ t, exec (.sourceSwitchDone f k) s = .next t ∧ t.clk.active = s.clk.active.set false (4 * f + k) ref ∧ t.clk.src = s.clk.src ∧
          t.clk.pending = (s.clk.pending.filter fun e => e != 4 * f + k) ∧ t.clk.ready = s.clk.ready ∧ t.pwr = s.pwr ∧ t.cells = s.cells) ∧
      (ref = false → f ∉ s.clk.ready → exec (.sourceSwitchDone f k) s = .next (({ s with clk := { s.clk with
        src := s.clk.src.set false (4 * f + k) true, pending := s.clk.pending.filter fun e => e != 4 * f + k } } : State).hubNote f recEvent
          Codes.clkNotReady 0 noPlace (leBytes 1 f))) ∧
      (ref = false → f ∈ s.clk.ready → f ∈ s.clk.returning → s.fieldRuns f = true → exec (.sourceSwitchDone f k) s = .next s)) ∧
    (∀ (d n : Nat), s.clk.refPresent = true → d < 340 → let u := s.advanceTo (s.clk.gateAt + 1000)
      ∃ t, exec (.freqCounterGate [(d, n)]) s = .next t ∧ t.clk.gates = (s.clk.gates + 1) % 65536 ∧ t.clk.gateAt = u.clock ∧ t.pwr = s.pwr ∧ t.cells = u.cells ∧
        (∀ e, e < 340 → u.domainRuns e = false → t.clk.khz.get 0 e = 0) ∧ (∀ e, e < 340 → u.domainRuns e = true → (u.khzBounds e).1 ≤ t.clk.khz.get 0 e) ∧
        (u.domainRuns d = true → (u.khzBounds d).1 ≤ n → n ≤ (u.khzBounds d).2 → t.clk.khz.get 0 d = n))

/-- Ramps of a half (R371, R374, R375, R391, R396): a sequencer that ramps writes the root of the point it goes to, both halves in one cycle where both await the same root, and waits where the
other comes to it later; a set point out of range is refused with CONFIG_INVALID and starts nothing; at its end SLEWING is clear, a down ramp goes on to V_LOWER with the point's voltages, and
an up ramp ends the sequence; a bank limit's stretch that is due to end does. -/
def Claims.HalvesRamp : Prop :=
  ∀ (s : State) (east : Bool),
    (∀ mhz, (s.dvfs east).state = .fRampUp ∨ (s.dvfs east).state = .fRampDown → mhz = opRoot (s.dvfs east).toward → mhz ≠ (s.roots east).set → s.setOk mhz = true →
      let u : State := { s with clk := { s.clk with setAnswer := Codes.ok } }
      (s.otherLater east = true → exec (.setPointWrite east mhz) s = .next u) ∧
      (s.otherLater east = false → s.pwr.emergency = true ∨ s.awaitsRoot (!east) mhz = false →
        exec (.setPointWrite east mhz) s = .next (u.rampTo east mhz).noteHalves) ∧
      (s.otherLater east = false → s.pwr.emergency = false → s.awaitsRoot (!east) mhz = true →
        exec (.setPointWrite east mhz) s = .next ((u.rampTo east mhz).rampTo (!east) mhz).noteHalves)) ∧
    (∀ mhz, mhz < 1000 ∨ s.part.rootMax < mhz → exec (.setPointWrite east mhz) s = .next { s with clk := { s.clk with setAnswer := Codes.configInvalid } }) ∧
    ((s.roots east).slewing = true → (s.roots east).set = opRoot (s.dvfs east).toward →
      let u := s.advanceTo (s.roots east).rampOver
      let t := u.mapRoots east fun r => { r.seen u.clock with from_ := r.set, slewing := false }
      ((s.dvfs east).state = .fRampDown → exec (.rampEnd east) s =
        .next (((t.mapDvfs east fun h => { h with op := h.toward, state := .vLower }).writeTargets east (s.dvfs east).toward).bankEnds)) ∧
      ((s.dvfs east).state = .fRampUp → exec (.rampEnd east) s =
        .next (((t.mapDvfs east fun h => { h with op := h.toward, state := .idle }).dvfsStart east).bankEnds))) ∧
    (s.pwr.bankStretch = false → s.bankEnds = s)

/-! ### Power (R390–R411) -/

/-- The DVFS sequencer (R375, R396, R397): what the controller wants reaches both halves in one cycle, in a thermal emergency the named half alone; a target above the point of an idle
half raises the voltages first, one below it ramps down first, and the target it has already changes nothing. -/
def Claims.DvfsSequencer : Prop :=
  ∀ (s : State) (east : Bool) (op : Nat), s.powered = true → op = s.wish east →
    (s.pwr.emergency = true → exec (.dvfsTarget east op) s = .next (s.takeTarget east)) ∧
    (s.pwr.emergency = false → exec (.dvfsTarget east op) s = .next ((s.takeTarget east).takeTarget (!east))) ∧
    (op = (s.dvfs east).target → s.takeTarget east = s) ∧
    (op ≠ (s.dvfs east).target → (s.dvfs east).state = .idle →
      (op < (s.dvfs east).op → s.takeTarget east =
        ((s.mapDvfs east fun h => { h with target := op }).mapDvfs east fun h => { h with state := .vRaise, toward := h.target }).writeTargets east op) ∧
      ((s.dvfs east).op < op → (s.roots east).slewing = true ∨ (s.roots east).set ≠ opRoot op → s.takeTarget east =
        (s.mapDvfs east fun h => { h with target := op }).mapDvfs east fun h => { h with state := .fRampDown, toward := h.target }))

/-- Settled paddocks (R396): every powered paddock of the half is SETTLED; V_RAISE goes to F_RAMP_UP, and V_LOWER ends, from where the sequencer starts again if its target
moved meanwhile. -/
def Claims.PaddocksSettle : Prop :=
  ∀ (s : State) (east : Bool),
    let t := (s.halfPaddocks east).foldl (fun (s : State) p => s.mapPaddock p fun r => { r with settled := true }) s
    ((s.dvfs east).state = .vRaise → exec (.paddocksSettled east) s = .next (t.mapDvfs east fun h => { h with state := .fRampUp })) ∧
    ((s.dvfs east).state = .vLower → exec (.paddocksSettled east) s = .next ((t.mapDvfs east fun h => { h with state := .idle }).dvfsStart east))

/-- Roots, sources, counters and ramps of the clocks, and the DVFS sequencer of a half: all of `Claims.ClockEvents`, `Claims.HalvesRamp`, `Claims.DvfsSequencer`, `Claims.PaddocksSettle`. -/
def Obligations.ClocksAndRamps : Prop := Claims.ClockEvents ∧ Claims.HalvesRamp ∧ Claims.DvfsSequencer ∧ Claims.PaddocksSettle

/-- Supply and cap (R391, R402, R404–R406): an average at 95 % of a bank's limit holds both halves one point below their current ones, and the stretch ends, what was held remaining to be restored,
once the step is taken and the averages are below 90 %; each 10 µs sample adds its energy (the estimates rounded, the cap decision's scaled energy floored: log entry 64); a decision takes the
millisecond's energy into the window. -/
def Claims.SupplyAndCap : Prop :=
  ∀ s : State,
    (∀ west east, s.powered = true → s.boot.stage ≠ some 3 →
      let u : State := { s with pwr := { s.pwr with bankLow := decide (100 * west < 900 * s.pwr.westLimit ∧ 100 * east < 900 * s.pwr.eastLimit) } }
      (s.bankAt95 west east = true → s.pwr.bankStretch = false →
        let v : State := { u with pwr := { u.pwr with bankStretch := true }, clk := { u.clk with slowed := List.range fieldCount } }
        exec (.bankCurrentSample west east) s = .next (((v.mapDvfs false fun h => { h with bank := min 11 ((s.dvfs false).op + 1) - s.part.highest }).mapDvfs true
          fun h => { h with bank := min 11 ((s.dvfs true).op + 1) - s.part.highest }).paceChange 4)) ∧
      (s.bankAt95 west east = false → s.pwr.bankStretch = true → s.bankStepDone = true → 100 * west < 900 * s.pwr.westLimit → 100 * east < 900 * s.pwr.eastLimit →
        exec (.bankCurrentSample west east) s = .next { u with pwr := { u.pwr with bankStretch := false, west := u.pwr.west.bankOver, east := u.pwr.east.bankOver } })) ∧
    (∀ acts : List PaddockActivity, (∀ a ∈ acts, a.paddock < 272) →
      let t := acts.foldl State.estimate (s.advanceTo (s.pwr.sampledAt + 10))
      exec (.powerEstimate acts) s = .next { t with pwr := { t.pwr with
        accruing := t.pwr.accruing + 10 * t.inputMw, sampledAt := t.clock, samples := (t.clock, 10 * t.inputMw) :: t.pwr.samples.filter (keptSample t.clock) } }) ∧
    (s.powered = true → ∃ t, exec .capDecision s = .next t ∧ t.pwr.accruing = 0 ∧
      t.pwr.energy = ((s.pwr.accruing * s.pwr.scale / 65536) :: s.pwr.energy).take 60000)

/-- Voltage and droop loops (R398–R400): slack above the band lowers a live paddock's offset by one step, below it raises it, both within the range; a rail below its
threshold is a droop, which stretches the field and counts; the stretch ends after 32 cycles with every rail of the field recovered, and not before; the margin follows the measured noise. -/
def Claims.VoltageLoops : Prop :=
  ∀ (s : State) (p : Nat), p < 272 → s.paddockLive p = true →
    ((s.dvfs (paddockEast p)).state = .idle →
      let op := (s.dvfs (paddockEast p)).op
      let moved := fun (v : Int) => s.mapPaddock p fun r => { r with avs := v, vtarget := railTarget p op v, learned := r.learned.put op v }
      exec (.avsLoop [(p, .above)]) s = .next (moved (max (-20) ((s.paddockRegs p).avs - 1))) ∧
      ((s.paddockRegs p).avs < 10 → exec (.avsLoop [(p, .below)]) s = .next (moved ((s.paddockRegs p).avs + 1))) ∧
      (10 ≤ (s.paddockRegs p).avs → exec (.avsLoop [(p, .below)]) s = .next (s.hubNote (p / 4) recEvent Codes.droop 0 noPlace (leBytes 2 p))) ∧
      exec (.avsLoop [(p, .inside)]) s = .next s) ∧
    (∀ q, exec (.droopMarginLoop [(p, q)]) s = .next (s.mapPaddock p fun r => { r with margin := max 8 (min 24 ((q + 49) / 10)) })) ∧
    (∀ v, (v < 4 * (s.paddockRegs p).vtarget - 10 * (s.paddockRegs p).margin → exec (.droopDetect { paddock := p, quarterMv := v }) s = .next ((s.railAt p v).droops p)) ∧
      (4 * (s.paddockRegs p).vtarget - 10 * (s.paddockRegs p).margin ≤ v → exec (.droopDetect { paddock := p, quarterMv := v }) s = .next (s.railAt p v))) ∧
    (∀ cycles rails, let x : FieldRails := { field := p / 4, cycles, rails }
      (32 ≤ cycles → (∀ q, q < 4 → s.paddockLive (4 * (p / 4) + q) = true → (s.paddockRegs (4 * (p / 4) + q)).threshold + 40 ≤ rails.getD q 0) →
        ∃ t, exec (.stretchEnd x) s = .next t ∧ p / 4 ∉ t.pwr.stretched ∧ (∀ g, g ≠ p / 4 → (g ∈ t.pwr.stretched ↔ g ∈ s.pwr.stretched))) ∧
      (cycles < 32 → ∃ t, exec (.stretchEnd x) s = .next t ∧ t.pwr.stretched = s.pwr.stretched))

/-- A droop within its limit (R399, R401): the paddock stretches, its count rises, its field is listed as stretched; nothing is lowered. -/
def Claims.DroopStretches : Prop :=
  ∀ (s : State) (p : Nat), s.paddockLive p = true → (s.paddockRegs p).stretching = false →
    ((s.paddockRegs p).recent.filter fun t => decide (s.clock < t + 1000)).length + 1 < s.pwr.droopLimit →
    ((s.droops p).paddockRegs p).stretching = true ∧ ((s.droops p).paddockRegs p).stretches = min 0xFFFFFFFF ((s.paddockRegs p).stretches + 1) ∧
    p / 4 ∈ (s.droops p).pwr.stretched ∧ (s.droops p).pwr.west = s.pwr.west ∧ (s.droops p).pwr.east = s.pwr.east

/-- Supply, cap, voltage and droop loops: all of `Claims.SupplyAndCap`, `Claims.VoltageLoops`, `Claims.DroopStretches`. -/
def Obligations.PowerLoops : Prop := Claims.SupplyAndCap ∧ Claims.VoltageLoops ∧ Claims.DroopStretches

/-- Temperature (R407): a scan with a junction at the throttle temperature holds both halves a point down; the second scan in a row beyond the limit brings the engine to its
OVERTEMP stop; a scan with every sensor below 70 °C leaves it cool and throttled no more; 10 ms after its last step a measure in force steps again. -/
def Obligations.ThermalMeasures : Prop :=
  ∀ s : State,
    (∀ (temps : List PaddockTemp) (west east : Coolant), (∀ t ∈ temps, t.paddock < 272) → 1 ≤ s.pwr.overScans → s.pwr.overtemp = false →
      let u := temps.foldl (fun (s : State) t => s.mapPaddock t.paddock fun r => { r with tj := min 255 t.junction, tloft := min 255 t.loft }) s
      (∃ e ∈ u.pwr.paddocks, 115 ≤ e.2.tj ∨ 105 ≤ e.2.tloft) →
      exec (.temperatureScan temps west east) s =
        .next ({ u with pwr := { u.pwr with cool := u.pwr.allCool west east, overScans := u.pwr.overScans + 1 } } : State).overheats) ∧
    ((∀ e ∈ s.pwr.paddocks, e.2.tj < 70 ∧ e.2.tloft < 70) → 85 ≤ s.pwr.tThrottle →
      ∃ t, exec (.temperatureScan [] { inlet := 200, outlet := 300 } { inlet := 200, outlet := 300 }) s = .next t ∧ t.pwr.overScans = 0 ∧ t.pwr.cool = true ∧
        t.cells = s.cells ∧ t.regions = s.regions ∧ (s.pwr.overtemp = false → t.pwr.throttling = false)) ∧
    (∀ (temp : PaddockTemp) (c : Coolant), temp.paddock < 272 → (∀ e ∈ s.pwr.paddocks, e.2.tj < 105 ∧ e.2.tloft < 105) → temp.junction < 105 → temp.loft < 105 →
      85 ≤ s.pwr.tThrottle → s.pwr.tThrottle ≤ temp.junction → c.outlet < c.inlet + 250 → s.pwr.throttling = false → s.pwr.overtemp = false →
      ∃ t, exec (.temperatureScan [temp] c c) s = .next t ∧ t.pwr.throttling = true ∧
        t.pwr.west.throttle = s.further false s.pwr.west.throttle 1 ∧ t.pwr.east.throttle = s.further true s.pwr.east.throttle 1) ∧
    (∀ m : Nat × Nat, s.pwr.measures = [m] →
      exec .thermalStep s = .next ((s.advanceTo (m.2 + 10000)).measureStep m.1))

/-! ### The sealed meter (R403, R415–R425) -/

/-- Frames of the meter (R403, R415, R416, R418, R423): a frame of its kind and length whose CRC holds is taken in; one whose CRC fails, whatever it holds, is discarded and counted, the energy
that it would have told staying with the meter as a free value (log entry 157); 3 s without one is silence. A reading's cumulative registers are kept and never told lower (that the board's
registers are known from its frames is the model's choice, log entry 113). -/
def Obligations.MeterFrames : Prop :=
  ∀ (s : State) (b : List Byte), s.boot.refclk = true →
    (b.length = 64 → numAt b 0 1 = 1 → crc32c (b.take 60) = numAt b 60 4 → exec (.meterStatusFrame b) s = .next (s.meterStatus b).meterHeard) ∧
    (∀ row ∈ [Instr.meterStatusFrame, Instr.reading, Instr.signature, Instr.key], b.length < 4 ∨ crc32c (b.take (b.length - 4)) ≠ numAt b (b.length - 4) 4 →
      exec (row b) s = .next ({ s with meter := { s.meter with frameErrors := satAdd 0xFFFFFFFF s.meter.frameErrors 1 } } : State).saveUnread) ∧
    (b.length = 64 → numAt b 0 1 = 2 → crc32c (b.take 60) = numAt b 60 4 → exec (.reading b) s = .next (s.meterReading b).meterHeard ∧
      (s.meterReading b).meterHeard.board.toldWest = max s.board.toldWest (numAt b 40 8) ∧
      (s.meterReading b).meterHeard.board.toldEast = max s.board.toldEast (numAt b 48 8)) ∧
    (b.length = 2432 → numAt b 0 1 = 3 → crc32c (b.take 2428) = numAt b 2428 4 → exec (.signature b) s = .next (s.meterSignature b).meterHeard) ∧
    (b.length = 1328 → numAt b 0 1 = 4 → crc32c (b.take 1324) = numAt b 1324 4 → exec (.key b) s =
      .next ({ s with meter := { s.meter with key := sliceOf b 8 1312 } } : State).meterHeard) ∧
    (∃ t, exec .meterSilence s = .next t ∧ t.meter.state = 3 ∧ t.clock = max s.clock (s.meter.lastAt + 3000000) ∧ 3 ∈ t.meter.causes)

/-! ### The event recorder (R461–R467) -/

/-- The recorder's own events (R461, R463, R467): a freeze runs out after 10 s, a due ring is flushed, the operating time is saved. -/
def Obligations.RecorderEvents : Prop :=
  ∀ s : State,
    (∀ v at_, s.recd.frozen = some (v, at_) → exec .freezeTimeout s = .next (s.advanceTo (at_ + 10000000)).thaw) ∧
    (∀ f, f < fieldCount → (s.hub f).ring.due = true → s.logFrozen = false → exec (.ringFlush f) s = .next (s.flushRing f)) ∧
    (s.timed = true → exec .opTimeSave s = .next { s with flash := { s.flash with opSeconds := s.recd.opSeconds } })

/-- A ring of 1,024 records (R462): with room it takes a new record in; full, the record replaces the oldest flushed one and no unflushed one; with every place unflushed it
is dropped and counted in DROPPED; it never holds more than 1,024. A flush moves the unflushed records to the module log in ring order and leaves none unflushed; where records were
dropped the log takes one LOST record of CODE 1 with their count behind them (its place is the model's choice, log entry 70), a frozen ring's holding buffer where it has room, and DROPPED is
cleared. -/
def Obligations.RingsTakeRecords : Prop :=
  (∀ (r : Ring) (x : Record),
    (r.held.length < 1024 → (r.put x).held = r.held ++ [(x, false)] ∧ (r.put x).dropped = r.dropped) ∧
    (∀ (older newer : List (Record × Bool)) (y : Record), 1024 ≤ r.held.length → r.held = older ++ (y, true) :: newer → (∀ e ∈ older, e.2 = false) →
      (r.put x).held = older ++ newer ++ [(x, false)] ∧ (r.put x).dropped = r.dropped) ∧
    (1024 ≤ r.held.length → (∀ e ∈ r.held, e.2 = false) → (r.put x).held = r.held ∧ (r.put x).dropped = min 0xFFFF (r.dropped + 1)) ∧
    (r.held.length ≤ 1024 → (r.put x).held.length ≤ 1024)) ∧
  ∀ (s : State) (f : Nat), f < fieldCount → s.hubs.wf .zero = true → (s.hub f).ring.due = true → s.logFrozen = false →
    let r := (s.hub f).ring
    let moved := (r.held.filter fun e => e.2 = false).map (·.1)
    ∃ t : State, exec (.ringFlush f) s = .next t ∧ (t.hub f).ring.dropped = 0 ∧ (t.hub f).ring.unflushed = 0 ∧ (t.hub f).ring.due = false ∧
      (r.dropped = 0 → (t.hub f).ring.held.map (·.1) = r.held.map (·.1) ∧ t.flash = moved.foldl FlashState.append s.flash) ∧
      (r.dropped ≠ 0 → s.ringFrozen f = true → (s.hub f).holding.length < 256 → t.flash = moved.foldl FlashState.append s.flash ∧
        ∃ lost : Record, lost.type = recLost ∧ lost.code = 1 ∧ lost.detail = leBytes 4 r.dropped ∧ (t.hub f).holding = (s.hub f).holding ++ [lost]) ∧
      (r.dropped ≠ 0 → s.ringFrozen f = false → ∃ lost : Record, lost.type = recLost ∧ lost.code = 1 ∧ lost.detail = leBytes 4 r.dropped ∧
        t.flash = (moved ++ [lost]).foldl FlashState.append s.flash)

/-! ### Bring-up (R339, R342–R367) -/

/-- Power and REFCLK (R339, R342, R343, R364, R369, R390, R418, R464; log entries 77, 81 and 82): applied banks begin a session in reset; once REFCLK is there S0 begins, or after
three failed starts minimal mode with the last one's report words; a loss of REFCLK or of a bank ends the session. The first loses what the rings held; after the second the
rings are flushed and the operating time is saved for as long as the hold-up lasts, which is free (log entry 80): one that lasts saves all of it, one that collapses leaves the
time unsaved; the meter board saves its registers. -/
def Claims.PowerSessions : Prop :=
  ∀ s : State,
    (s.boot.powered = false → exec .powerOn s = .next { s.sessionOver true false with meter := { MeterState.reset with lastAt := s.clock } }) ∧
    (s.boot.powered = true → s.boot.refclk = false → s.flash.failedStarts < 3 → ∃ t, exec .refclkPresent s = .next t ∧ t.boot.refclk = true ∧
      t.boot.stage = some 0 ∧ t.resultOf 0 = resultRunning ∧ t.boot.minimal = s.boot.minimal ∧ t.flash.savedAtEnd = false ∧
      t.flash.powerCycle = (s.flash.powerCycle + 1) % 2 ^ 32 ∧ t.flash.failedStarts = s.flash.failedStarts ∧ t.cells = s.cells ∧ t.part = s.part) ∧
    (s.boot.powered = true → s.boot.refclk = false → 3 ≤ s.flash.failedStarts → ∃ t, exec .refclkPresent s = .next t ∧ t.boot.minimal = true ∧ t.boot.state = 0xA ∧
      t.boot.stage = none ∧ t.boot.reports = s.flash.reports ∧ t.boot.running = none ∧ t.hubs = [] ∧ t.cells = s.cells.mapVals .reset (fun _ c => c.again) ∧
      t.flash.powerCycle = s.flash.powerCycle) ∧
    (s.boot.powered = true → s.boot.refclk = true → exec .refclkLoss s =
      .next { s.sessionOver true true with meter := { MeterState.reset with lastAt := s.clock } }) ∧
    (s.boot.powered = true → s.boot.refclk = true → let h := s.holdUpFree
      exec .inputLoss s = .next (((({ s with freeIdx := s.freeIdx + 3 } : State).holdUp h.1 h.2).saveUnread).sessionOver false false)) ∧
    (∀ (n : Nat) (torn : Option Nat), let u := s.holdUp n torn
      (lossSteps ≤ n → u.flash.savedAtEnd = true ∧ u.flash.opSeconds = s.recd.opSeconds ∧
        (s.hubs.wf .zero = true → ∀ f, f < fieldCount → (u.hub f).ring.unflushed = 0)) ∧
      (n < lossSteps → u.flash.savedAtEnd = s.flash.savedAtEnd ∧ u.flash.opSeconds = s.flash.opSeconds)) ∧
    (s.boot.powered = true → ∃ t, exec .inputLoss s = .next t ∧ t.boot.powered = false ∧ t.boot.stage = none ∧ t.cells = [] ∧ t.regions = [] ∧ t.part = s.part ∧
      (s.boot.refclk = false → t.flash = s.flashLeft)) ∧
    (∀ t, s.boot.restartAt = some t →
      exec .coldBringUpStart s = .next ({ s.advanceTo t with flash := { (s.advanceTo t).flash with failedStarts := 0 } } : State).coldStart)

/-- Stages S0 and S1 (R346–R348, R355, R470): in range, with a meter that reports itself sealed, S0 ends without a failure, DEGRADED where the meter is a new one, whose serial number
is kept; a bank out of range is waited for up to 2 s, and then S0 FAILS with INPUT_LOSS; without such a meter it FAILS with METER_SEAL, one that has said nothing being waited for up to 1 s. S1 ends
with an image that verifies, which runs from now on, else FAILS with its code. A stage that ends without a failure is DEGRADED where it is said to be or a unit was lost in it, else PASSED, and
the next begins. -/
def Claims.FirstStages : Prop :=
  ∀ (s : State) (elapsed west east : Nat),
    (s.stageRuns 0 = true → elapsed ≤ 3000 →
      let at_ := fun (ms : Nat) => s.advanceTo (s.boot.stageAt + 1000 * ms)
      let ok := s.meter.gotStatus && s.meter.state == 0
      let detail := min 0x3FF west + 2 ^ 10 * min 0x3FF east + 2 ^ 20 * (if ok then 1 else 0)
      (ok = true → elapsed < 2000 → exec (.stageS0 west east false elapsed) s = .next (at_ elapsed)) ∧
      (ok = true → 2000 ≤ elapsed → exec (.stageS0 west east false elapsed) s = .next ((at_ 2000).stageReports 0 resultFailed Codes.inputLoss 2000 detail)) ∧
      (s.meter.gotStatus = false → elapsed < 1000 → ∀ inRange, exec (.stageS0 west east inRange elapsed) s = .next (at_ elapsed)) ∧
      (s.meter.gotStatus = false → 1000 ≤ elapsed → ∀ inRange, exec (.stageS0 west east inRange elapsed) s =
        .next ((at_ 1000).stageReports 0 resultFailed Codes.meterSeal 1000 detail)) ∧
      (s.meter.gotStatus = true → ok = false → exec (.stageS0 west east true elapsed) s =
        .next ((at_ elapsed).stageReports 0 resultFailed Codes.meterSeal elapsed detail)) ∧
      (ok = true → s.meter.serial = s.flash.meterSerial → exec (.stageS0 west east true elapsed) s = .next ((at_ elapsed).stageEnds 0 false elapsed detail)) ∧
      (ok = true → s.meter.serial ≠ s.flash.meterSerial → exec (.stageS0 west east true elapsed) s =
        .next (({ at_ elapsed with flash := { (at_ elapsed).flash with meterSerial := s.meter.serial } } : State).stageEnds 0 true elapsed detail))) ∧
    (s.stageRuns 1 = true → elapsed ≤ 2000 →
      let u := s.advanceTo (s.boot.stageAt + 1000 * elapsed)
      let detail := numAt s.flash.image 12 4
      match u.verify kindMgmt s.flash.image with
      | .inl code => exec (.stageS1 elapsed) s = .next (u.stageReports 1 resultFailed code elapsed detail)
      | .inr _ => exec (.stageS1 elapsed) s =
          .next (({ u with boot := { u.boot with running := some s.flash.image } } : State).stageEnds 1 false elapsed detail)) ∧
    (∀ n degraded detail, n < 8 → (s.stageEnds n degraded elapsed detail).boot.stage = some (n + 1) ∧ (s.stageEnds n degraded elapsed detail).resultOf (n + 1) = resultRunning ∧
      ((s.stageEnds n degraded elapsed detail).resultOf n = resultPassed ↔ degraded = false ∧ s.stageLost = false) ∧
      ((s.stageEnds n degraded elapsed detail).resultOf n = resultDegraded ↔ degraded = true ∨ s.stageLost = true))

/-- Stages S2 to S7 (R342, R346, R349–R353, R357): within its limit each ends with PASSED or DEGRADED and the next begins. S2 takes the roots named as not READY out and needs one
that is; S3 ends when every paddock has had its attempts, the gateways of those without power lost; S5 installs version 0, if it is as R200 asks; S6 leaves the vaults empty and GENERATION 0; S7 ends when every firmware transfer has. -/
def Claims.MiddleStages : Prop :=
  ∀ (s : State) (elapsed : Nat),
    let ends := fun (n : Nat) (t : State) => t.boot.stage = some (n + 1) ∧ t.resultOf (n + 1) = resultRunning ∧
      (t.resultOf n = resultPassed ∨ t.resultOf n = resultDegraded) ∧ t.flash.failedStarts = s.flash.failedStarts ∧ t.part = s.part
    (∀ notReady bad f, s.stageRuns 2 = true → elapsed ≤ 50 → f < fieldCount → f ∉ notReady →
      ∃ t, exec (.stageS2 notReady bad elapsed) s = .next t ∧ ends 2 t ∧ ∀ g, g < fieldCount → (g ∈ t.clk.ready ↔ g ∉ notReady)) ∧
    (s.stageRuns 2 = true → elapsed ≤ 50 →
      ∃ t, exec (.stageS2 (List.range fieldCount) [] elapsed) s = .next t ∧ t.resultOf 2 = resultFailed ∧ t.boot.stage = some 2) ∧
    (s.stageRuns 3 = true → elapsed ≤ 200 → s.boot.first = ([], []) → s.boot.second = ([], []) →
      let u := ((((List.range 272).filter fun p => !s.paddockLive p).foldl State.loseGates (s.advanceTo (s.boot.stageAt + 1000 * elapsed))).moveGates)
      ∃ t, exec (.stageS3 elapsed) s = .next t ∧ ends 3 t ∧ (t.resultOf 3 = resultPassed ↔ (∀ p, p < 272 → s.paddockLive p = true) ∧ u.stageLost = false)) ∧
    (∀ cells blocks rows apexBad, s.stageRuns 4 = true → elapsed ≤ 50 → (∀ c ∈ cells, Coord.present c = true) →
      (∀ b ∈ blocks, b.1 < fieldCount ∧ b.2.1 < 12 ∧ b.2.2 < 10) → (∀ r ∈ rows, r < 8) →
      ∃ t, exec (.stageS4 cells blocks rows apexBad elapsed) s = .next t ∧ ends 4 t ∧ ∀ c ∈ cells, t.cellOut c = true) ∧
    (∀ (fails : List EdgeFail) (entries : List RouteEntry), s.stageRuns 5 = true → elapsed ≤ 100 → (∀ e ∈ fails, e.cell.present = true ∧ e.unit_ < 4) →
      (∀ e ∈ entries, e.at_.present = true ∧ e.paddock < 272) →
      let u := fails.foldl State.edgeTest (s.advanceTo (s.boot.stageAt + 1000 * elapsed))
      let v := (((List.range 272).filter fun p => !u.paddockLive p).foldl State.borderDown u).writeVersion false entries
      (v.versionMeets false = true → ∃ t, exec (.stageS5 fails entries elapsed) s = .next t ∧ ends 5 t ∧ t.epoch = false ∧ t.boot.routed = true) ∧
      (v.versionMeets false = false → exec (.stageS5 fails entries elapsed) s = .next (s.advanceTo (s.boot.stageAt + 1000 * elapsed)))) ∧
    (∀ failed, s.stageRuns 6 = true → elapsed ≤ 200 → (∀ v ∈ failed, v < physicalVaults) → s.loft.map = [] →
      ∃ t, exec (.stageS6 failed elapsed) s = .next t ∧ (∀ v ∈ t.loft.vaults, v.2.lines = []) ∧
        ((t.resultOf 6 = resultFailed ∧ t.boot.stage = some 6) ∨ (ends 6 t ∧ t.defects.generation = 0))) ∧
    (s.stageRuns 7 = true → elapsed ≤ 100 → (∀ f, f < fieldCount → s.hubAlive f = true → (s.hub f).transfers = []) →
      ∃ t, exec (.stageS7 elapsed) s = .next t ∧ ends 7 t)

/-- Attempts of S3 (R350, R391): the next paddock of a half that settles is POWERED and enabled; one whose attempt fails is retried after the first attempts of the half, and
after its second failure is off, its cells out. -/
def Claims.PaddockAttempts : Prop :=
  ∀ (s : State) (east : Bool) (p : Nat) (rest : List Nat), s.stageRuns 3 = true → p < 272 →
    let first := if east then s.boot.first.2 else s.boot.first.1
    let second := if east then s.boot.second.2 else s.boot.second.1
    (first = p :: rest → ∃ t, exec (.paddockEnable east true) s = .next t ∧ t.paddockLive p = true ∧ (t.paddockRegs p).en = true ∧
      (t.paddockRegs p).settled = true ∧ t.cells = s.cells ∧ t.boot.stage = some 3) ∧
    (first = p :: rest → ∃ t, exec (.paddockEnable east false) s = .next t ∧ (t.paddockRegs p).en = false ∧
      (if east then t.boot.second.2 else t.boot.second.1) = second ++ [p] ∧ t.cells = s.cells) ∧
    (first = [] → second = p :: rest → ∃ t, exec (.paddockEnable east false) s = .next t ∧ t.defects.paddocks.find p = some .failedS3 ∧
      p ∈ t.defects.retried ∧ ∀ c : Coord, c ∈ paddockCells p → t.cellOut c = true)

/-- S8 and the end of bring-up (R344, R354): after the wait, pairs whose loopback passed open their bypasses and ports that receive light train; 500 ms later a port still in
training is DOWN, bring-up is complete and the count of failed starts is 0. -/
def Claims.LastStage : Prop :=
  ∀ s : State, s.stageRuns 8 = true →
    (∀ (loopback light : List Nat) (at_ : Nat), s.boot.s8Left = some at_ → s.boot.s8Tested = false → exec (.stageS8 loopback light) s = .next (s.s8 loopback light) ∧
      (s.s8 loopback light).boot.s8Tested = true ∧ (∀ k, k ∈ (s.s8 loopback light).boot.bypassOpen ↔ k < 4 ∧ k ∈ loopback) ∧ ∀ p, p < 64 → p ∈ light → (s.port p).mode = .down → ((s.s8 loopback light).port p).mode = .training) ∧
    (∀ at_, s.boot.s8Left = some at_ → s.boot.s8Tested = true → s.relend.ports.wf .zero = true → ∃ t, exec .s8PortTimeout s = .next t ∧ t.boot.stage = some 9 ∧ t.boot.state = 9 ∧
      t.flash.failedStarts = 0 ∧ (∀ p, p < 64 → (t.port p).mode ≠ .training) ∧ (t.resultOf 8 = resultPassed ∨ t.resultOf 8 = resultDegraded))

/-- The stages of a bring-up: all of `Claims.FirstStages`, `Claims.MiddleStages`, `Claims.PaddockAttempts`, `Claims.LastStage`. -/
def Obligations.BringUpStages : Prop := Claims.FirstStages ∧ Claims.MiddleStages ∧ Claims.PaddockAttempts ∧ Claims.LastStage

/-- Starts that fail (R346, R348, R363, R364): a stage past its limit, or whose firmware is reset by its watchdog, reports FAILED with STAGE_TIMEOUT; a failed start is counted and
its report words kept, and the third leads to minimal mode, an earlier one to a cold bring-up. -/
def Claims.FailedStarts : Prop :=
  ∀ (s : State) (n : Nat),
    (∀ limit, stageLimit n = some limit → s.stageRuns n = true → s.boot.stage = some n → ∃ t, exec .stageTimeout s = .next t ∧ t.resultOf n = resultFailed ∧
      bits (t.boot.reports.get 0 n).toNat 4 16 = Codes.stageTimeout.toNat ∧ t.clock = max s.clock (s.boot.stageAt + 1000 * limit)) ∧
    (s.stageRuns n = true → s.boot.stage = some n → s.boot.running.isSome = true → ∃ t, exec .mgmtWatchdogReset s = .next t ∧ t.resultOf n = resultFailed ∧
      bits (t.boot.reports.get 0 n).toNat 4 16 = Codes.stageTimeout.toNat) ∧
    (s.boot.stage = some n → n < 9 → s.boot.refclk = true → s.pwr.overtemp = false → s.resultOf n = resultFailed →
      ∃ t, exec .failedStart s = .next t ∧ t.flash.failedStarts = s.flash.failedStarts + 1 ∧ t.flash.reports = s.boot.reports ∧ t.regions = [] ∧
        (s.flash.failedStarts < 2 → t.boot.stage = some 0 ∧ t.boot.minimal = false) ∧
        (2 ≤ s.flash.failedStarts → t.boot.minimal = true ∧ t.boot.reports = s.boot.reports ∧ t.boot.reason = bits (s.boot.reports.get 0 n).toNat 4 16 + 2 ^ 16 * n))

/-- How sessions and starts begin, fail and end: all of `Claims.PowerSessions`, `Claims.FailedStarts`. -/
def Obligations.PowerSessions : Prop := Claims.PowerSessions ∧ Claims.FailedStarts

/-! ### The object dictionary (R426–R457) -/

/-- READ (R426–R434): a number entry answers its value, whatever HANDLE it names (log entry 100); a DOMAIN read through a snapshot is copied, its first piece and its handle answered while fewer than 16 stand, and later
pieces come from the copy; one that may not be read is refused with ACCESS, an unknown one with NO_ENTRY, an OP that R428 does not list the same. -/
def Claims.DictionaryReads : Prop :=
  ∀ (s : State) (m : OdpMsg), s.Serves m →
    let u := s.heard m
    (∀ e, m.op = 1 → s.entryFor m = .inr e → e.access ≠ acWo → (m.type = 0 ∨ m.type = e.type) → m.length ≤ 1024 → e.type ≠ tyDomain →
      exec (.odpRead m) s = .next (({ u with freeIdx := u.freeIdx + readFree } : State).odpSend m
        { odpReply m (some e) Codes.ok whyNone with payload := u.odpScalar m.index m.subindex e })) ∧
    (∀ e, m.op = 1 → s.entryFor m = .inr e → e.access ≠ acWo → (m.type = 0 ∨ m.type = e.type) → m.length ≤ 1024 → e.snapped = true → m.handle = 0 → m.index ≠ 0x9010 →
      ¬ (m.index = 0xA040 ∧ m.subindex = 2 ∧ s.odp.tally.isNone = true) → u.odp.snapshots.length < 16 →
      let value := u.odpDomain m.index m.subindex
      ∃ (t : State) (h : Nat), exec (.odpRead m) s = .next t ∧
        t.odp.sent = u.odp.sent ++ [pieceReply m e h value.length (sliceOf value m.offset m.length)] ∧
        t.odp.snapshots = u.odp.snapshots ++ [{ handle := h, index := m.index, subindex := m.subindex, value, at_ := s.clock }] ∧ h ≠ 0 ∧
        h ∉ u.odp.snapshots.map (·.handle)) ∧
    (∀ e x, m.op = 1 → s.entryFor m = .inr e → e.access ≠ acWo → (m.type = 0 ∨ m.type = e.type) → m.length ≤ 1024 → e.snapped = true → m.handle ≠ 0 →
      ¬ (m.index = 0xA040 ∧ m.subindex = 2 ∧ s.odp.tally.isNone = true) →
      (u.odp.snapshots.find? fun x => x.handle == m.handle && x.index == m.index && x.subindex == m.subindex) = some x →
      ∃ t, exec (.odpRead m) s = .next t ∧ t.odp.sent = u.odp.sent ++ [pieceReply m e m.handle x.value.length (sliceOf x.value m.offset m.length)]) ∧
    (∀ e, m.op = 1 → s.entryFor m = .inr e → e.access = acWo → exec (.odpRead m) s = .next (u.odpRefuse m (some e) Codes.configInvalid whyAccess)) ∧
    (∀ why e, m.op = 1 → s.entryFor m = .inl (why, e) → exec (.odpRead m) s = .next (u.odpRefuse m e Codes.configInvalid why)) ∧
    (m.op = 0 ∨ 6 < m.op → exec (.odpRead m) s = .next (u.odpRefuse m none Codes.configInvalid whyNoEntry))

/-- A datagram that is not carried out, of every operation, and of every entry that has a row of its own (R426, R430, R364): at a port that is not served nothing changes; one that
is not well formed is discarded and counted; a repeated request is answered as before, or waits for the first copy's answer. -/
def Claims.DictionaryDiscards : Prop :=
  ∀ (s : State) (m : OdpMsg) (i : Instr),
    let v := leNat m.payload
    (i, m.op) ∈ [(Instr.odpRead m, 1), (.odpWrite m, 2), (.stageBegin m, 3), (.stageData m, 4), (.stageCommit m, 5), (.stageCancel m, 6)] ∨
      (m.op = 1 ∧ m.index = 0x9010 ∧ m.subindex = 1 ∧ i = .sessionChallenge m) ∨
      (m.op = 2 ∧ ((i, m.index) ∈ [(Instr.operatorKey m, 0x9020), (.keyClear m, 0x9021), (.ownerRequired m, 0x9004), (.engineId m, 0x6001), (.mgmtImage m, 0x2011),
          (.spreadWrite m, 0x3002), (.fieldSource m, 0x3030), (.routeTable m, 0x6003), (.routerMarks m, 0xA030)] ∨
        (i, m.index, m.subindex) ∈ [(Instr.sessionOpen m, 0x9010, 2), (.sessionClose m, 0x9010, 3), (.vendorKeyRevoke m, 0x9003, 2), (.attestNonce m, 0x9002, 1),
          (.restart m, 0x2010, 3), (.historyClear m, 0x7030, 2), (.musterQuery m, 0xA011, 1), (.tallyQuery m, 0xA040, 1)] ∨
        (0x6100 ≤ m.index ∧ m.index ≤ 0x611F ∧ i = .windowRecordWrite m) ∨
        (m.index = 0x6120 ∧ i = if bits v 12 4 = 2 then .windowClose m else .windowOpen m) ∨
        (m.index = 0x6320 ∧ i = if v % 256 = 0 then .qpReset m else .qpArm m) ∨
        (m.index = 0x8010 ∧ m.subindex = 1 ∧ i = if v = 0xFF then .thaw m else .freeze m))) →
    (s.odpServed m.src.port = false → exec i s = .next s) ∧
    (s.odpServed m.src.port = true → odpMalformed m = true → exec i s = .next { s with odp := { s.odp.prune s.clock with discards := min 0xFFFFFFFF (s.odp.discards + 1) } }) ∧
    (∀ r, s.odpServed m.src.port = true → odpMalformed m = false → s.odp.records.find? (fun r => r.src == m.src && r.seq == m.seq) = some r →
      exec i s = .next { s with odp := { s.odp.prune s.clock with sent := s.odp.sent ++ r.reply.toList } })

/-- Reads of the object dictionary, and datagrams that are not carried out: all of `Claims.DictionaryReads`, `Claims.DictionaryDiscards`. -/
def Obligations.DictionaryReads : Prop := Claims.DictionaryReads ∧ Claims.DictionaryDiscards

/-- WRITE and the stages (R407, R429, R432, R435; log entry 101: the frames of a stage come from any source, and STAGE_BEGIN's response carries TOTAL): a value that comes to T_THROTTLE_C takes force and is answered, one out of its range is refused with RANGE; STAGE_BEGIN of a DOMAIN entry that may be written without a session
opens a stage under a fresh handle; STAGE_DATA keeps its piece; STAGE_CANCEL frees the stage; a commit with a byte missing frees it and is refused with TYPE; one that brings PACE_GROUP engine ids puts them in force. -/
def Claims.DictionaryWrites : Prop :=
  ∀ (s : State) (m : OdpMsg),
    (∀ e b u v, m.op = 2 → s.Brings m 0x4003 1 e b u → leNat b = v → 85 ≤ v → v ≤ 100 →
      exec (.odpWrite m) s = ({ u with pwr := { u.pwr with tThrottle := v } } : State).okTo m e) ∧
    (∀ e b u v, m.op = 2 → s.Brings m 0x4003 1 e b u → leNat b = v → v < 85 ∨ 100 < v →
      exec (.odpWrite m) s = .next (u.odpRefuse m (some e) Codes.configInvalid whyRange)) ∧
    (∀ e, m.op = 3 → s.Serves m → s.entryFor m = .inr e → e.type = tyDomain → (e.access = acRw ∨ e.access = acWo) → (m.type = 0 ∨ m.type = e.type) →
      e.fits m.index m.total = true → (s.heard m).odp.stages.length < 16 → ((s.heard m).odp.stages.map (·.total)).sum + m.total ≤ stageRoom →
      ∃ (t : State) (x : Stage), exec (.stageBegin m) s = .next t ∧ t.odp.stages = (s.heard m).odp.stages ++ [x] ∧ x.src = m.src ∧ x.index = m.index ∧
        x.subindex = m.subindex ∧ x.total = m.total ∧ x.pieces = [] ∧ x.at_ = s.clock ∧ x.handle ≠ 0 ∧ x.handle ∉ (s.heard m).odp.stages.map (·.handle) ∧
        t.odp.sent = (s.heard m).odp.sent ++ [{ odpReply m (some e) Codes.ok whyNone with handle := x.handle, total := m.total }]) ∧
    (∀ x, m.op = 4 → s.Serves m → (s.heard m).odp.stages = [x] → x.handle = m.handle → 0 < m.length → m.length ≤ 1024 → m.offset + m.length ≤ x.total →
      ∃ t, exec (.stageData m) s = .next t ∧ t.odp.stages = [{ x with pieces := x.pieces ++ [(m.offset, m.payload)], at_ := s.clock }] ∧
        t.odp.sent = (s.heard m).odp.sent ++ [{ odpReply m (odpEntry x.index x.subindex) Codes.ok whyNone with handle := m.handle }]) ∧
    (∀ x, m.op = 6 → s.Serves m → (s.heard m).stageOf m.handle = some x →
      exec (.stageCancel m) s = .next (((s.heard m).stageFreed m.handle).odpSend m (odpReply m (odpEntry x.index x.subindex) Codes.ok whyNone))) ∧
    (∀ x e, m.op = 5 → s.Serves m → (s.heard m).stageOf m.handle = some x → odpEntry x.index x.subindex = some e → x.value = none →
      exec (.stageCommit m) s = .next (((s.heard m).stageFreed m.handle).odpRefuse m (some e) Codes.configInvalid whyType)) ∧
    (∀ e b u, m.op = 5 → s.Brings m 0x6005 1 e b u → (∀ i, i < b.length / 2 → numAt b (2 * i) 2 ≤ 4095) →
      exec (.stageCommit m) s = ({ u with relend := { u.relend with
        paceGroup := (List.range (b.length / 2)).map fun i => numAt b (2 * i) 2 } } : State).okTo m e)

/-- What time ends (R433, R435, R437): a stage 10 s after its last frame, a snapshot 2 s after its last READ, a challenge after 30 s, a session 300 s after its last sealed write:
none whose time has come is left, and every other one stays. -/
def Claims.DictionaryTimes : Prop :=
  ∀ s : State,
    (∀ h x, s.stageOf h = some x → s.clock ≤ x.at_ + 10000000 → ∃ t, exec (.stageExpiry h) s = .next t ∧ t.clock = x.at_ + 10000000 ∧
      t.odp.stages = s.odp.stages.filter fun y => decide (t.clock < y.at_ + 10000000)) ∧
    (∀ h x, s.odp.snapshots.find? (fun x => x.handle == h) = some x → s.clock ≤ x.at_ + 2000000 → ∃ t, exec (.snapshotExpiry h) s = .next t ∧
      t.clock = x.at_ + 2000000 ∧ t.odp.snapshots = s.odp.snapshots.filter fun y => decide (t.clock < y.at_ + 2000000)) ∧
    (∀ src x, s.odp.challenges.find? (fun x => x.src == src) = some x → s.clock ≤ x.at_ + 30000000 → ∃ t, exec (.challengeExpiry src) s = .next t ∧
      t.clock = x.at_ + 30000000 ∧ t.odp.challenges = s.odp.challenges.filter fun y => decide (t.clock < y.at_ + 30000000)) ∧
    (∀ n x, s.odp.sessions.find? (fun x => x.number == n) = some x → s.clock ≤ x.at_ + 300000000 → ∃ t, exec (.sessionTimeout n) s = .next t ∧
      t.clock = x.at_ + 300000000 ∧ t.odp.sessions = s.odp.sessions.filter fun y => decide (t.clock < y.at_ + 300000000))

/-- Writes and stages of the object dictionary, and what time ends: all of `Claims.DictionaryWrites`, `Claims.DictionaryTimes`. -/
def Obligations.DictionaryWrites : Prop := Claims.DictionaryWrites ∧ Claims.DictionaryTimes

/-- Sessions (R437): a READ of SESSION_CHALLENGE gives 32 fresh bytes held for its source alone; SESSION_OPEN with a challenge held for the source and a signature that verifies
under the slot's key opens a session with count 0 while fewer than four stand; SESSION_CLOSE by its source ends it. -/
def Claims.Sessions : Prop :=
  ∀ (s : State) (m : OdpMsg),
    (∀ e, m.op = 1 → s.Serves m → m.index = 0x9010 → m.subindex = 1 → s.entryFor m = .inr e → (m.type = 0 ∨ m.type = e.type) → m.length ≤ 1024 → m.handle = 0 →
      (s.heard m).odp.snapshots.length < 16 → ∃ (t : State) (b : List Byte), exec (.sessionChallenge m) s = .next t ∧ b.length = 32 ∧
        t.odp.challenges = ((s.heard m).odp.challenges.filter fun c => c.src != m.src) ++ [{ src := m.src, bytes := b, at_ := s.clock }] ∧
        t.odp.sessions = (s.heard m).odp.sessions) ∧
    (∀ e b u k, s.Brings m 0x9010 2 e b u → 1 ≤ numAt b 0 1 → numAt b 0 1 ≤ 4 → zeroAt b 1 3 = true → zeroAt b 36 12 = true →
      (∃ c ∈ u.odp.challenges, c.src = m.src ∧ c.bytes = sliceOf b 4 32) → u.flash.keys.find (numAt b 0 1) = some k →
      u.odp.sessions.length < 4 →
      if mldsaVerify k (sessionDigest b) (sliceOf b 48 2420) = true then
        ∃ (t : State) (n : Nat), exec (.sessionOpen m) s = .next t ∧ n ≠ 0 ∧ n ∉ u.odp.sessions.map (·.number) ∧
          t.odp.sessions = u.odp.sessions ++ [{ number := n, src := m.src, slot := numAt b 0 1, challenge := sliceOf b 4 32, count := 0, at_ := s.clock }] ∧
          t.odp.sent = u.odp.sent ++ [{ odpReply m (some e) Codes.ok whyNone with session := n }]
      else exec (.sessionOpen m) s = .next (u.odpRefuse m (some e) Codes.sigInvalid whySession)) ∧
    (∀ e b u, s.Brings m 0x9010 3 e b u → (∃ x ∈ u.odp.sessions, x.number = leNat b ∧ x.src = m.src) →
      exec (.sessionClose m) s = ({ u with odp := { u.odp with sessions := u.odp.sessions.filter fun x => x.number != leNat b } } : State).okTo m e)

/-- Keys (R439, R449, R455): OPERATOR_KEY fills its slot; KEY_CLEAR empties it and ends its sessions, but not the last key while OWNER_REQUIRED stands; the least vendor key only
rises, and not past the running image's; OWNER_REQUIRED needs an operator key. -/
def Claims.Keys : Prop :=
  ∀ (s : State) (m : OdpMsg) (e : OdpEntry) (b : List Byte) (u : State) (slot : Nat),
    (s.Brings m 0x9020 slot e b u → exec (.operatorKey m) s = ({ u with flash := { u.flash with keys := u.flash.keys.put slot b } } : State).okTo m e) ∧
    (s.Brings m 0x9021 slot e b u → leNat b = 1 →
      (u.flash.ownerRequired = false ∨ u.flash.keys.erase slot ≠ [] → exec (.keyClear m) s = ({ u with
        flash := { u.flash with keys := u.flash.keys.erase slot }
        odp := { u.odp with sessions := u.odp.sessions.filter fun x => x.slot != slot } } : State).okTo m e) ∧
      (u.flash.ownerRequired = true → u.flash.keys.erase slot = [] → exec (.keyClear m) s = .next (u.odpRefuse m (some e) Codes.configInvalid whyState))) ∧
    (s.Brings m 0x9003 2 e b u → u.flash.vendorKeyMin < leNat b → leNat b ≤ 3 →
      (leNat b ≤ (Envelope.of (u.boot.running.getD [])).keyId →
        exec (.vendorKeyRevoke m) s = ({ u with flash := { u.flash with vendorKeyMin := leNat b } } : State).okTo m e) ∧
      ((Envelope.of (u.boot.running.getD [])).keyId < leNat b →
        exec (.vendorKeyRevoke m) s = .next (u.odpRefuse m (some e) Codes.configInvalid whyState))) ∧
    (s.Brings m 0x9004 1 e b u → (leNat b = 0 ∨ (leNat b = 1 ∧ u.flash.keys ≠ []) →
        exec (.ownerRequired m) s = ({ u with flash := { u.flash with ownerRequired := decide (leNat b = 1) } } : State).okTo m e) ∧
      (leNat b = 1 → u.flash.keys = [] → exec (.ownerRequired m) s = .next (u.odpRefuse m (some e) Codes.configInvalid whyState)))

/-- Sessions and keys of the object dictionary: all of `Claims.Sessions`, `Claims.Keys`. -/
def Obligations.SessionsAndKeys : Prop := Claims.Sessions ∧ Claims.Keys

/-- Attestation (R456, R457): a nonce begins a report, which waits for its signature after those asked for earlier; signed, it is in ATTEST_REPORT over the digest of its body, the
count of reports rises, and its write completes. -/
def Claims.Attestation : Prop :=
  ∀ s : State,
    (∀ m e b u, s.Brings m 0x9002 1 e b u → u.odp.attesting = [] →
      exec (.attestNonce m) s = .next { u with odp := { u.odp with attesting := [(u.attestBody b, m)] } }) ∧
    (∀ m e b u, s.Brings m 0x9002 1 e b u → u.odp.attesting ≠ [] →
      exec (.attestNonce m) s = .next { u with odp := { u.odp with attesting := u.odp.attesting ++ [(b, m)] } }) ∧
    (∀ body m, s.odp.attesting = [(body, m)] → let sig := attestSign s.freeIdx (sha3 body)
      exec .attestReportSigned s = .next (({ s with
      freeIdx := s.freeIdx + 1, odp := { s.odp with report := body ++ sig, reportSeq := s.odp.reportSeq + 1, attesting := [] } } : State).odpDone m 0x9002 1))

/-- Bring-up, clocks, defects (R270, R338, R354, R365, R366, R377, R381, R382): ENGINE_ID is written until S8 has left its wait, and ends it; RESTART sets the cold bring-up 10 ms
ahead; a management image that verifies is written and completes once it is in flash, one that does not is refused; a spread depth of at most 10 steps is taken while the half
does not run, else refused; a source switch of a quiet field to a READY root is asked for, and its write answered then (log entry 95); HISTORY_CLEAR empties the history. -/
def Claims.BoardSettings : Prop :=
  ∀ (s : State) (m : OdpMsg) (e : OdpEntry) (b : List Byte) (u : State),
    (s.Brings m 0x6001 1 e b u → u.relend.idLocked = false → leNat b ≤ 4095 →
      let t : State := { u with relend := { u.relend with engineId := leNat b, idWritten := true } }
      exec (.engineId m) s = (if s.stageRuns 8 = true ∧ s.boot.s8Left = none then t.s8Leaves else t).okTo m e) ∧
    (s.Brings m 0x6001 1 e b u → u.relend.idLocked = true → exec (.engineId m) s = .next (u.odpRefuse m (some e) Codes.configInvalid whyState)) ∧
    (s.Brings m 0x2010 3 e b u → leNat b = 1 → u.pwr.overtemp = false → u.boot.restartAt = none →
      exec (.restart m) s = ({ u with boot := { u.boot with restartAt := some (s.clock + 10000) } } : State).okTo m e) ∧
    (s.Brings m 0x2011 1 e b u → u.boot.writing = none →
      match u.verify kindMgmt b with
      | .inr _ => exec (.mgmtImage m) s = .next { u with boot := { u.boot with writing := some (b, m) } }
      | .inl code => exec (.mgmtImage m) s = .next (u.odpRefuse m (some e) code whyNone)) ∧
    (∀ image r, s.boot.writing = some (image, r) → exec .mgmtImageFlashDone s = .next (({ s with
      boot := { s.boot with writing := none }, flash := { s.flash with image } } : State).odpDone r 0x2011 1)) ∧
    (∀ sub east, (sub, east) = (1, false) ∨ (sub, east) = (3, true) → s.Brings m 0x3002 sub e b u →
      (u.halfRuns east = false → leNat b ≤ 10 → exec (.spreadWrite m) s = (u.mapRoots east fun h => { h with depth := leNat b, deep := max h.deep (leNat b) }).okTo m e) ∧
      (u.halfRuns east = true → exec (.spreadWrite m) s = .next (u.odpRefuse m (some e) Codes.configInvalid whyState))) ∧
    (∀ sub east, (sub, east) = (2, false) ∨ (sub, east) = (4, true) → s.Brings m 0x3002 sub e b u → u.halfRuns east = false → 300 ≤ leNat b → leNat b ≤ 330 →
      exec (.spreadWrite m) s = (u.mapRoots east fun h => { h with rate := leNat b }).okTo m e) ∧
    (∀ f, f < 68 → s.Brings m 0x3030 (f + 1) e b u → leNat b = 0 ∨ leNat b = 3 ∨ leNat b = 4 ∨ leNat b = 7 → u.boot.stage = some 9 → u.fieldQuiet f = true → f ∈ u.clk.ready →
      exec (.fieldSource m) s = (((List.range 3).filter fun k => u.clk.src.get false (4 * f + k) != bitAt (leNat b) k).foldl
        (fun (s : State) k => s.sourceAsk (4 * f + k) (bitAt (leNat b) k)) u).okTo m e) ∧
    (s.Brings m 0x7030 2 e b u → leNat b = 1 → exec (.historyClear m) s = ({ u with defects := { u.defects with history := [] } } : State).okTo m e)

/-- Attestation, bring-up, clock and defect settings written through the dictionary: all of `Claims.Attestation`, `Claims.BoardSettings`. -/
def Obligations.BoardSettings : Prop := Claims.Attestation ∧ Claims.BoardSettings

/-- Relend's tables (R271, R277, R278): 4,096 valid route words replace the table; the record of a CLOSED window is written, of another refused; a CLOSED window with a legal range
that no other shares opens with its counts at 0; a close of an open window is done at once where nothing is in hand; else, and of a CLOSING one, when the last accepted request has been answered. -/
def Claims.WindowsAndRoutes : Prop :=
  ∀ (s : State) (m : OdpMsg) (e : OdpEntry) (b : List Byte) (u : State),
    (s.Brings m 0x6003 1 e b u → (∀ i, i < 4096 → routeOk (numAt b (4 * i) 4) = true) →
      exec (.routeTable m) s = ({ u with relend := { u.relend with
        routes := (List.range 4096).foldl (fun (m : SMap (BitVec 32)) i => m.set 0 i (BitVec.ofNat 32 (numAt b (4 * i) 4))) [] } } : State).okTo m e) ∧
    (∀ n, n < 4096 → s.Brings m (0x6100 + n / 128) (n % 128 + 1) e b u →
      ((u.window n).mode = .closed → exec (.windowRecordWrite m) s = (u.mapWindow n fun w => w.record b).okTo m e) ∧
      ((u.window n).mode ≠ .closed → exec (.windowRecordWrite m) s = .next (u.odpRefuse m (some e) Codes.configInvalid whyState))) ∧
    (∀ n, n < 4096 → s.Brings m 0x6120 1 e b u → leNat b = n + 4096 → (u.window n).mode = .closed →
      ((u.window n).rangeOk = true → u.windowTaken (u.window n) = false →
        exec (.windowOpen m) s = (u.mapWindow n fun w => { w with mode := .open_, accepted := 0, rejected := 0 }).okTo m e) ∧
      ((u.window n).rangeOk = false ∨ u.windowTaken (u.window n) = true →
        exec (.windowOpen m) s = .next (u.odpRefuse m (some e) Codes.configInvalid whyRange))) ∧
    (∀ n, n < 4096 → s.Brings m 0x6120 1 e b u → leNat b = n + 8192 →
      ((u.window n).mode = .open_ → (u.window n).busy = 0 → exec (.windowClose m) s = (u.mapWindow n fun w => { w with mode := .closed }).okTo m e) ∧
      ((u.window n).mode = .closing ∨ ((u.window n).mode = .open_ ∧ (u.window n).busy ≠ 0) → exec (.windowClose m) s =
        .next (u.mapWindow n fun w => { w with mode := .closing, closers := w.closers ++ [m] }))) ∧
    (∀ n, n < 4096 → (s.window n).mode = .closing → (s.window n).busy = 0 → exec (.windowCloseComplete n) s =
      .next ((s.window n).closers.foldl (fun (s : State) m => s.odpDone m 0x6120 1) (s.mapWindow n fun w => { w with mode := .closed, closers := [] })))

/-- Queries, marks and the recorder (R444, R445, R466): MUSTER_QUERY and TALLY_QUERY select what is read; ROUTER_MARKS whose low mark lies below its high mark, that at most its stop
mark, are in force at every router at once; FREEZE is refused while a freeze forbids it, else freezes its target; THAW ends it. -/
def Claims.QueriesAndMarks : Prop :=
  ∀ (s : State) (m : OdpMsg) (e : OdpEntry) (b : List Byte) (u : State),
    (s.Brings m 0xA011 1 e b u → exec (.musterQuery m) s = ({ u with odp := { u.odp with muster := leNat b } } : State).okTo m e) ∧
    (∀ c : Coord, s.Brings m 0xA040 1 e b u → c.present = true → leNat b = c.x + 1024 * c.y →
      exec (.tallyQuery m) s = ({ u with odp := { u.odp with tally := some (leNat b) } } : State).okTo m e) ∧
    (s.Brings m 0xA030 1 e b u → bits (leNat b) 0 8 < bits (leNat b) 8 8 → bits (leNat b) 8 8 ≤ bits (leNat b) 16 8 → bits (leNat b) 16 8 ≤ 192 →
      bits (leNat b) 24 8 ≠ 0 → exec (.routerMarks m) s = ({ u with
        routers := u.routers.mapVals .reset fun _ r => r.throttle (leNat b), odp := { u.odp with marks := leNat b } } : State).okTo m e) ∧
    (s.Brings m 0x8010 1 e b u → leNat b ≤ 68 →
      (u.freezeRefused (leNat b) = false → exec (.freeze m) s = (u.freezeTo (leNat b)).okTo m e) ∧
      (u.freezeRefused (leNat b) = true → exec (.freeze m) s = .next (u.odpRefuse m (some e) Codes.configInvalid whyState))) ∧
    (s.Brings m 0x8010 1 e b u → leNat b = 0xFF → u.freezeRefused 0xFF = false → exec (.thaw m) s = (u.freezeTo 0xFF).okTo m e)

/-- Windows, routes, queries, marks and freezes written through the dictionary: all of `Claims.WindowsAndRoutes`, `Claims.QueriesAndMarks`. -/
def Obligations.WindowsAndQueries : Prop := Claims.WindowsAndRoutes ∧ Claims.QueriesAndMarks

/-- Queue pairs (R442, R481): one in RESET whose fields are valid is armed; one that is not in RESET returns there at once where no line is in flight and no earlier reset waits, else
when the last line has completed, each reset write then taking effect and completing in turn; any other write of it is refused. -/
def Claims.QueuePairWrites : Prop :=
  ∀ (s : State) (q : Nat), q < 64 →
    (∀ m e b u, s.Brings m 0x6320 (q + 1) e b u → numAt b 0 1 = 1 → b.length = 32 →
      ((u.pair q).mode = .reset → pairOk b = true → exec (.qpArm m) s = (u.mapPair q fun x => x.armed b).okTo m e) ∧
      ((u.pair q).mode ≠ .reset → exec (.qpArm m) s = .next (u.odpRefuse m (some e) Codes.configInvalid whyState))) ∧
    (∀ m e b u, s.Brings m 0x6320 (q + 1) e b u → numAt b 0 1 = 0 → b.length = 32 → (u.pair q).mode ≠ .reset →
      ((u.pair q).jobs = [] → (u.pair q).resetting = [] → exec (.qpReset m) s = (u.mapPair q fun x => x.cleared b).okTo m e) ∧
      ((u.pair q).jobs ≠ [] ∨ (u.pair q).resetting ≠ [] → exec (.qpReset m) s = .next (u.mapPair q fun x => { x with resetting := x.resetting ++ [(m, b)] }))) ∧
    ((s.pair q).jobs = [] → exec (.qpResetDone q) s =
      .next ((s.pair q).resetting.foldl (fun (s : State) e => (s.mapPair q fun x => x.cleared e.2).odpDone e.1 0x6320 (q + 1)) s))

/-! ### The host port (R476–R484) -/

/-- RoCEv2 requests in their place (R480, R482, R483): while the link is up and the pair takes packets, a request with the expected PSN, of aligned lines, in its place in a message,
that its window admits, waits for its answer and moves the PSN on; a pair that takes none discards it, counted; the lines of the first packet are written, then it is acknowledged and its window has one request fewer
in hand. -/
def Claims.RdmaRequests : Prop :=
  ∀ (s : State) (p : RdmaPkt), p.qp < 64 → s.eth.up = true → p.ce = false →
    (∀ i ∈ [Instr.rdmaWriteFirst p, .rdmaWriteMiddle p, .rdmaWriteLast p, .rdmaWriteOnly p, .rdmaReadRequest p], (s.pair p.qp).takes = false →
      exec i s = .next (s.ethCount ethQpDiscards)) ∧
    (let u := s.mapPair p.qp fun x => { x with naked := false }
     let w := u.window (p.rkey % 4096)
     (s.pair p.qp).takes = true → p.psn = (s.pair p.qp).psn → p.psn < 2 ^ 24 →
     (∀ row ∈ [(Instr.rdmaWriteFirst p, RdmaKind.first), (.rdmaWriteOnly p, .only)], u.rdmaBad p row.2 (s.pair p.qp).message p.rkey p.va = false →
       w.mode = .open_ → w.covers 0 p.va p.payload.length = true → w.allows kWrite = true →
       let message := if row.2 = .first then some (p.rkey, p.va + p.payload.length) else none
       let v := u.mapPair p.qp fun x => { x with psn := (p.psn + 1) % 2 ^ 24, message }
       exec row.1 s = .next ((v.mapWindow (p.rkey % 4096) fun w =>
           { w with accepted := satAdd 0xFFFFFFFF w.accepted 1, busy := w.busy + 1 }).rdmaQueue p.qp
         { psn := p.psn, use := .write p.payload, window := some (p.rkey % 4096), addr := p.va })) ∧
     (∀ row ∈ [(Instr.rdmaWriteMiddle p, RdmaKind.middle), (.rdmaWriteLast p, .last)], ∀ rkey addr, (s.pair p.qp).message = some (rkey, addr) →
       u.rdmaBad p row.2 (some (rkey, addr)) rkey addr = false →
       (u.window (rkey % 4096)).mode = .open_ → (u.window (rkey % 4096)).covers 0 addr p.payload.length = true → (u.window (rkey % 4096)).allows kWrite = true →
       let message := if row.2 = .middle then some (rkey, addr + p.payload.length) else none
       let v := u.mapPair p.qp fun x => { x with psn := (p.psn + 1) % 2 ^ 24, message }
       exec row.1 s = .next ((v.mapWindow (rkey % 4096) fun w =>
           { w with accepted := satAdd 0xFFFFFFFF w.accepted 1, busy := w.busy + 1 }).rdmaQueue p.qp
         { psn := p.psn, use := .write p.payload, window := some (rkey % 4096), addr })) ∧
     (u.rdmaBad p .read (s.pair p.qp).message p.rkey p.va = false → w.mode = .open_ → w.covers 0 p.va p.dmaLen = true → w.allows kRead = true →
       exec (.rdmaReadRequest p) s = .next (((u.mapPair p.qp fun x => { x with psn := (p.psn + max 1 ((p.dmaLen + 4095) / 4096)) % 2 ^ 24 }).mapWindow (p.rkey % 4096) fun w =>
           { w with accepted := satAdd 0xFFFFFFFF w.accepted 1, busy := w.busy + 1 }).rdmaQueue p.qp
         { psn := p.psn, use := .read (p.dmaLen / 64), window := some (p.rkey % 4096), addr := p.va }))) ∧
    (∀ (j : RdmaJob) (data : List Byte) (v : State), (s.pair p.qp).jobs = [j] → j.use = .write data → (s.pair p.qp).mode = .rts →
      (s.mapPair p.qp fun x => { x with jobs := [] }).rdmaWriteLines p.qp j data [] = (none, v) → (v.pair p.qp).jobs = [] →
      exec (.rdmaLinesDone p.qp []) s = .next (match j.window with
        | some n => (v.rdmaSend (.ack p.qp j.psn)).mapWindow n fun w => { w with busy := w.busy - 1 }
        | none => v.rdmaSend (.ack p.qp j.psn)))

/-- Queue pairs and their RDMA requests: all of `Claims.QueuePairWrites`, `Claims.RdmaRequests`. -/
def Obligations.QueuePairs : Prop := Claims.QueuePairWrites ∧ Claims.RdmaRequests

/-- Frames, link and cage (R364, R426, R476–R479): a datagram at an address of the host port joins the receive buffer; tagged, pause, too many bytes and foreign UDP ports are counted
and dropped, as is an ODP datagram shorter than its header; a frame for no address of the port changes nothing, HOST_IPV4 and HOST_IPV6 being none while 0; address resolution and
echo at one of its own are answered; the field port keeps ODP alone; the link goes down and comes back over a powered module, commands and pairs as they were; a module of more
than 18 W stays unpowered and carries no link. The addresses of the ports come from their MAC addresses (log entry 108). -/
def Obligations.HostPorts : Prop :=
  ∀ (s : State) (f : EthFrame), s.boot.powered = true → s.boot.refclk = true →
    (f.port = .host → s.eth.up = true → f.tagged = false → f.pause = false → 64 ≤ f.length → f.length ≤ 9216 →
      ((s.eth.rx.filter fun g => g.port == .host).map (·.length)).sum + f.length ≤ rxRoom → f.kind = .udp → s.addressed f = true →
      f.checksumOk = true ∨ f.ipv4Zero = true →
      (f.dstUdp = udpOdp → f.payload.length < 32 → exec (.ethFrameReceive f) s =
        .next (if s.odpServed .host then { s with odp := { s.odp with discards := min 0xFFFFFFFF (s.odp.discards + 1) } } else s)) ∧
      (f.dstUdp = udpHcp ∨ (f.dstUdp = udpOdp ∧ 32 ≤ f.payload.length) → exec (.ethFrameReceive f) s = .next { s with eth := { s.eth with rx := s.eth.rx ++ [f] } }) ∧
      (f.dstUdp ≠ udpHcp → f.dstUdp ≠ udpOdp → f.dstUdp ≠ udpRoce → exec (.ethFrameReceive f) s = .next (s.ethCount ethUdp))) ∧
    (s.addressed f = false → f.port = .field ∨ (s.eth.up = true ∧ f.tagged = false ∧ f.pause = false ∧
      ((s.eth.rx.filter fun g => g.port == .host).map (·.length)).sum + f.length ≤ rxRoom) → exec (.ethFrameReceive f) s = .next s) ∧
    (f.ipv4 = true → f.port = .host → f.dest = s.odp.ipv4 → (s.addressed f = true ↔ s.odp.ipv4 ≠ 0)) ∧
    (f.ipv4 = false → f.dest = linkLocal (portMac f.port) → s.addressed f = true) ∧
    (64 ≤ f.length → f.length ≤ 1518 → (f.kind = .arp ∧ f.ipv4 = true) ∨ (f.kind = .neighbour ∧ f.ipv4 = false) ∨ f.kind = .echo → s.addressed f = true → f.port = .field ∨
      (s.eth.up = true ∧ f.tagged = false ∧ f.pause = false ∧ ((s.eth.rx.filter fun g => g.port == .host).map (·.length)).sum + f.length ≤ rxRoom) →
      ∃ t a, exec (.ethFrameReceive f) s = .next t ∧ t = { s with eth := { s.eth with answers := s.eth.answers ++ [a] } } ∧ a.port = f.port ∧ a.dest = f.src ∧
        a.kind = f.kind ∧ a.addr = f.dest ∧ a.mac = portMac f.port) ∧
    (f.port = .host → s.eth.up = true → f.tagged = true → exec (.ethFrameReceive f) s = .next (s.ethCount ethTagged)) ∧
    (f.port = .host → s.eth.up = true → f.tagged = false → f.pause = true → exec (.ethFrameReceive f) s = .next (s.ethCount ethPause)) ∧
    (f.port = .host → s.eth.up = true → f.tagged = false → f.pause = false → 64 ≤ f.length → f.length ≤ 9216 →
      rxRoom < ((s.eth.rx.filter fun g => g.port == .host).map (·.length)).sum + f.length → exec (.ethFrameReceive f) s = .next (s.ethCount ethBufferDrops)) ∧
    (f.port = .field → 64 ≤ f.length → f.length ≤ 1518 → f.kind = .udp → s.addressed f = true → f.checksumOk = true →
      (f.dstUdp = udpHcp ∨ f.dstUdp = udpRoce → exec (.ethFrameReceive f) s = .next { s with eth := { s.eth with fieldDiscards := s.eth.fieldDiscards + 1 } }) ∧
      (f.dstUdp = udpOdp → 32 ≤ f.payload.length → exec (.ethFrameReceive f) s = .next { s with eth := { s.eth with rx := s.eth.rx ++ [f] } })) ∧
    (∀ up, s.boot.minimal = false → exec (.hostLinkDown up) s = .next { s with eth := { s.eth with up := up && s.eth.module_ } }) ∧
    (∀ watts, s.boot.minimal = false → exec (.osfpModuleInserted watts) s = .next { s with eth := { s.eth with module_ := decide (watts ≤ 18), up := s.eth.up && decide (watts ≤ 18) } }) ∧
    (∀ watts up, s.boot.minimal = true → exec (.osfpModuleInserted watts) s = .next s ∧ exec (.hostLinkDown up) s = .next s)

/-! ### Reset, and what every command keeps -/

/-- What reset leaves (R55–R58, R135–R137, R202, R243, R276, R387, R394, R410, R424, R441, R481; the queue is the model's own, log entry 6): no power, no region,
every cell EMPTY with its registers and tables at their reset values, accumulators and fabric credits, for which the spec gives none, at 0 (log entry 1), every setting at its
default. -/
def Obligations.ResetHolds : Prop :=
  let s := State.reset
  s.pending = [] ∧ s.regions = [] ∧ s.boot.powered = false ∧ s.boot.stage = none ∧ s.epoch = false ∧ s.flipPending = false ∧ s.oldValid = false ∧
  (∀ c : Coord, let x := s.cell c
    x.mode = .empty ∧ x.regs.cellControl = 0x4000 ∧ x.regs.foldStart = 0 ∧ x.regs.sheepdog = 0x3E8 ∧ x.regs.switchControl = 0x1000 ∧
    x.seq.cur = 0 ∧ x.fault.first = none ∧
    ∀ k, x.regs.stepTable.get 0 k = 0 ∧ x.regs.agConfig.get 0 k = 0 ∧ x.regs.meshTarget.get 0 k = 0 ∧ x.regs.portPart.get 0 k = 0 ∧
      x.regs.route.get 0 k = 0 ∧ x.tally k = 0 ∧ x.accs.get 0 k = 0 ∧ x.fab.credits.get 0 k = 0) ∧
  (∀ east : Bool, (s.roots east).set = s.part.rootMax ∧ (s.roots east).slewing = false ∧ (s.roots east).depth = 0 ∧ (s.roots east).rate = 0x13B ∧
    (s.dvfs east).op = s.part.highest ∧ (s.dvfs east).state = .idle) ∧
  s.pwr.capW = s.part.cap ∧ s.pwr.windowS = 8 ∧ s.pwr.priority = 0 ∧ s.pwr.opFloor = 11 ∧ s.pwr.raiseHold = 100 ∧ s.pwr.westLimit = 320 ∧
  s.pwr.eastLimit = 320 ∧ s.pwr.tThrottle = 95 ∧ s.pwr.droopLimit = 1000 ∧ s.pwr.follow = false ∧ s.pwr.skewNs = 20000 ∧ s.pwr.scale = 65536 ∧
  (∀ p, (s.paddockRegs p).vtarget = 0 ∧ (s.paddockRegs p).margin = 0x10 ∧ (s.paddockRegs p).en = false) ∧
  s.odp.attemptUs = 10 ∧ s.odp.resends = 4 ∧ s.odp.completionUs = 20 ∧ s.odp.sessions = [] ∧ s.meter.state = 3 ∧
  (∀ n, (s.window n).mode = .closed ∧ (s.pair n).mode = .reset) ∧ s.relend.engineId = 0

/-- Every command that names units the engine has, with fields that fit their widths, has a next state: data never stop a run (R13–R18; log entries 7 and 9). -/
def Obligations.UnitsThatExist : Prop :=
  ∀ (i : Instr) (s : State), i.wf = true → ∃ t, exec i s = .next t

/-- The settings at reset are legal (R391, R395, R401, R404, R405, R407, R409, R441, R445; the part is log entry 5's choice). -/
def Obligations.ResetIsLegal : Prop := State.reset.Legal

/-- Settings stay legal: whatever command a step runs, at whatever state with legal settings, every setting of the power controller, the dictionary, Relend, the defect
limits and the spread stays in the range its rule gives, the recovery settings stay layered, the router marks ordered, stages, snapshots and sessions within their room, and no
owner is left without a key (R270, R271, R296, R325, R326, R377, R391, R404, R407, R441, R445, R455). -/
def Obligations.SettingsStayLegal : Prop :=
  ∀ s t : State, s.Legal → step s = .next t → t.Legal

/-- Time and the least vendor key never go back, the part is the part it was, and a step takes one command from the queue and adds none (R1, R195, R370, R449; log entries 5 and 6). -/
def Obligations.TimeAndFuses : Prop :=
  ∀ s t : State, step s = .next t → s.clock ≤ t.clock ∧ s.flash.vendorKeyMin ≤ t.flash.vendorKeyMin ∧ t.part = s.part ∧ t.pending = s.pending.tail
end

