-- ==== Sys2Proof/Laws/SMap.lean ====
section
/-!
SUPPORT. Sparse tables: a read after a write, and the canonical form that every write keeps.
-/
namespace Sys2Proof

variable {α : Type}

@[simp] theorem SMap.get_nil (d : α) (k : Nat) : SMap.get d [] k = d := rfl

theorem SMap.get_insert_same (d : α) (k : Nat) (v : α) : ∀ m : SMap α, (SMap.insert m k v).get d k = v
  | [] => by simp [SMap.insert, SMap.get]
  | (j, w) :: rest => by
    unfold SMap.insert
    split
    · simp [SMap.get]
    · split
      · simp [SMap.get]
      · rename_i h
        have : ¬ j = k := fun e => h e.symm
        simp [SMap.get, this, SMap.get_insert_same d k v rest]

theorem SMap.get_insert_other (d : α) {k j : Nat} (v : α) (h : j ≠ k) : ∀ m : SMap α, (SMap.insert m k v).get d j = m.get d j
  | [] => by simp [SMap.insert, SMap.get, Ne.symm h]
  | (i, w) :: rest => by
    unfold SMap.insert
    split
    · simp [SMap.get, Ne.symm h]
    · split
      · rename_i e; subst e; simp [SMap.get, Ne.symm h]
      · simp only [SMap.get]; split
        · rfl
        · exact SMap.get_insert_other d v h rest

theorem SMap.get_erase_other (d : α) {k j : Nat} (h : j ≠ k) : ∀ m : SMap α, (SMap.erase m k).get d j = m.get d j
  | [] => rfl
  | (i, w) :: rest => by
    unfold SMap.erase
    split
    · rename_i e; subst e; simp [SMap.get, Ne.symm h]
    · simp only [SMap.get]; split
      · rfl
      · exact SMap.get_erase_other d h rest

/-- A key below every listed one reads as the default. -/
theorem SMap.get_below (d : α) {k : Nat} : ∀ {m : SMap α} {lo : Nat}, m.rising lo = true → k < lo → m.get d k = d
  | [], _, _, _ => rfl
  | (j, w) :: rest, lo, h, hk => by
    simp only [SMap.rising, Bool.and_eq_true, decide_eq_true_eq] at h
    have : ¬ j = k := by omega
    simp only [SMap.get, this, if_false]
    exact SMap.get_below d h.2 (by omega)

theorem SMap.get_erase_same (d : α) {k : Nat} : ∀ {m : SMap α} {lo : Nat}, m.rising lo = true → (SMap.erase m k).get d k = d
  | [], _, _ => rfl
  | (j, w) :: rest, lo, h => by
    simp only [SMap.rising, Bool.and_eq_true, decide_eq_true_eq] at h
    unfold SMap.erase
    split
    · rename_i e; subst e; exact SMap.get_below d h.2 (by omega)
    · rename_i e; simp only [SMap.get, e, if_false]; exact SMap.get_erase_same d h.2

theorem SMap.rising_mono : ∀ {m : SMap α} {a b : Nat}, a ≤ b → m.rising b = true → m.rising a = true
  | [], _, _, _, _ => rfl
  | (j, w) :: rest, a, b, h, r => by
    simp only [SMap.rising, Bool.and_eq_true, decide_eq_true_eq] at r ⊢
    exact ⟨by omega, r.2⟩

theorem SMap.rising_insert (k : Nat) (v : α) : ∀ {m : SMap α} {lo : Nat}, m.rising lo = true → lo ≤ k → (SMap.insert m k v).rising lo = true
  | [], lo, _, h => by simp [SMap.insert, SMap.rising, h]
  | (j, w) :: rest, lo, r, h => by
    simp only [SMap.rising, Bool.and_eq_true, decide_eq_true_eq] at r
    unfold SMap.insert
    split
    · simp only [SMap.rising, Bool.and_eq_true, decide_eq_true_eq]; exact ⟨h, by omega, r.2⟩
    · split
      · rename_i e; subst e; simp [SMap.rising, h, r.2]
      · simp only [SMap.rising, Bool.and_eq_true, decide_eq_true_eq]
        exact ⟨r.1, SMap.rising_insert k v r.2 (by omega)⟩

theorem SMap.rising_erase (k : Nat) : ∀ {m : SMap α} {lo : Nat}, m.rising lo = true → (SMap.erase m k).rising lo = true
  | [], _, r => r
  | (j, w) :: rest, lo, r => by
    simp only [SMap.rising, Bool.and_eq_true, decide_eq_true_eq] at r
    unfold SMap.erase
    split
    · exact SMap.rising_mono (by omega) r.2
    · simp only [SMap.rising, Bool.and_eq_true, decide_eq_true_eq]; exact ⟨r.1, SMap.rising_erase k r.2⟩

theorem SMap.all_insert {p : Nat × α → Bool} {k : Nat} {v : α} : ∀ {m : SMap α}, m.all p = true → p (k, v) = true → (SMap.insert m k v).all p = true
  | [], _, h => by simp [SMap.insert, h]
  | (j, w) :: rest, a, h => by
    simp only [List.all_cons, Bool.and_eq_true] at a
    unfold SMap.insert
    split
    · simp [h, a.1, a.2]
    · split
      · simp [h, a.2]
      · simp only [List.all_cons, Bool.and_eq_true]; exact ⟨a.1, SMap.all_insert a.2 h⟩

theorem SMap.all_erase {p : Nat × α → Bool} {k : Nat} : ∀ {m : SMap α}, m.all p = true → (SMap.erase m k).all p = true
  | [], _ => rfl
  | (j, w) :: rest, a => by
    simp only [List.all_cons, Bool.and_eq_true] at a
    unfold SMap.erase
    split
    · exact a.2
    · simp only [List.all_cons, Bool.and_eq_true]; exact ⟨a.1, SMap.all_erase a.2⟩

theorem SMap.find_insert_same (k : Nat) (v : α) : ∀ m : SMap α, (SMap.insert m k v).find k = some v
  | [] => by simp [SMap.insert, SMap.find]
  | (j, w) :: rest => by
    unfold SMap.insert
    split
    · simp [SMap.find]
    · split
      · simp [SMap.find]
      · rename_i h
        have : ¬ j = k := fun e => h e.symm
        simp [SMap.find, this, SMap.find_insert_same k v rest]

theorem SMap.find_insert_other {k j : Nat} (v : α) (h : j ≠ k) : ∀ m : SMap α, (SMap.insert m k v).find j = m.find j
  | [] => by simp [SMap.insert, SMap.find, Ne.symm h]
  | (i, w) :: rest => by
    unfold SMap.insert
    split
    · simp [SMap.find, Ne.symm h]
    · split
      · rename_i e; subst e; simp [SMap.find, Ne.symm h]
      · simp only [SMap.find]; split
        · rfl
        · exact SMap.find_insert_other v h rest

/-- A changed entry of a table of things that exist is found as changed. -/
theorem SMap.find_modify_same {m : SMap α} {k : Nat} {v : α} (f : α → α) (h : m.find k = some v) : (m.modify k f).find k = some (f v) := by
  simp [SMap.modify, h, SMap.put, SMap.find_insert_same]

theorem SMap.find_modify_other {m : SMap α} {k j : Nat} (f : α → α) (h : j ≠ k) : (m.modify k f).find j = m.find j := by
  unfold SMap.modify
  split
  · exact SMap.find_insert_other _ h m
  · rfl

variable [DecidableEq α]

theorem SMap.wf_nil (d : α) : SMap.wf d [] = true := rfl

/-- Writing keeps the canonical form. -/
theorem SMap.wf_set {d : α} {m : SMap α} (h : m.wf d = true) (k : Nat) (v : α) : (m.set d k v).wf d = true := by
  simp only [SMap.wf, Bool.and_eq_true] at h ⊢
  unfold SMap.set
  split
  · exact ⟨SMap.rising_erase k h.1, SMap.all_erase h.2⟩
  · rename_i n
    exact ⟨SMap.rising_insert k v h.1 (Nat.zero_le k), SMap.all_insert h.2 (by simpa using n)⟩

theorem SMap.wf_upd {d : α} {m : SMap α} (h : m.wf d = true) (k : Nat) (f : α → α) : (m.upd d k f).wf d = true := SMap.wf_set h k _

theorem SMap.rising_mapVals (d : α) (f : Nat → α → α) : ∀ {m : SMap α} {lo : Nat}, m.rising lo = true → (m.mapVals d f).rising lo = true
  | [], _, r => r
  | (j, w) :: rest, lo, r => by
    simp only [SMap.rising, Bool.and_eq_true, decide_eq_true_eq] at r
    simp only [SMap.mapVals]
    split
    · exact SMap.rising_mono (by omega) (SMap.rising_mapVals d f r.2)
    · simp only [SMap.rising, Bool.and_eq_true, decide_eq_true_eq]; exact ⟨r.1, SMap.rising_mapVals d f r.2⟩

theorem SMap.all_mapVals (d : α) (f : Nat → α → α) : ∀ m : SMap α, (m.mapVals d f).all (fun e => decide (e.2 ≠ d)) = true
  | [] => rfl
  | (j, w) :: rest => by
    simp only [SMap.mapVals]
    split
    · exact SMap.all_mapVals d f rest
    · rename_i n
      simp only [List.all_cons, Bool.and_eq_true]; exact ⟨by simpa using n, SMap.all_mapVals d f rest⟩

/-- Changing every listed value keeps the canonical form. -/
theorem SMap.wf_mapVals {d : α} {m : SMap α} (h : m.wf d = true) (f : Nat → α → α) : (m.mapVals d f).wf d = true := by
  simp only [SMap.wf, Bool.and_eq_true] at h ⊢
  exact ⟨SMap.rising_mapVals d f h.1, SMap.all_mapVals d f m⟩

/-- A write is read back; in a table in canonical form the default is too. -/
theorem SMap.get_set_same {d : α} {m : SMap α} (k : Nat) (v : α) (h : m.wf d = true ∨ v ≠ d) : (m.set d k v).get d k = v := by
  unfold SMap.set
  split
  · rename_i e
    rcases h with h | h
    · simp only [SMap.wf, Bool.and_eq_true] at h
      rw [SMap.get_erase_same d h.1, e]
    · exact absurd e h
  · exact SMap.get_insert_same d k v m

/-- A write leaves every other key alone. -/
theorem SMap.get_set_other {d : α} {m : SMap α} {k j : Nat} (v : α) (h : j ≠ k) : (m.set d k v).get d j = m.get d j := by
  unfold SMap.set
  split
  · exact SMap.get_erase_other d h m
  · exact SMap.get_insert_other d v h m

theorem SMap.get_upd_other {d : α} {m : SMap α} {k j : Nat} (f : α → α) (h : j ≠ k) : (m.upd d k f).get d j = m.get d j :=
  SMap.get_set_other _ h

omit [DecidableEq α] in
/-- An entry of a table into which one was written is that one, or was there. -/
theorem SMap.mem_insert {m : SMap α} {k : Nat} {v : α} {e : Nat × α} (h : e ∈ SMap.insert m k v) : e ∈ m ∨ e = (k, v) := by
  induction m with
  | nil => exact .inr (List.mem_singleton.mp h)
  | cons a l ih =>
    unfold SMap.insert at h
    split at h
    · rcases List.mem_cons.mp h with h | h
      · exact .inr h
      · exact .inl h
    · split at h
      · rcases List.mem_cons.mp h with h | h
        · exact .inr h
        · exact .inl (List.mem_cons_of_mem _ h)
      · rcases List.mem_cons.mp h with h | h
        · exact .inl (h ▸ List.mem_cons_self ..)
        · rcases ih h with h | h
          · exact .inl (List.mem_cons_of_mem _ h)
          · exact .inr h

omit [DecidableEq α] in
/-- An entry of a table from which one was dropped was there. -/
theorem SMap.mem_erase {m : SMap α} {k : Nat} {e : Nat × α} (h : e ∈ SMap.erase m k) : e ∈ m := by
  induction m with
  | nil => exact h
  | cons a l ih =>
    unfold SMap.erase at h
    split at h
    · exact List.mem_cons_of_mem _ h
    · rcases List.mem_cons.mp h with h | h
      · exact h ▸ List.mem_cons_self ..
      · exact List.mem_cons_of_mem _ (ih h)

omit [DecidableEq α] in
/-- A table into which one was put lists something. -/
theorem SMap.put_ne_nil (m : SMap α) (k : Nat) (v : α) : m.put k v ≠ [] := by
  intro h
  have := SMap.find_insert_same k v m
  rw [show SMap.insert m k v = [] from h] at this
  cases this

end Sys2Proof
end

