-- ==== Sys2Proof/Laws/Follows.lean ====
section
/-!
SUPPORT. What follows from a state by the engine's operations: the part and the queue stay, time and the least vendor key do not go back, legal settings
stay legal. Here the relation itself, and the operations that change what it speaks of; the rest keep all of it.
-/
namespace Sys2Proof.Machine

/-! ### What the relation speaks of -/

/-- The power controller's settings. -/
def PowerState.rules (p : PowerState) : List Nat :=
  [p.capW, p.windowS, p.priority, p.opFloor, p.raiseHold, p.westLimit, p.eastLimit, p.tThrottle, p.droopLimit, p.skewNs]

/-- The dictionary's settings, and how many stages, snapshots and sessions stand. -/
def OdpState.rules (o : OdpState) : List Nat :=
  [o.attemptUs, o.resends, o.completionUs, o.marks, o.stages.length, o.snapshots.length, o.sessions.length]

/-- Relend's identity, pace group and routes. -/
def RelendState.rules (r : RelendState) : Nat × List Nat × SMap (BitVec 32) := (r.engineId, r.paceGroup, r.routes)

/-- The defect limits. -/
def DefectState.rules (d : DefectState) : List Nat := [d.stepLimit, d.sessionLimit, d.headerLimit, d.uncorrLimit, d.corrLimit, d.portLimit]

/-- The spread settings of a half. -/
def HalfClock.rules (h : HalfClock) : Nat × Nat := (h.depth, h.rate)

/-- The spread settings. -/
def ClockState.rules (c : ClockState) : (Nat × Nat) × (Nat × Nat) := (c.west.rules, c.east.rules)

/-- Keys, the owner, the vendor key counter. -/
def FlashState.rules (f : FlashState) : SMap (List Byte) × Bool × Nat := (f.keys, f.ownerRequired, f.vendorKeyMin)

theorem State.Follows.refl (s : State) : s.Follows s := ⟨rfl, rfl, Nat.le_refl _, Nat.le_refl _, id⟩

theorem State.Follows.trans {s t u : State} (h : s.Follows t) (k : t.Follows u) : s.Follows u :=
  ⟨k.part.trans h.part, k.pending.trans h.pending, h.clock.trans k.clock, h.vendor.trans k.vendor, fun l => k.legal (h.legal l)⟩

/-- A state that differs in nothing the relation speaks of. -/
theorem State.Follows.same {z s t : State} (h : z.Follows s) (hp : t.part = s.part) (hq : t.pending = s.pending) (hc : t.clock = s.clock)
    (hw : t.pwr.rules = s.pwr.rules) (ho : t.odp.rules = s.odp.rules) (hr : t.relend.rules = s.relend.rules) (hd : t.defects.rules = s.defects.rules)
    (hk : t.clk.rules = s.clk.rules) (hf : t.flash.rules = s.flash.rules) : z.Follows t := by
  simp only [PowerState.rules, OdpState.rules, RelendState.rules, DefectState.rules, ClockState.rules, HalfClock.rules, FlashState.rules, List.cons.injEq,
    Prod.mk.injEq, and_true] at hw ho hr hd hk hf
  obtain ⟨w1, w2, w3, w4, w5, w6, w7, w8, w9, w10⟩ := hw
  obtain ⟨o1, o2, o3, o4, o5, o6, o7⟩ := ho
  obtain ⟨r1, r2, r3⟩ := hr
  obtain ⟨d1, d2, d3, d4, d5, d6⟩ := hd
  obtain ⟨⟨k1, k2⟩, k3, k4⟩ := hk
  obtain ⟨f1, f2, f3⟩ := hf
  refine ⟨hp.trans h.part, hq.trans h.pending, hc ▸ h.clock, f3 ▸ h.vendor, fun l => ?_⟩
  have g := h.legal l
  constructor
  · rw [w1, w2, w3, w4, w5, hp]; exact g.cap
  · rw [w6, w7, w8, w9, w10]; exact g.limits
  · have e : t.odp.layered [] = s.odp.layered [] := by
      unfold OdpState.layered OdpState.worst; rw [o1, o2, o3]
    rw [e, o1, o2, o3]; exact g.timers
  · rw [o4]; exact g.marks
  · rw [o5, o6, o7]; exact g.room
  · rw [r1, r2, r3]; exact g.relend
  · rw [d1, d2, d3, d4, d5, d6]; exact g.defects
  · rw [k1, k2, k3, k4]; exact g.spread
  · rw [f1, f2, f3]; exact g.keys

/-- The same of a state written out field by field. -/
theorem State.Follows.upd {z s : State} {p q c fi ce ro rc dm ep fp ov fa pa ft lr fw re hc co mu ri lo rl hu de bo ck pw me bd od rd et fl}
    (hp : p = s.part) (hq : q = s.pending) (hc' : c = s.clock) (hw : pw.rules = s.pwr.rules) (ho : od.rules = s.odp.rules)
    (hr : rl.rules = s.relend.rules) (hd : de.rules = s.defects.rules) (hk : ck.rules = s.clk.rules) (hf : fl.rules = s.flash.rules)
    (h : z.Follows s) :
    z.Follows { pending := q, clock := c, freeIdx := fi, part := p, cells := ce, routers := ro, receivers := rc, dma := dm, epoch := ep, flipPending := fp,
                oldValid := ov, flipAt := fa, pendingAt := pa, flipTriggers := ft, lostRoutes := lr, flipWaiting := fw, regions := re, hcp := hc,
                completions := co, musters := mu, rings := ri, loft := lo, relend := rl, hubs := hu, defects := de, boot := bo, clk := ck, pwr := pw,
                meter := me, board := bd, odp := od, recd := rd, eth := et, flash := fl } :=
  h.same hp hq hc' hw ho hr hd hk hf

/-- A fold whose every step follows. -/
theorem State.Follows.fold {α : Type} {z : State} {f : State → α → State} {l : List α} {s : State} (h : z.Follows s)
    (hf : ∀ t x, z.Follows t → z.Follows (f t x)) : z.Follows (l.foldl f s) := by
  induction l generalizing s with
  | nil => exact h
  | cons a l ih => exact ih (hf s a h)

/-- A fold that carries something beside the state. -/
theorem State.Follows.fold2 {α β : Type} {z : State} {f : β × State → α → β × State} {l : List α} {s : β × State} (h : z.Follows s.2)
    (hf : ∀ t x, z.Follows t.2 → z.Follows (f t x).2) : z.Follows (l.foldl f s).2 := by
  induction l generalizing s with
  | nil => exact h
  | cons a l ih => exact ih (hf s a h)

/-- The same of a fold whose result is named. -/
theorem State.Follows.fold2_eq {α β : Type} {z u : State} {f : β × State → α → β × State} {l : List α} {s : β × State} {x : β}
    (e : l.foldl f s = (x, u)) (h : z.Follows s.2) (hf : ∀ t x, z.Follows t.2 → z.Follows (f t x).2) : z.Follows u := by
  have k := State.Follows.fold2 (l := l) h hf
  rw [e] at k
  exact k

/-- A record in the log changes neither keys nor counters. -/
theorem FlashState.append_rules (f : FlashState) (r : Record) : (f.append r).rules = f.rules := by
  unfold FlashState.append
  repeat' split
  all_goals rfl

/-- Nor do many. -/
theorem FlashState.appendAll_rules (l : List Record) (f : FlashState) : (l.foldl FlashState.append f).rules = f.rules := by
  induction l generalizing f with
  | nil => rfl
  | cons a l ih => exact (ih _).trans (FlashState.append_rules f a)

/-- A change of the dictionary's server that keeps its settings and does not pass the room for stages, snapshots and sessions. -/
theorem State.Follows.served {z s : State} {o : OdpState} (h : z.Follows s) (ha : o.attemptUs = s.odp.attemptUs) (hr : o.resends = s.odp.resends)
    (hc : o.completionUs = s.odp.completionUs) (hm : o.marks = s.odp.marks) (h1 : s.odp.stages.length ≤ 16 → o.stages.length ≤ 16)
    (h2 : s.odp.snapshots.length ≤ 16 → o.snapshots.length ≤ 16) (h3 : s.odp.sessions.length ≤ 4 → o.sessions.length ≤ 4) :
    z.Follows { s with odp := o } := by
  refine h.trans ⟨rfl, rfl, Nat.le_refl _, Nat.le_refl _, fun l => ⟨l.cap, l.limits, ?_, ?_, ?_, l.relend, l.defects, l.spread, l.keys⟩⟩
  · have e : o.layered [] = s.odp.layered [] := by
      unfold OdpState.layered OdpState.worst; rw [ha, hr, hc]
    exact ⟨hr ▸ l.timers.1, ha ▸ l.timers.2.1, hc ▸ l.timers.2.2.1, e ▸ l.timers.2.2.2⟩
  · simp only [hm]; exact l.marks
  · exact ⟨h1 l.room.1, h2 l.room.2.1, h3 l.room.2.2⟩

/-! ### Changes of a setting that stays legal -/

theorem State.Follows.power {z s : State} {w : PowerState} (h : z.Follows s)
    (k : s.Legal → ({ s with pwr := w } : State).Legal) : z.Follows { s with pwr := w } :=
  h.trans ⟨rfl, rfl, Nat.le_refl _, Nat.le_refl _, k⟩

theorem State.Follows.dictionary {z s : State} {o : OdpState} (h : z.Follows s)
    (k : s.Legal → ({ s with odp := o } : State).Legal) : z.Follows { s with odp := o } :=
  h.trans ⟨rfl, rfl, Nat.le_refl _, Nat.le_refl _, k⟩

theorem State.Follows.links {z s : State} {r : RelendState} (h : z.Follows s)
    (k : s.Legal → ({ s with relend := r } : State).Legal) : z.Follows { s with relend := r } :=
  h.trans ⟨rfl, rfl, Nat.le_refl _, Nat.le_refl _, k⟩

theorem State.Follows.faults {z s : State} {d : DefectState} (h : z.Follows s)
    (k : s.Legal → ({ s with defects := d } : State).Legal) : z.Follows { s with defects := d } :=
  h.trans ⟨rfl, rfl, Nat.le_refl _, Nat.le_refl _, k⟩

theorem State.Follows.kept {z s : State} {f : FlashState} (h : z.Follows s) (v : s.flash.vendorKeyMin ≤ f.vendorKeyMin)
    (k : s.Legal → ({ s with flash := f } : State).Legal) : z.Follows { s with flash := f } :=
  h.trans ⟨rfl, rfl, Nat.le_refl _, v, k⟩

theorem DefectState.takeHubSpare_rules {d e : DefectState} {east : Bool} (h : d.takeHubSpare east = some e) : e.rules = d.rules := by
  unfold DefectState.takeHubSpare at h
  (repeat' split at h) <;> first
    | (cases h; done)
    | (cases h; rfl)

theorem DefectState.takeNodeSpare_rules {d e : DefectState} {n k : Nat} (h : d.takeNodeSpare n = some (k, e)) : e.rules = d.rules := by
  unfold DefectState.takeNodeSpare at h
  (repeat' split at h) <;> first
    | (cases h; done)
    | (cases h; rfl)

theorem DefectState.countFabric_rules (d : DefectState) (e : Nat) : (d.countFabric e).rules = d.rules := by
  unfold DefectState.countFabric
  dsimp only
  split <;> rfl

/-! ### What comes of a value -/

/-- Whatever comes of a value, the state follows. -/
def Applied.Follows (z : State) : Applied → Prop
  | .done s _ => z.Follows s
  | .refused s _ _ => z.Follows s
  | .later s => z.Follows s

theorem Applied.done_follows {z s : State} {n : Nat} (h : z.Follows s) : (Applied.done s n).Follows z := h

theorem Applied.refused_follows {z s : State} {c : Code} {n : Nat} (h : z.Follows s) : (Applied.refused s c n).Follows z := h

theorem Applied.later_follows {z s : State} (h : z.Follows s) : (Applied.later s).Follows z := h

theorem inForce_follows {z s : State} (h : z.Follows s) : (inForce s).Follows z := h

theorem State.deny_follows {z s : State} {why : Nat} (h : z.Follows s) : (s.deny why).Follows z := h

theorem State.ranged_follows {z s t : State} {ok : Bool} (h : z.Follows s) (k : ok = true → z.Follows t) : (s.ranged ok t).Follows z := by
  unfold State.ranged
  split
  · exact k (by assumption)
  · exact h

/-! ### Numbers read from bytes -/

theorem leNat_lt (l : List Byte) : leNat l < 256 ^ l.length := by
  induction l with
  | nil => exact Nat.one_pos
  | cons a l ih =>
    have := a.isLt
    simp only [leNat, List.length_cons, Nat.pow_succ]
    omega

/-- Four bytes make a number below 2^32. -/
theorem numAt_lt (b : List Byte) (o : Nat) : numAt b o 4 < 2 ^ 32 := by
  refine Nat.lt_of_lt_of_le (leNat_lt _) ?_
  have : (sliceOf b o 4).length ≤ 4 := List.length_take_le _ _
  exact (Nat.pow_le_pow_right (by decide) this).trans (by decide)

end Sys2Proof.Machine
end

