-- ==== Sys2Proof/Laws/Sequencer.lean ====
section
/-!
SUPPORT. What a cycle of a cell does, said once: reads leave the tables and positions alone, and an iteration that issues takes its cycle.
-/
namespace Sys2Proof.Machine

/-- A change of a cell's event that leaves the configuration registers, the folds' positions, DONE, and the place alone. -/
structure Work.Still (w t : Work) : Prop where
  regs  : t.cell.regs = w.cell.regs
  folds : t.cell.seq.folds = w.cell.seq.folds
  done  : t.cell.seq.done = w.cell.seq.done
  cur   : t.cell.seq.cur = w.cell.seq.cur
  run   : t.cell.seq.run = w.cell.seq.run
  here  : t.here = w.here
  now   : t.now = w.now
  accs  : t.cell.accs = w.cell.accs
  mesh  : t.cell.mesh = w.cell.mesh

theorem Work.Still.refl (w : Work) : w.Still w := ⟨rfl, rfl, rfl, rfl, rfl, rfl, rfl, rfl, rfl⟩

theorem Work.Still.trans {a b c : Work} (h : a.Still b) (k : b.Still c) : a.Still c :=
  ⟨k.regs.trans h.regs, k.folds.trans h.folds, k.done.trans h.done, k.cur.trans h.cur, k.run.trans h.run, k.here.trans h.here,
    k.now.trans h.now, k.accs.trans h.accs, k.mesh.trans h.mesh⟩

theorem Work.raise_still (w : Work) (code : Code) (f e i d : Nat) : w.Still (w.raise code f e i d) := by
  constructor <;> simp only [Work.raise] <;> split <;> rfl

theorem Work.takeSlot_still (w : Work) (b : Nat) (wr : Bool) : w.Still (w.takeSlot b wr) := by
  constructor <;> (unfold Work.takeSlot; split <;> rfl)

theorem Work.freeBytes_still (w : Work) (n : Nat) : w.Still (w.freeBytes n).2 := ⟨rfl, rfl, rfl, rfl, rfl, rfl, rfl, rfl, rfl⟩

theorem Work.map_mode_still (w : Work) (m : CellMode) : w.Still (w.map fun c => { c with mode := m }) :=
  ⟨rfl, rfl, rfl, rfl, rfl, rfl, rfl, rfl, rfl⟩

theorem Work.map_fault_still (w : Work) (f : FaultState → FaultState) : w.Still (w.map fun c => { c with fault := f c.fault }) :=
  ⟨rfl, rfl, rfl, rfl, rfl, rfl, rfl, rfl, rfl⟩

theorem Work.paritySpad_still (w : Work) (l f e i : Nat) : w.Still (w.paritySpad l f e i) := by
  have h := (w.raise_still Codes.paritySpad f e i l).trans
    ((w.raise Codes.paritySpad f e i l).map_fault_still fun x => { x with parityLine := some (l, false) })
  unfold Work.paritySpad
  dsimp only
  split
  · exact (h.trans (Work.raise_still ..)).trans (Work.map_mode_still ..)
  · exact h

theorem Work.read_still (w : Work) (a n f e i : Nat) : w.Still (w.read a n f e i).2 := by
  have check : ∀ v : Work, w.Still v →
      w.Still (if (w.cell.stored a n).parityError then v.paritySpad (a / 64) f e i else v) := by
    intro v h; split
    · exact h.trans (Work.paritySpad_still ..)
    · exact h
  unfold Work.read
  dsimp only
  split
  · exact check _ (Work.raise_still ..)
  · exact check _ (Work.Still.refl w)
  · exact check _ (Work.Still.refl w)

/-- Asking for reads changes none of these. -/
theorem Work.grantReads_still (f e i n : Nat) : ∀ (asks : List ReadAsk) (w : Work) (lines : List Nat) (got : List (ReadRole × Payload))
    (left : List ReadAsk), w.Still (w.grantReads f e i n asks lines got left).2.2
  | [], w, _, _, _ => by simpa [Work.grantReads] using Work.Still.refl w
  | r :: rest, w, lines, got, left => by
    unfold Work.grantReads
    dsimp only
    (repeat' split) <;> first
      | exact ((w.raise_still ..).trans (Work.freeBytes_still ..)).trans (Work.grantReads_still f e i n rest _ _ _ _)
      | exact ((w.takeSlot_still ..).trans (Work.read_still ..)).trans (Work.grantReads_still f e i n rest _ _ _ _)
      | exact Work.grantReads_still f e i n rest _ _ _ _

/-- An iteration that issues: what the sequencer does in the cycle. -/
theorem Issues.sequence {s : State} {c : Coord} {i : Iteration} (h : Issues s c i) :
    (s.committed c).sequence =
      ((i.start.execute i.fold i.pos.entry i.pos.iter i.entry i.ok i.got |> fun r => i.issued r.1 r.2), .issued i.entry.cls i.entry.op) := by
  have still := Work.grantReads_still i.fold i.pos.entry i.pos.iter (s.readied c).cell.seq.cycle
    (i.entry.reads (s.readied c).here.kind (s.readied c).cell.pointer) (s.readied c) [] [] []
  rw [h.granted] at still
  have hr : (s.committed c).cell.regs.folds.foldl Work.inspectFold (s.committed c) = s.readied c := rfl
  have hp : i.work.cell.seq.folds.get .zero i.fold = i.pos := by rw [still.folds, h.atPos]
  have he : i.work.cell.regs.entry i.fold i.pos.entry = i.entry := by rw [still.regs, h.atEntry]
  have turn : ((s.readied c).canFire (s.readied c).cell.seq.cur &&
      (decide ((s.readied c).cell.seq.run < (s.readied c).cell.regs.quantum) || (s.readied c).nextFold.isNone)) = true := by
    rw [← h.current, h.fires]; rcases h.turn with q | q <;> simp [q]
  unfold Work.sequence
  simp only [h.going, Bool.false_eq_true, if_false]
  unfold Work.schedule
  simp only [h.alone, hr, turn, if_true]
  unfold Work.ask
  simp only [← h.current, ← h.atPos, ← h.atEntry, h.moves, if_false, h.granted, List.isEmpty_nil, if_true, Cell.currentOp]
  simp only [Work.issue, Work.mapSeq, hp, he, h.moves, if_false]
  rfl

/-- An iteration that issues: the whole cycle of its cell. -/
theorem Issues.cycle {s : State} {c : Coord} {i : Iteration} (h : Issues s c i) :
    ((s.grants c).work c).seqCycle =
      ((i.start.execute i.fold i.pos.entry i.pos.iter i.entry i.ok i.got |> fun r => (i.issued r.1 r.2).endCycle),
        .issued i.entry.cls i.entry.op) := by
  have hq := h.sequence
  unfold Work.seqCycle
  unfold State.committed at hq
  rw [hq]

/-- The cycle of an iteration that issues, as the row of its operation sees it. -/
theorem Issues.issueCycle {s : State} {c : Coord} {i : Iteration} (h : Issues s c i) {cls op : Nat} (hc : i.entry.cls = cls) (ho : i.entry.op = op) :
    atCell c (s.issueCycle c cls op) =
      i.next s (i.start.execute i.fold i.pos.entry i.pos.iter i.entry i.ok i.got).1
        (i.start.execute i.fold i.pos.entry i.pos.iter i.entry i.ok i.got).2 := by
  have hrun : s.cycles c = true := by simp [State.cycles, h.running]
  simp only [atCell, answerIf, h.present, if_true, State.issueCycle, hrun, h.cycle, hc, ho, Iteration.next, h.place]

end Sys2Proof.Machine
end

