-- ==== Sys2Proof/Laws/State.lean ====
section
/-!
SUPPORT. What the operations that every command shares leave of the state, field by field: a record of the management complex, a record of a hub, the passing
of time, a stage's report word.
-/
namespace Sys2Proof.Machine

/-! ### A record of the module log (R458, R465) -/

@[simp] theorem FlashState.append_powerCycle (f : FlashState) (r : Record) : (f.append r).powerCycle = f.powerCycle := by
  unfold FlashState.append; split <;> rfl
@[simp] theorem FlashState.append_opSeconds (f : FlashState) (r : Record) : (f.append r).opSeconds = f.opSeconds := by
  unfold FlashState.append; split <;> rfl
@[simp] theorem FlashState.append_savedAtEnd (f : FlashState) (r : Record) : (f.append r).savedAtEnd = f.savedAtEnd := by
  unfold FlashState.append; split <;> rfl
@[simp] theorem FlashState.append_logCrcFail (f : FlashState) (r : Record) : (f.append r).logCrcFail = f.logCrcFail := by
  unfold FlashState.append; split <;> rfl
@[simp] theorem FlashState.append_keys (f : FlashState) (r : Record) : (f.append r).keys = f.keys := by
  unfold FlashState.append; split <;> rfl
@[simp] theorem FlashState.append_ownerRequired (f : FlashState) (r : Record) : (f.append r).ownerRequired = f.ownerRequired := by
  unfold FlashState.append; split <;> rfl
@[simp] theorem FlashState.append_vendorKeyMin (f : FlashState) (r : Record) : (f.append r).vendorKeyMin = f.vendorKeyMin := by
  unfold FlashState.append; split <;> rfl
@[simp] theorem FlashState.append_meterSerial (f : FlashState) (r : Record) : (f.append r).meterSerial = f.meterSerial := by
  unfold FlashState.append; split <;> rfl
@[simp] theorem FlashState.append_failedStarts (f : FlashState) (r : Record) : (f.append r).failedStarts = f.failedStarts := by
  unfold FlashState.append; split <;> rfl
@[simp] theorem FlashState.append_failure (f : FlashState) (r : Record) : (f.append r).failure = f.failure := by
  unfold FlashState.append; split <;> rfl
@[simp] theorem FlashState.append_reports (f : FlashState) (r : Record) : (f.append r).reports = f.reports := by
  unfold FlashState.append; split <;> rfl
@[simp] theorem FlashState.append_image (f : FlashState) (r : Record) : (f.append r).image = f.image := by
  unfold FlashState.append; split <;> rfl

/-! ### A record of the management complex (R458, R466) -/

@[simp] theorem State.note_pending (s : State) (ty : Nat) (c : Code) (r l : Nat) (d : List Byte) : (s.note ty c r l d).pending = s.pending := by
  unfold State.note; dsimp only; split <;> (try split) <;> rfl
@[simp] theorem State.note_clock (s : State) (ty : Nat) (c : Code) (r l : Nat) (d : List Byte) : (s.note ty c r l d).clock = s.clock := by
  unfold State.note; dsimp only; split <;> (try split) <;> rfl
@[simp] theorem State.note_freeIdx (s : State) (ty : Nat) (c : Code) (r l : Nat) (d : List Byte) : (s.note ty c r l d).freeIdx = s.freeIdx := by
  unfold State.note; dsimp only; split <;> (try split) <;> rfl
@[simp] theorem State.note_part (s : State) (ty : Nat) (c : Code) (r l : Nat) (d : List Byte) : (s.note ty c r l d).part = s.part := by
  unfold State.note; dsimp only; split <;> (try split) <;> rfl
@[simp] theorem State.note_cells (s : State) (ty : Nat) (c : Code) (r l : Nat) (d : List Byte) : (s.note ty c r l d).cells = s.cells := by
  unfold State.note; dsimp only; split <;> (try split) <;> rfl
@[simp] theorem State.note_routers (s : State) (ty : Nat) (c : Code) (r l : Nat) (d : List Byte) : (s.note ty c r l d).routers = s.routers := by
  unfold State.note; dsimp only; split <;> (try split) <;> rfl
@[simp] theorem State.note_receivers (s : State) (ty : Nat) (c : Code) (r l : Nat) (d : List Byte) : (s.note ty c r l d).receivers = s.receivers := by
  unfold State.note; dsimp only; split <;> (try split) <;> rfl
@[simp] theorem State.note_dma (s : State) (ty : Nat) (c : Code) (r l : Nat) (d : List Byte) : (s.note ty c r l d).dma = s.dma := by
  unfold State.note; dsimp only; split <;> (try split) <;> rfl
@[simp] theorem State.note_epoch (s : State) (ty : Nat) (c : Code) (r l : Nat) (d : List Byte) : (s.note ty c r l d).epoch = s.epoch := by
  unfold State.note; dsimp only; split <;> (try split) <;> rfl
@[simp] theorem State.note_flipPending (s : State) (ty : Nat) (c : Code) (r l : Nat) (d : List Byte) : (s.note ty c r l d).flipPending = s.flipPending := by
  unfold State.note; dsimp only; split <;> (try split) <;> rfl
@[simp] theorem State.note_oldValid (s : State) (ty : Nat) (c : Code) (r l : Nat) (d : List Byte) : (s.note ty c r l d).oldValid = s.oldValid := by
  unfold State.note; dsimp only; split <;> (try split) <;> rfl
@[simp] theorem State.note_flipAt (s : State) (ty : Nat) (c : Code) (r l : Nat) (d : List Byte) : (s.note ty c r l d).flipAt = s.flipAt := by
  unfold State.note; dsimp only; split <;> (try split) <;> rfl
@[simp] theorem State.note_pendingAt (s : State) (ty : Nat) (c : Code) (r l : Nat) (d : List Byte) : (s.note ty c r l d).pendingAt = s.pendingAt := by
  unfold State.note; dsimp only; split <;> (try split) <;> rfl
@[simp] theorem State.note_flipTriggers (s : State) (ty : Nat) (c : Code) (r l : Nat) (d : List Byte) : (s.note ty c r l d).flipTriggers = s.flipTriggers := by
  unfold State.note; dsimp only; split <;> (try split) <;> rfl
@[simp] theorem State.note_lostRoutes (s : State) (ty : Nat) (c : Code) (r l : Nat) (d : List Byte) : (s.note ty c r l d).lostRoutes = s.lostRoutes := by
  unfold State.note; dsimp only; split <;> (try split) <;> rfl
@[simp] theorem State.note_flipWaiting (s : State) (ty : Nat) (c : Code) (r l : Nat) (d : List Byte) : (s.note ty c r l d).flipWaiting = s.flipWaiting := by
  unfold State.note; dsimp only; split <;> (try split) <;> rfl
@[simp] theorem State.note_regions (s : State) (ty : Nat) (c : Code) (r l : Nat) (d : List Byte) : (s.note ty c r l d).regions = s.regions := by
  unfold State.note; dsimp only; split <;> (try split) <;> rfl
@[simp] theorem State.note_hcp (s : State) (ty : Nat) (c : Code) (r l : Nat) (d : List Byte) : (s.note ty c r l d).hcp = s.hcp := by
  unfold State.note; dsimp only; split <;> (try split) <;> rfl
@[simp] theorem State.note_completions (s : State) (ty : Nat) (c : Code) (r l : Nat) (d : List Byte) : (s.note ty c r l d).completions = s.completions := by
  unfold State.note; dsimp only; split <;> (try split) <;> rfl
@[simp] theorem State.note_musters (s : State) (ty : Nat) (c : Code) (r l : Nat) (d : List Byte) : (s.note ty c r l d).musters = s.musters := by
  unfold State.note; dsimp only; split <;> (try split) <;> rfl
@[simp] theorem State.note_rings (s : State) (ty : Nat) (c : Code) (r l : Nat) (d : List Byte) : (s.note ty c r l d).rings = s.rings := by
  unfold State.note; dsimp only; split <;> (try split) <;> rfl
@[simp] theorem State.note_loft (s : State) (ty : Nat) (c : Code) (r l : Nat) (d : List Byte) : (s.note ty c r l d).loft = s.loft := by
  unfold State.note; dsimp only; split <;> (try split) <;> rfl
@[simp] theorem State.note_relend (s : State) (ty : Nat) (c : Code) (r l : Nat) (d : List Byte) : (s.note ty c r l d).relend = s.relend := by
  unfold State.note; dsimp only; split <;> (try split) <;> rfl
@[simp] theorem State.note_hubs (s : State) (ty : Nat) (c : Code) (r l : Nat) (d : List Byte) : (s.note ty c r l d).hubs = s.hubs := by
  unfold State.note; dsimp only; split <;> (try split) <;> rfl
@[simp] theorem State.note_defects (s : State) (ty : Nat) (c : Code) (r l : Nat) (d : List Byte) : (s.note ty c r l d).defects = s.defects := by
  unfold State.note; dsimp only; split <;> (try split) <;> rfl
@[simp] theorem State.note_boot (s : State) (ty : Nat) (c : Code) (r l : Nat) (d : List Byte) : (s.note ty c r l d).boot = s.boot := by
  unfold State.note; dsimp only; split <;> (try split) <;> rfl
@[simp] theorem State.note_clk (s : State) (ty : Nat) (c : Code) (r l : Nat) (d : List Byte) : (s.note ty c r l d).clk = s.clk := by
  unfold State.note; dsimp only; split <;> (try split) <;> rfl
@[simp] theorem State.note_pwr (s : State) (ty : Nat) (c : Code) (r l : Nat) (d : List Byte) : (s.note ty c r l d).pwr = s.pwr := by
  unfold State.note; dsimp only; split <;> (try split) <;> rfl
@[simp] theorem State.note_meter (s : State) (ty : Nat) (c : Code) (r l : Nat) (d : List Byte) : (s.note ty c r l d).meter = s.meter := by
  unfold State.note; dsimp only; split <;> (try split) <;> rfl
@[simp] theorem State.note_board (s : State) (ty : Nat) (c : Code) (r l : Nat) (d : List Byte) : (s.note ty c r l d).board = s.board := by
  unfold State.note; dsimp only; split <;> (try split) <;> rfl
@[simp] theorem State.note_odp (s : State) (ty : Nat) (c : Code) (r l : Nat) (d : List Byte) : (s.note ty c r l d).odp = s.odp := by
  unfold State.note; dsimp only; split <;> (try split) <;> rfl
@[simp] theorem State.note_eth (s : State) (ty : Nat) (c : Code) (r l : Nat) (d : List Byte) : (s.note ty c r l d).eth = s.eth := by
  unfold State.note; dsimp only; split <;> (try split) <;> rfl
@[simp] theorem State.note_flash_powerCycle (s : State) (ty : Nat) (c : Code) (r l : Nat) (d : List Byte) :
    (s.note ty c r l d).flash.powerCycle = s.flash.powerCycle := by
  unfold State.note; dsimp only; split <;> (try split) <;> first | rfl | exact FlashState.append_powerCycle _ _
@[simp] theorem State.note_flash_opSeconds (s : State) (ty : Nat) (c : Code) (r l : Nat) (d : List Byte) :
    (s.note ty c r l d).flash.opSeconds = s.flash.opSeconds := by
  unfold State.note; dsimp only; split <;> (try split) <;> first | rfl | exact FlashState.append_opSeconds _ _
@[simp] theorem State.note_flash_savedAtEnd (s : State) (ty : Nat) (c : Code) (r l : Nat) (d : List Byte) :
    (s.note ty c r l d).flash.savedAtEnd = s.flash.savedAtEnd := by
  unfold State.note; dsimp only; split <;> (try split) <;> first | rfl | exact FlashState.append_savedAtEnd _ _
@[simp] theorem State.note_flash_logCrcFail (s : State) (ty : Nat) (c : Code) (r l : Nat) (d : List Byte) :
    (s.note ty c r l d).flash.logCrcFail = s.flash.logCrcFail := by
  unfold State.note; dsimp only; split <;> (try split) <;> first | rfl | exact FlashState.append_logCrcFail _ _
@[simp] theorem State.note_flash_keys (s : State) (ty : Nat) (c : Code) (r l : Nat) (d : List Byte) :
    (s.note ty c r l d).flash.keys = s.flash.keys := by
  unfold State.note; dsimp only; split <;> (try split) <;> first | rfl | exact FlashState.append_keys _ _
@[simp] theorem State.note_flash_ownerRequired (s : State) (ty : Nat) (c : Code) (r l : Nat) (d : List Byte) :
    (s.note ty c r l d).flash.ownerRequired = s.flash.ownerRequired := by
  unfold State.note; dsimp only; split <;> (try split) <;> first | rfl | exact FlashState.append_ownerRequired _ _
@[simp] theorem State.note_flash_vendorKeyMin (s : State) (ty : Nat) (c : Code) (r l : Nat) (d : List Byte) :
    (s.note ty c r l d).flash.vendorKeyMin = s.flash.vendorKeyMin := by
  unfold State.note; dsimp only; split <;> (try split) <;> first | rfl | exact FlashState.append_vendorKeyMin _ _
@[simp] theorem State.note_flash_meterSerial (s : State) (ty : Nat) (c : Code) (r l : Nat) (d : List Byte) :
    (s.note ty c r l d).flash.meterSerial = s.flash.meterSerial := by
  unfold State.note; dsimp only; split <;> (try split) <;> first | rfl | exact FlashState.append_meterSerial _ _
@[simp] theorem State.note_flash_failedStarts (s : State) (ty : Nat) (c : Code) (r l : Nat) (d : List Byte) :
    (s.note ty c r l d).flash.failedStarts = s.flash.failedStarts := by
  unfold State.note; dsimp only; split <;> (try split) <;> first | rfl | exact FlashState.append_failedStarts _ _
@[simp] theorem State.note_flash_failure (s : State) (ty : Nat) (c : Code) (r l : Nat) (d : List Byte) :
    (s.note ty c r l d).flash.failure = s.flash.failure := by
  unfold State.note; dsimp only; split <;> (try split) <;> first | rfl | exact FlashState.append_failure _ _
@[simp] theorem State.note_flash_reports (s : State) (ty : Nat) (c : Code) (r l : Nat) (d : List Byte) :
    (s.note ty c r l d).flash.reports = s.flash.reports := by
  unfold State.note; dsimp only; split <;> (try split) <;> first | rfl | exact FlashState.append_reports _ _
@[simp] theorem State.note_flash_image (s : State) (ty : Nat) (c : Code) (r l : Nat) (d : List Byte) :
    (s.note ty c r l d).flash.image = s.flash.image := by
  unfold State.note; dsimp only; split <;> (try split) <;> first | rfl | exact FlashState.append_image _ _

/-! ### A record of a hub (R458, R462, R466) -/

@[simp] theorem State.hubNote_pending (s : State) (h ty : Nat) (c : Code) (r l : Nat) (d : List Byte) : (s.hubNote h ty c r l d).pending = s.pending := by
  unfold State.hubNote; dsimp only; split <;> (try split) <;> first | rfl | (split <;> rfl)
@[simp] theorem State.hubNote_clock (s : State) (h ty : Nat) (c : Code) (r l : Nat) (d : List Byte) : (s.hubNote h ty c r l d).clock = s.clock := by
  unfold State.hubNote; dsimp only; split <;> (try split) <;> first | rfl | (split <;> rfl)
@[simp] theorem State.hubNote_freeIdx (s : State) (h ty : Nat) (c : Code) (r l : Nat) (d : List Byte) : (s.hubNote h ty c r l d).freeIdx = s.freeIdx := by
  unfold State.hubNote; dsimp only; split <;> (try split) <;> first | rfl | (split <;> rfl)
@[simp] theorem State.hubNote_part (s : State) (h ty : Nat) (c : Code) (r l : Nat) (d : List Byte) : (s.hubNote h ty c r l d).part = s.part := by
  unfold State.hubNote; dsimp only; split <;> (try split) <;> first | rfl | (split <;> rfl)
@[simp] theorem State.hubNote_cells (s : State) (h ty : Nat) (c : Code) (r l : Nat) (d : List Byte) : (s.hubNote h ty c r l d).cells = s.cells := by
  unfold State.hubNote; dsimp only; split <;> (try split) <;> first | rfl | (split <;> rfl)
@[simp] theorem State.hubNote_routers (s : State) (h ty : Nat) (c : Code) (r l : Nat) (d : List Byte) : (s.hubNote h ty c r l d).routers = s.routers := by
  unfold State.hubNote; dsimp only; split <;> (try split) <;> first | rfl | (split <;> rfl)
@[simp] theorem State.hubNote_receivers (s : State) (h ty : Nat) (c : Code) (r l : Nat) (d : List Byte) : (s.hubNote h ty c r l d).receivers = s.receivers := by
  unfold State.hubNote; dsimp only; split <;> (try split) <;> first | rfl | (split <;> rfl)
@[simp] theorem State.hubNote_dma (s : State) (h ty : Nat) (c : Code) (r l : Nat) (d : List Byte) : (s.hubNote h ty c r l d).dma = s.dma := by
  unfold State.hubNote; dsimp only; split <;> (try split) <;> first | rfl | (split <;> rfl)
@[simp] theorem State.hubNote_epoch (s : State) (h ty : Nat) (c : Code) (r l : Nat) (d : List Byte) : (s.hubNote h ty c r l d).epoch = s.epoch := by
  unfold State.hubNote; dsimp only; split <;> (try split) <;> first | rfl | (split <;> rfl)
@[simp] theorem State.hubNote_flipPending (s : State) (h ty : Nat) (c : Code) (r l : Nat) (d : List Byte) : (s.hubNote h ty c r l d).flipPending = s.flipPending := by
  unfold State.hubNote; dsimp only; split <;> (try split) <;> first | rfl | (split <;> rfl)
@[simp] theorem State.hubNote_oldValid (s : State) (h ty : Nat) (c : Code) (r l : Nat) (d : List Byte) : (s.hubNote h ty c r l d).oldValid = s.oldValid := by
  unfold State.hubNote; dsimp only; split <;> (try split) <;> first | rfl | (split <;> rfl)
@[simp] theorem State.hubNote_flipAt (s : State) (h ty : Nat) (c : Code) (r l : Nat) (d : List Byte) : (s.hubNote h ty c r l d).flipAt = s.flipAt := by
  unfold State.hubNote; dsimp only; split <;> (try split) <;> first | rfl | (split <;> rfl)
@[simp] theorem State.hubNote_pendingAt (s : State) (h ty : Nat) (c : Code) (r l : Nat) (d : List Byte) : (s.hubNote h ty c r l d).pendingAt = s.pendingAt := by
  unfold State.hubNote; dsimp only; split <;> (try split) <;> first | rfl | (split <;> rfl)
@[simp] theorem State.hubNote_flipTriggers (s : State) (h ty : Nat) (c : Code) (r l : Nat) (d : List Byte) : (s.hubNote h ty c r l d).flipTriggers = s.flipTriggers := by
  unfold State.hubNote; dsimp only; split <;> (try split) <;> first | rfl | (split <;> rfl)
@[simp] theorem State.hubNote_lostRoutes (s : State) (h ty : Nat) (c : Code) (r l : Nat) (d : List Byte) : (s.hubNote h ty c r l d).lostRoutes = s.lostRoutes := by
  unfold State.hubNote; dsimp only; split <;> (try split) <;> first | rfl | (split <;> rfl)
@[simp] theorem State.hubNote_flipWaiting (s : State) (h ty : Nat) (c : Code) (r l : Nat) (d : List Byte) : (s.hubNote h ty c r l d).flipWaiting = s.flipWaiting := by
  unfold State.hubNote; dsimp only; split <;> (try split) <;> first | rfl | (split <;> rfl)
@[simp] theorem State.hubNote_regions (s : State) (h ty : Nat) (c : Code) (r l : Nat) (d : List Byte) : (s.hubNote h ty c r l d).regions = s.regions := by
  unfold State.hubNote; dsimp only; split <;> (try split) <;> first | rfl | (split <;> rfl)
@[simp] theorem State.hubNote_hcp (s : State) (h ty : Nat) (c : Code) (r l : Nat) (d : List Byte) : (s.hubNote h ty c r l d).hcp = s.hcp := by
  unfold State.hubNote; dsimp only; split <;> (try split) <;> first | rfl | (split <;> rfl)
@[simp] theorem State.hubNote_completions (s : State) (h ty : Nat) (c : Code) (r l : Nat) (d : List Byte) : (s.hubNote h ty c r l d).completions = s.completions := by
  unfold State.hubNote; dsimp only; split <;> (try split) <;> first | rfl | (split <;> rfl)
@[simp] theorem State.hubNote_musters (s : State) (h ty : Nat) (c : Code) (r l : Nat) (d : List Byte) : (s.hubNote h ty c r l d).musters = s.musters := by
  unfold State.hubNote; dsimp only; split <;> (try split) <;> first | rfl | (split <;> rfl)
@[simp] theorem State.hubNote_rings (s : State) (h ty : Nat) (c : Code) (r l : Nat) (d : List Byte) : (s.hubNote h ty c r l d).rings = s.rings := by
  unfold State.hubNote; dsimp only; split <;> (try split) <;> first | rfl | (split <;> rfl)
@[simp] theorem State.hubNote_loft (s : State) (h ty : Nat) (c : Code) (r l : Nat) (d : List Byte) : (s.hubNote h ty c r l d).loft = s.loft := by
  unfold State.hubNote; dsimp only; split <;> (try split) <;> first | rfl | (split <;> rfl)
@[simp] theorem State.hubNote_relend (s : State) (h ty : Nat) (c : Code) (r l : Nat) (d : List Byte) : (s.hubNote h ty c r l d).relend = s.relend := by
  unfold State.hubNote; dsimp only; split <;> (try split) <;> first | rfl | (split <;> rfl)
@[simp] theorem State.hubNote_defects (s : State) (h ty : Nat) (c : Code) (r l : Nat) (d : List Byte) : (s.hubNote h ty c r l d).defects = s.defects := by
  unfold State.hubNote; dsimp only; split <;> (try split) <;> first | rfl | (split <;> rfl)
@[simp] theorem State.hubNote_boot (s : State) (h ty : Nat) (c : Code) (r l : Nat) (d : List Byte) : (s.hubNote h ty c r l d).boot = s.boot := by
  unfold State.hubNote; dsimp only; split <;> (try split) <;> first | rfl | (split <;> rfl)
@[simp] theorem State.hubNote_clk (s : State) (h ty : Nat) (c : Code) (r l : Nat) (d : List Byte) : (s.hubNote h ty c r l d).clk = s.clk := by
  unfold State.hubNote; dsimp only; split <;> (try split) <;> first | rfl | (split <;> rfl)
@[simp] theorem State.hubNote_pwr (s : State) (h ty : Nat) (c : Code) (r l : Nat) (d : List Byte) : (s.hubNote h ty c r l d).pwr = s.pwr := by
  unfold State.hubNote; dsimp only; split <;> (try split) <;> first | rfl | (split <;> rfl)
@[simp] theorem State.hubNote_meter (s : State) (h ty : Nat) (c : Code) (r l : Nat) (d : List Byte) : (s.hubNote h ty c r l d).meter = s.meter := by
  unfold State.hubNote; dsimp only; split <;> (try split) <;> first | rfl | (split <;> rfl)
@[simp] theorem State.hubNote_board (s : State) (h ty : Nat) (c : Code) (r l : Nat) (d : List Byte) : (s.hubNote h ty c r l d).board = s.board := by
  unfold State.hubNote; dsimp only; split <;> (try split) <;> first | rfl | (split <;> rfl)
@[simp] theorem State.hubNote_odp (s : State) (h ty : Nat) (c : Code) (r l : Nat) (d : List Byte) : (s.hubNote h ty c r l d).odp = s.odp := by
  unfold State.hubNote; dsimp only; split <;> (try split) <;> first | rfl | (split <;> rfl)
@[simp] theorem State.hubNote_eth (s : State) (h ty : Nat) (c : Code) (r l : Nat) (d : List Byte) : (s.hubNote h ty c r l d).eth = s.eth := by
  unfold State.hubNote; dsimp only; split <;> (try split) <;> first | rfl | (split <;> rfl)
@[simp] theorem State.hubNote_flash (s : State) (h ty : Nat) (c : Code) (r l : Nat) (d : List Byte) : (s.hubNote h ty c r l d).flash = s.flash := by
  unfold State.hubNote; dsimp only; split <;> (try split) <;> first | rfl | (split <;> rfl)

/-! ### The passing of time (R461) -/

@[simp] theorem State.advanceTo_pending (s : State) (t : Nat) : (s.advanceTo t).pending = s.pending := rfl
@[simp] theorem State.advanceTo_freeIdx (s : State) (t : Nat) : (s.advanceTo t).freeIdx = s.freeIdx := rfl
@[simp] theorem State.advanceTo_part (s : State) (t : Nat) : (s.advanceTo t).part = s.part := rfl
@[simp] theorem State.advanceTo_receivers (s : State) (t : Nat) : (s.advanceTo t).receivers = s.receivers := rfl
@[simp] theorem State.advanceTo_dma (s : State) (t : Nat) : (s.advanceTo t).dma = s.dma := rfl
@[simp] theorem State.advanceTo_epoch (s : State) (t : Nat) : (s.advanceTo t).epoch = s.epoch := rfl
@[simp] theorem State.advanceTo_flipPending (s : State) (t : Nat) : (s.advanceTo t).flipPending = s.flipPending := rfl
@[simp] theorem State.advanceTo_oldValid (s : State) (t : Nat) : (s.advanceTo t).oldValid = s.oldValid := rfl
@[simp] theorem State.advanceTo_flipAt (s : State) (t : Nat) : (s.advanceTo t).flipAt = s.flipAt := rfl
@[simp] theorem State.advanceTo_pendingAt (s : State) (t : Nat) : (s.advanceTo t).pendingAt = s.pendingAt := rfl
@[simp] theorem State.advanceTo_flipTriggers (s : State) (t : Nat) : (s.advanceTo t).flipTriggers = s.flipTriggers := rfl
@[simp] theorem State.advanceTo_lostRoutes (s : State) (t : Nat) : (s.advanceTo t).lostRoutes = s.lostRoutes := rfl
@[simp] theorem State.advanceTo_flipWaiting (s : State) (t : Nat) : (s.advanceTo t).flipWaiting = s.flipWaiting := rfl
@[simp] theorem State.advanceTo_regions (s : State) (t : Nat) : (s.advanceTo t).regions = s.regions := rfl
@[simp] theorem State.advanceTo_hcp (s : State) (t : Nat) : (s.advanceTo t).hcp = s.hcp := rfl
@[simp] theorem State.advanceTo_completions (s : State) (t : Nat) : (s.advanceTo t).completions = s.completions := rfl
@[simp] theorem State.advanceTo_musters (s : State) (t : Nat) : (s.advanceTo t).musters = s.musters := rfl
@[simp] theorem State.advanceTo_rings (s : State) (t : Nat) : (s.advanceTo t).rings = s.rings := rfl
@[simp] theorem State.advanceTo_loft_map (s : State) (t : Nat) : (s.advanceTo t).loft.map = s.loft.map := rfl
@[simp] theorem State.advanceTo_loft_assigned (s : State) (t : Nat) : (s.advanceTo t).loft.assigned = s.loft.assigned := rfl
@[simp] theorem State.advanceTo_relend (s : State) (t : Nat) : (s.advanceTo t).relend = s.relend := rfl
@[simp] theorem State.advanceTo_hubs (s : State) (t : Nat) : (s.advanceTo t).hubs = s.hubs := rfl
@[simp] theorem State.advanceTo_defects (s : State) (t : Nat) : (s.advanceTo t).defects = s.defects := rfl
@[simp] theorem State.advanceTo_boot (s : State) (t : Nat) : (s.advanceTo t).boot = s.boot := rfl
@[simp] theorem State.advanceTo_clk (s : State) (t : Nat) : (s.advanceTo t).clk = s.clk := rfl
@[simp] theorem State.advanceTo_pwr (s : State) (t : Nat) : (s.advanceTo t).pwr = s.pwr := rfl
@[simp] theorem State.advanceTo_meter (s : State) (t : Nat) : (s.advanceTo t).meter = s.meter := rfl
@[simp] theorem State.advanceTo_board (s : State) (t : Nat) : (s.advanceTo t).board = s.board := rfl
@[simp] theorem State.advanceTo_odp (s : State) (t : Nat) : (s.advanceTo t).odp = s.odp := rfl
@[simp] theorem State.advanceTo_eth (s : State) (t : Nat) : (s.advanceTo t).eth = s.eth := rfl
@[simp] theorem State.advanceTo_flash (s : State) (t : Nat) : (s.advanceTo t).flash = s.flash := rfl
@[simp] theorem State.advanceTo_clock (s : State) (t : Nat) : (s.advanceTo t).clock = max s.clock t := rfl

/-! ### A stage's report word (R346) -/

@[simp] theorem State.stageReports_pending (s : State) (n r : Nat) (c : Code) (e d : Nat) : (s.stageReports n r c e d).pending = s.pending := by
  simp [State.stageReports]
@[simp] theorem State.stageReports_clock (s : State) (n r : Nat) (c : Code) (e d : Nat) : (s.stageReports n r c e d).clock = s.clock := by
  simp [State.stageReports]
@[simp] theorem State.stageReports_freeIdx (s : State) (n r : Nat) (c : Code) (e d : Nat) : (s.stageReports n r c e d).freeIdx = s.freeIdx := by
  simp [State.stageReports]
@[simp] theorem State.stageReports_part (s : State) (n r : Nat) (c : Code) (e d : Nat) : (s.stageReports n r c e d).part = s.part := by
  simp [State.stageReports]
@[simp] theorem State.stageReports_cells (s : State) (n r : Nat) (c : Code) (e d : Nat) : (s.stageReports n r c e d).cells = s.cells := by
  simp [State.stageReports]
@[simp] theorem State.stageReports_routers (s : State) (n r : Nat) (c : Code) (e d : Nat) : (s.stageReports n r c e d).routers = s.routers := by
  simp [State.stageReports]
@[simp] theorem State.stageReports_receivers (s : State) (n r : Nat) (c : Code) (e d : Nat) : (s.stageReports n r c e d).receivers = s.receivers := by
  simp [State.stageReports]
@[simp] theorem State.stageReports_dma (s : State) (n r : Nat) (c : Code) (e d : Nat) : (s.stageReports n r c e d).dma = s.dma := by
  simp [State.stageReports]
@[simp] theorem State.stageReports_epoch (s : State) (n r : Nat) (c : Code) (e d : Nat) : (s.stageReports n r c e d).epoch = s.epoch := by
  simp [State.stageReports]
@[simp] theorem State.stageReports_flipPending (s : State) (n r : Nat) (c : Code) (e d : Nat) : (s.stageReports n r c e d).flipPending = s.flipPending := by
  simp [State.stageReports]
@[simp] theorem State.stageReports_oldValid (s : State) (n r : Nat) (c : Code) (e d : Nat) : (s.stageReports n r c e d).oldValid = s.oldValid := by
  simp [State.stageReports]
@[simp] theorem State.stageReports_flipAt (s : State) (n r : Nat) (c : Code) (e d : Nat) : (s.stageReports n r c e d).flipAt = s.flipAt := by
  simp [State.stageReports]
@[simp] theorem State.stageReports_pendingAt (s : State) (n r : Nat) (c : Code) (e d : Nat) : (s.stageReports n r c e d).pendingAt = s.pendingAt := by
  simp [State.stageReports]
@[simp] theorem State.stageReports_flipTriggers (s : State) (n r : Nat) (c : Code) (e d : Nat) : (s.stageReports n r c e d).flipTriggers = s.flipTriggers := by
  simp [State.stageReports]
@[simp] theorem State.stageReports_lostRoutes (s : State) (n r : Nat) (c : Code) (e d : Nat) : (s.stageReports n r c e d).lostRoutes = s.lostRoutes := by
  simp [State.stageReports]
@[simp] theorem State.stageReports_flipWaiting (s : State) (n r : Nat) (c : Code) (e d : Nat) : (s.stageReports n r c e d).flipWaiting = s.flipWaiting := by
  simp [State.stageReports]
@[simp] theorem State.stageReports_regions (s : State) (n r : Nat) (c : Code) (e d : Nat) : (s.stageReports n r c e d).regions = s.regions := by
  simp [State.stageReports]
@[simp] theorem State.stageReports_hcp (s : State) (n r : Nat) (c : Code) (e d : Nat) : (s.stageReports n r c e d).hcp = s.hcp := by
  simp [State.stageReports]
@[simp] theorem State.stageReports_completions (s : State) (n r : Nat) (c : Code) (e d : Nat) : (s.stageReports n r c e d).completions = s.completions := by
  simp [State.stageReports]
@[simp] theorem State.stageReports_musters (s : State) (n r : Nat) (c : Code) (e d : Nat) : (s.stageReports n r c e d).musters = s.musters := by
  simp [State.stageReports]
@[simp] theorem State.stageReports_rings (s : State) (n r : Nat) (c : Code) (e d : Nat) : (s.stageReports n r c e d).rings = s.rings := by
  simp [State.stageReports]
@[simp] theorem State.stageReports_loft (s : State) (n r : Nat) (c : Code) (e d : Nat) : (s.stageReports n r c e d).loft = s.loft := by
  simp [State.stageReports]
@[simp] theorem State.stageReports_relend (s : State) (n r : Nat) (c : Code) (e d : Nat) : (s.stageReports n r c e d).relend = s.relend := by
  simp [State.stageReports]
@[simp] theorem State.stageReports_hubs (s : State) (n r : Nat) (c : Code) (e d : Nat) : (s.stageReports n r c e d).hubs = s.hubs := by
  simp [State.stageReports]
@[simp] theorem State.stageReports_defects (s : State) (n r : Nat) (c : Code) (e d : Nat) : (s.stageReports n r c e d).defects = s.defects := by
  simp [State.stageReports]
@[simp] theorem State.stageReports_clk (s : State) (n r : Nat) (c : Code) (e d : Nat) : (s.stageReports n r c e d).clk = s.clk := by
  simp [State.stageReports]
@[simp] theorem State.stageReports_pwr (s : State) (n r : Nat) (c : Code) (e d : Nat) : (s.stageReports n r c e d).pwr = s.pwr := by
  simp [State.stageReports]
@[simp] theorem State.stageReports_meter (s : State) (n r : Nat) (c : Code) (e d : Nat) : (s.stageReports n r c e d).meter = s.meter := by
  simp [State.stageReports]
@[simp] theorem State.stageReports_board (s : State) (n r : Nat) (c : Code) (e d : Nat) : (s.stageReports n r c e d).board = s.board := by
  simp [State.stageReports]
@[simp] theorem State.stageReports_odp (s : State) (n r : Nat) (c : Code) (e d : Nat) : (s.stageReports n r c e d).odp = s.odp := by
  simp [State.stageReports]
@[simp] theorem State.stageReports_eth (s : State) (n r : Nat) (c : Code) (e d : Nat) : (s.stageReports n r c e d).eth = s.eth := by
  simp [State.stageReports]
@[simp] theorem State.stageReports_flash_powerCycle (s : State) (n r : Nat) (c : Code) (e d : Nat) : (s.stageReports n r c e d).flash.powerCycle = s.flash.powerCycle := by
  simp [State.stageReports]
@[simp] theorem State.stageReports_flash_opSeconds (s : State) (n r : Nat) (c : Code) (e d : Nat) : (s.stageReports n r c e d).flash.opSeconds = s.flash.opSeconds := by
  simp [State.stageReports]
@[simp] theorem State.stageReports_flash_savedAtEnd (s : State) (n r : Nat) (c : Code) (e d : Nat) : (s.stageReports n r c e d).flash.savedAtEnd = s.flash.savedAtEnd := by
  simp [State.stageReports]
@[simp] theorem State.stageReports_flash_logCrcFail (s : State) (n r : Nat) (c : Code) (e d : Nat) : (s.stageReports n r c e d).flash.logCrcFail = s.flash.logCrcFail := by
  simp [State.stageReports]
@[simp] theorem State.stageReports_flash_keys (s : State) (n r : Nat) (c : Code) (e d : Nat) : (s.stageReports n r c e d).flash.keys = s.flash.keys := by
  simp [State.stageReports]
@[simp] theorem State.stageReports_flash_ownerRequired (s : State) (n r : Nat) (c : Code) (e d : Nat) : (s.stageReports n r c e d).flash.ownerRequired = s.flash.ownerRequired := by
  simp [State.stageReports]
@[simp] theorem State.stageReports_flash_vendorKeyMin (s : State) (n r : Nat) (c : Code) (e d : Nat) : (s.stageReports n r c e d).flash.vendorKeyMin = s.flash.vendorKeyMin := by
  simp [State.stageReports]
@[simp] theorem State.stageReports_flash_meterSerial (s : State) (n r : Nat) (c : Code) (e d : Nat) : (s.stageReports n r c e d).flash.meterSerial = s.flash.meterSerial := by
  simp [State.stageReports]
@[simp] theorem State.stageReports_flash_failedStarts (s : State) (n r : Nat) (c : Code) (e d : Nat) : (s.stageReports n r c e d).flash.failedStarts = s.flash.failedStarts := by
  simp [State.stageReports]
@[simp] theorem State.stageReports_flash_failure (s : State) (n r : Nat) (c : Code) (e d : Nat) : (s.stageReports n r c e d).flash.failure = s.flash.failure := by
  simp [State.stageReports]
@[simp] theorem State.stageReports_flash_reports (s : State) (n r : Nat) (c : Code) (e d : Nat) : (s.stageReports n r c e d).flash.reports = s.flash.reports := by
  simp [State.stageReports]
@[simp] theorem State.stageReports_flash_image (s : State) (n r : Nat) (c : Code) (e d : Nat) : (s.stageReports n r c e d).flash.image = s.flash.image := by
  simp [State.stageReports]
/-- The word of its stage, and no other part of bring-up's state (R346). -/
@[simp] theorem State.stageReports_boot (s : State) (n r : Nat) (c : Code) (e d : Nat) :
    (s.stageReports n r c e d).boot = { s.boot with reports := s.boot.reports.put n (reportWord r c e d) } := by
  simp [State.stageReports]

/-- RESULT is the word's low four bits (R346). -/
theorem reportWord_result (r : Nat) (c : Code) (e d : Nat) (h : r < 16) : bits (reportWord r c e d).toNat 0 4 = r := by
  simp only [reportWord, bits, BitVec.toNat_ofNat]
  omega

/-- CODE is its next sixteen (R346). -/
theorem reportWord_code (r : Nat) (c : Code) (e d : Nat) (h : r < 16) : bits (reportWord r c e d).toNat 4 16 = c.toNat := by
  have := c.isLt
  simp only [reportWord, bits, BitVec.toNat_ofNat]
  omega

/-- A word that is put is the word read. -/
@[simp] theorem SMap.get_put_same {α : Type} (d : α) (m : SMap α) (k : Nat) (v : α) : (m.put k v).get d k = v := SMap.get_insert_same d k v m

/-- Another word is as it was. -/
theorem SMap.get_put_other {α : Type} (d : α) (m : SMap α) {k j : Nat} (v : α) (h : j ≠ k) : (m.put k v).get d j = m.get d j :=
  SMap.get_insert_other d v h m

/-- What a stage reported is its RESULT (R346). -/
theorem State.stageReports_resultOf (s : State) (n r : Nat) (c : Code) (e d : Nat) (h : r < 16) : (s.stageReports n r c e d).resultOf n = r := by
  simp only [State.resultOf, State.stageReports_boot, SMap.get_put_same]
  exact reportWord_result r c e d h

/-- Every other stage's RESULT is as it was. -/
theorem State.stageReports_resultOf_other (s : State) {n k : Nat} (r : Nat) (c : Code) (e d : Nat) (h : k ≠ n) : (s.stageReports n r c e d).resultOf k = s.resultOf k := by
  simp only [State.resultOf, State.stageReports_boot, SMap.get_put_other _ _ _ h]

end Sys2Proof.Machine
end

