-- ==== Sys2Proof/Tests/Slice0.lean ====
section
/-!
SUPPORT. Tests: terms that the well-formedness check refuses, one for each check, and states and operands that meet the hypotheses of the statements.
-/
namespace Sys2Proof.Tests
set_option Elab.async false
open Sys2Proof Sys2Proof.Machine

/-! ### Well-formedness: each check refuses something (R13–R18, R172, R199, R226, R228, R253, R266, R402, R427, R480) -/

/-- A source. -/
def src : Source := { port := .host, addr := 1, udp := 4000 }
/-- An HCP message. -/
def hcp : HcpMsg := { src := src, version := 1, opcode := 3, seq := 7, region := 1, flags := 0, step := 0, bx := 0, oy := 0, length := 0, dataOffset := 0, payload := [] }
/-- An ODP message. -/
def odp : OdpMsg :=
  { src := src, version := 1, op := 1, flags := 0, seq := 7, index := 0x1001, subindex := 1, type := 0, session := 0, offset := 0, length := 0, handle := 0,
    total := 0, payload := [] }
/-- An RDMA packet. -/
def pkt : RdmaPkt := { qp := 3, psn := 0, rkey := 1, va := 0, dmaLen := 64, payload := [], ce := false }
/-- A link unit. -/
def unit : LinkUnit := { decoded := .clean, seq := 0, ack := 0, reqCredit := 0, respCredit := 0, nak := false, idle := true, data := [] }
/-- An Ethernet frame. -/
def frame : EthFrame :=
  { port := .host, kind := .udp, ipv4 := true, dest := 0x0A000001, ce := false, length := 64, tagged := false, pause := false, dstUdp := 4791, src := src,
    checksumOk := true, ipv4Zero := false, payload := [] }

theorem test_wf_cell : (Instr.nop ⟨200, 0⟩).wf = true ∧ (Instr.nop ⟨0, 0⟩).wf = false ∧ (Instr.nop ⟨960, 80⟩).wf = false := by decide
theorem test_wf_token : (Instr.tokenArrival ⟨200, 0⟩ 56 ⟨false, []⟩).wf = false ∧ (Instr.tokenArrival ⟨200, 0⟩ 55 ⟨false, [32]⟩).wf = false := by decide
theorem test_wf_steer : (Instr.steerFire ⟨200, 0⟩ 4).wf = false ∧ (Instr.junctionFire ⟨200, 0⟩ 2).wf = false ∧ (Instr.steerTimeout ⟨200, 0⟩ 6).wf = false := by decide
theorem test_wf_region : (Instr.sweepWindowClose 65536).wf = false := by decide
theorem test_wf_muster : (Instr.musterNodeArrival 256).wf = false ∧ (Instr.musterReleaseAtCell 0 ⟨0, 0⟩).wf = false := by decide
theorem test_wf_field : (Instr.ringFlush 68).wf = false ∧ (Instr.ringFlush 67).wf = true ∧ (Instr.hubHeartbeat 68 true).wf = false := by decide
theorem test_wf_hcp : (Instr.start hcp).wf = true ∧ (Instr.start { hcp with seq := 2 ^ 32 }).wf = false ∧ (Instr.start { hcp with region := 2 ^ 16 }).wf = false := by decide
theorem test_wf_source : (Instr.start { hcp with src := { src with udp := 65536 } }).wf = false ∧ (Instr.loadTimeout src (2 ^ 32)).wf = false := by decide
theorem test_wf_odp : (Instr.odpRead odp).wf = true ∧ (Instr.odpRead { odp with index := 2 ^ 16 }).wf = false ∧ (Instr.odpRead { odp with handle := 2 ^ 16 }).wf = false := by decide
theorem test_wf_hop : (Instr.packetHop ⟨200, 0⟩ 8 0 ⟨false, false⟩).wf = false ∧ (Instr.packetHop ⟨200, 0⟩ 0 5 ⟨false, false⟩).wf = false := by decide
theorem test_wf_combine : (Instr.redCombine ⟨200, 0⟩ 0 0 0 0).wf = false ∧ (Instr.redCombine ⟨200, 0⟩ 5 0 0 0).wf = false := by decide
theorem test_wf_timer : (Instr.resendTimerExpiry ⟨200, 0⟩ 6 0).wf = false ∧ (Instr.tagRestEnd ⟨200, 0⟩ 0 16).wf = false := by decide
theorem test_wf_merge : (Instr.mergeWindowClose ⟨200, 0⟩ 6144).wf = false ∧ (Instr.loftWrArrival ⟨200, 0⟩ 4).wf = false := by decide
theorem test_wf_flip : (Instr.epochFlipTrigger [(⟨200, 0⟩, 4)] []).wf = false ∧ (Instr.epochFlipTrigger [] [272]).wf = false ∧
    (Instr.epochInstall [⟨⟨200, 0⟩, 272, 0⟩]).wf = false := by decide
theorem test_wf_dma : (Instr.dmaDescriptorStart ⟨195, 0⟩ 0).wf = true ∧ (Instr.dmaDescriptorStart ⟨196, 0⟩ 0).wf = false ∧ (Instr.streamPoll ⟨195, 0⟩ 4).wf = false := by decide
theorem test_wf_vault : (Instr.vaultRequestAccept ⟨65280, 0⟩).wf = false ∧ (Instr.vaultRequestAccept ⟨0, 4⟩).wf = false ∧ (Instr.loftRefresh 0 32).wf = false ∧ (Instr.loftScrub 0 393216 []).wf = false ∧
    (Instr.vaultLineComplete 0 0 0 [⟨73, 1⟩]).wf = false ∧ (Instr.spareWriteDone 61440).wf = false := by decide
theorem test_wf_port : (Instr.linkDown 64).wf = false ∧ (Instr.laneFailure 0 9 .training).wf = false ∧ (Instr.linkUnitReceive 0 { unit with seq := 65536 }).wf = false := by decide
theorem test_wf_gateway : (Instr.acceptTimer 16384).wf = false ∧ (Instr.streamPollDeferred 0 16).wf = false ∧ (Instr.attemptTimerExpiry 0 4096).wf = false := by decide
theorem test_wf_arrive : (Instr.musterArrive 0 (2 ^ 32)).wf = false ∧ (Instr.paceTimeout 4096).wf = false ∧ (Instr.phase1Record 16 0).wf = false ∧
    (Instr.collectiveDeadline 16).wf = false := by decide
theorem test_wf_node : (Instr.nodeLost (.row 8)).wf = false ∧ (Instr.nodeLost (.block 0 12 0)).wf = false ∧ (Instr.nodeLost .apex).wf = true ∧
    (Instr.paddockTrip 272 .overcurrent).wf = false := by decide
theorem test_wf_sweep : (Instr.statusSweep ⟨0, [⟨0, 0⟩]⟩).wf = false ∧ (Instr.statusSweep ⟨67, [⟨200, 0⟩]⟩).wf = true := by decide
theorem test_wf_stages : (Instr.stageS0 65536 0 true 0).wf = false ∧ (Instr.stageS2 [68] [] 0).wf = false ∧ (Instr.stageS4 [⟨0, 0⟩] [] [] false 0).wf = false ∧
    (Instr.stageS5 [⟨⟨200, 0⟩, true, 4, 0⟩] [] 0).wf = false ∧ (Instr.stageS6 [65280] 0).wf = false ∧ (Instr.stageS8 [64] []).wf = false := by decide
theorem test_wf_clocks : (Instr.setPointWrite true 65536).wf = false ∧ (Instr.sourceSwitchDone 0 4).wf = false ∧ (Instr.freqCounterGate [(340, 0)]).wf = false ∧
    (Instr.dvfsTarget true 16).wf = false := by decide
theorem test_wf_samples : (Instr.powerEstimate [⟨0, 800, 100, 25, []⟩]).wf = false ∧ (Instr.droopMarginLoop [(272, 0)]).wf = false ∧
    (Instr.droopDetect ⟨272, 0⟩).wf = false ∧ (Instr.droopDetect ⟨271, 0⟩).wf = true := by decide
theorem test_wf_timers : (Instr.stageExpiry 65536).wf = false ∧ (Instr.sessionTimeout (2 ^ 32)).wf = false ∧ (Instr.windowCloseComplete 4096).wf = false := by decide
theorem test_wf_rdma : (Instr.rdmaReadRequest { pkt with qp := 64 }).wf = false ∧ (Instr.rdmaReadRequest { pkt with psn := 2 ^ 24 }).wf = false ∧
    (Instr.rdmaLinesDone 0 [⟨4, []⟩]).wf = false ∧ (Instr.ethFrameReceive { frame with dstUdp := 65536 }).wf = false ∧
    (Instr.ethFrameReceive { frame with dest := 2 ^ 32 }).wf = false ∧ (Instr.ethFrameReceive { frame with ipv4 := false, dest := 2 ^ 32 }).wf = true := by decide


/-! ### Cells in which an iteration issues -/

/-- A T-cell, an M-cell and an F-cell of field 0. -/
def tcell : Coord := ⟨200, 0⟩
def mcell : Coord := ⟨195, 0⟩
def fcell : Coord := ⟨196, 1⟩

/-- A step-table entry of one iteration (R31): class, opcode, format, MOD, A, B, D and IMM. -/
def word (cls op fmt mod a b d imm : Nat) : Nat :=
  cls * 2 ^ 124 + op * 2 ^ 118 + fmt * 2 ^ 114 + mod * 2 ^ 110 + a * 2 ^ 100 + b * 2 ^ 90 + d * 2 ^ 80 + 2 ^ 64 + imm

/-- Operand descriptors (R33): SPAD, ACC, TALLY and MESH. -/
def spad (n : Nat) : Nat := 256 + n
def acc (n : Nat) : Nat := 384 + n
def tally (n : Nat) : Nat := 512 + n
def mesh (n : Nat) : Nat := 896 + n

/-- A cell that runs fold 0 with one entry, its generators 0 to 4 at bank starts of their own (R56, R58, R107, R135). -/
def running (w : Nat) : Cell :=
  { Cell.reset with
    mode := .running
    ag := [(1, (64, 0)), (2, (128, 0)), (3, (192, 0)), (4, (256, 0))]
    regs := { CellRegs.reset with cellControl := 0x4001, stepTable := [(0, BitVec.ofNat 128 w)], foldSwitch := [(0, 1)] } }

/-- The engine at reset with one cell. -/
def withCell (c : Coord) (x : Cell) : State := State.reset.setCell c x

/-- The iteration that fold `f` would issue at a cell. -/
def iterOf (s : State) (c : Coord) : Iteration :=
  let w := s.readied c
  let f := w.cell.seq.cur
  let p := w.cell.seq.folds.get .zero f
  let e := w.cell.regs.entry f p.entry
  let g := w.grantReads f p.entry p.iter w.cell.seq.cycle (e.reads w.here.kind w.cell.pointer) [] [] []
  { at_ := c, fold := f, pos := p, entry := e, work := g.2.2, got := g.2.1 }

/-- Does it issue? -/
def issuesNow (s : State) (c : Coord) : Bool :=
  let w := s.readied c
  let i := iterOf s c
  c.present && (s.cell c).mode == .running && !(s.committed c).cell.seq.stopped && (s.committed c).cell.seq.asking == none && w.canFire i.fold &&
    (decide (w.cell.seq.run < w.cell.regs.quantum) || w.nextFold == none) && i.entry.rep != 0 &&
    (w.grantReads i.fold i.pos.entry i.pos.iter w.cell.seq.cycle (i.entry.reads w.here.kind w.cell.pointer) [] [] []).1 == []

theorem issues_of (s : State) (c : Coord) (h : issuesNow s c = true) : Issues s c (iterOf s c) := by
  simp only [issuesNow, Bool.and_eq_true, Bool.or_eq_true, beq_iff_eq, decide_eq_true_eq, Bool.not_eq_true', bne_iff_ne] at h
  obtain ⟨⟨⟨⟨⟨⟨⟨h1, h2⟩, h3⟩, h4⟩, h5⟩, h6⟩, h7⟩, h8⟩ := h
  exact ⟨rfl, h1, h2, h3, h4, rfl, rfl, rfl, h5, h6, h7, Prod.ext h8 rfl⟩

/-- A cell and a test of the iteration that it issues. -/
abbrev Row := Cell × (Iteration → Bool)

theorem all_issue (c : Coord) (rows : List Row)
    (h : (rows.all fun r => issuesNow (withCell c r.1) c && r.2 (iterOf (withCell c r.1) c)) = true) :
    ∀ r ∈ rows, ∃ (s : State) (i : Iteration), Issues s c i ∧ r.2 i = true := by
  intro r hr
  have := (List.all_eq_true.mp h) r hr
  simp only [Bool.and_eq_true] at this
  exact ⟨_, _, issues_of _ _ this.1, this.2⟩

/-- An entry with its class and opcode as the test. -/
def row (c op fmt mod a b d imm : Nat) : Row := (running (word c op fmt mod a b d imm), fun i => i.entry.cls == c && i.entry.op == op)
/-- The same with a further test. -/
def rowIf (c op fmt mod a b d imm : Nat) (p : Iteration → Bool) : Row :=
  (running (word c op fmt mod a b d imm), fun i => i.entry.cls == c && i.entry.op == op && p i)

/-- A control token of fold 0. -/
def ctlToken : Token := { payload := [], ctl := 5, ctlBad := false, tag := 0, gen := false, sideBad := false }

theorem witness_ControlOperations : ∀ r ∈ [row 0 0 0 0 0 0 0 0, row 0 1 0 0 0 0 0 0,
    (let x := running (word 0 2 0 0 (128 + 16) 0 0 0)
     ({ x with fab := { x.fab with slices := [(8 * 24, [ctlToken])] } }, fun (i : Iteration) => i.entry.cls == 0 && i.entry.op == 2)),
    row 0 3 0 0 0 0 0 15, row 0 4 0 0 0 0 0 3], ∃ (s : State) (i : Iteration), Issues s tcell i ∧ r.2 i = true := all_issue _ _ (by decide +kernel)

/-- A round of a muster that waits for its release, with no signal. -/
def round : RoundSignal := { tally := 0, amount := 0, by_ := { fold := 0, entry := 0, iter := 0 } }

theorem witness_MusterEnter : ∀ r ∈ [rowIf 0 5 0 0 0 0 0 7 fun i => decide ((i.start.cell.must.parts.get { nextParity := false, pending := [] } 7).pending.length < 2),
    (let x := running (word 0 5 0 0 0 0 0 7)
     ({ x with must := { x.must with parts := [(7, { nextParity := false, pending := [round, round] })] } },
      fun (i : Iteration) => i.entry.cls == 0 && i.entry.op == 5 && i.entry.imm == 7 &&
        decide (2 ≤ (i.start.cell.must.parts.get { nextParity := false, pending := [] } 7).pending.length)))],
    ∃ (s : State) (i : Iteration), Issues s tcell i ∧ r.2 i = true := all_issue _ _ (by decide +kernel)

theorem witness_MoveOperations : ∀ r ∈ [row 1 0 0 0 (spad 0) 0 (spad 1) 0, row 1 1 0 0 (spad 0) 0 (spad 1) 1, row 1 2 0 0 0 0 (spad 1) 0],
    ∃ (s : State) (i : Iteration), Issues s tcell i ∧ r.2 i = true := all_issue _ _ (by decide +kernel)

theorem witness_TensorOperations : ∀ r ∈ [rowIf 2 0 0 0 (spad 0) (spad 1) (acc 7) 0 fun i => i.entry.d i.kind == .acc 7,
    rowIf 2 1 0 4 (acc 0) 0 (spad 1) 0 fun i => i.entry.a i.kind == .acc 0, rowIf 2 2 0 0 (acc 1) 0 (spad 1) 0 fun i => i.entry.a i.kind == .acc 1,
    rowIf 2 3 0 0 (spad 0) 0 (acc 7) 0 fun i => i.entry.d i.kind == .acc 7, rowIf 2 4 0 8 0 0 (acc 0) 0x70 fun i => i.entry.d i.kind == .acc 0],
    ∃ (s : State) (i : Iteration), Issues s tcell i ∧ r.2 i = true := all_issue _ _ (by decide +kernel)

theorem witness_VectorOperations : ∀ r ∈ ([0, 1, 2, 3, 4].map fun op => row 3 op 0 0 (spad 0) (spad 1) (spad 2) 0) ++
    ([5, 6, 7].map fun op => row 3 op 14 0 (spad 0) (spad 1) (spad 2) 0) ++ ([8, 9].map fun op => row 3 op 0 8 (spad 0) (spad 1) 768 3),
    ∃ (s : State) (i : Iteration), Issues s tcell i ∧ r.2 i = true := all_issue _ _ (by decide +kernel)

theorem witness_FunctionOperations : ∀ r ∈ ((List.range 11).map fun op => row 4 op 0 0 (spad 0) 0 (spad 2) 0) ++
    [row 4 11 0 0 (spad 0) 0 (spad 2) 1, row 4 12 0 0 (spad 0) 0 (spad 2) 4,
     rowIf 4 13 0 0 (spad 0) 0 (spad 2) 15 fun i => (i.start.lookup i.fold i.pos.entry i.pos.iter i.entry i.a).1 == none,
     (let x := running (word 4 13 0 0 (spad 0) 0 (spad 2) 15)
      ({ x with pad := { x.pad with lookups := [(15, BitVec.ofNat 64 (2 * 2 ^ 16 + 2 ^ 29))] } },
       fun (i : Iteration) => i.entry.cls == 4 && i.entry.op == 13 && (i.start.lookup i.fold i.pos.entry i.pos.iter i.entry i.a).1 != none))],
    ∃ (s : State) (i : Iteration), Issues s fcell i ∧ r.2 i = true := all_issue _ _ (by decide +kernel)

theorem witness_MemoryOperations : ∀ r ∈ ([(0, 14, spad 1), (1, 14, spad 1), (2, 0, 0), (3, 14, 0)].flatMap fun (o : Nat × Nat × Nat) =>
      [rowIf 5 o.1 o.2.1 0 (spad 0) o.2.2 (spad 2) 0 fun i => i.entry.d i.kind == .spad 2 && i.entry.oldAg == none &&
        accessOk i.kind (i.start.cell.pointer 2) 32 && i.start.cell.channelAt (i.start.cell.pointer 2) == none,
       rowIf 5 o.1 o.2.1 0 (spad 0) o.2.2 (spad 2) 19 fun i => i.entry.d i.kind == .spad 2 && i.entry.oldAg == some 3 &&
        accessOk i.kind (i.start.cell.pointer 2) 32 && i.start.cell.channelAt (i.start.cell.pointer 2) == none &&
        accessOk i.kind (i.start.cell.pointer 3) 32 && i.start.cell.channelAt (i.start.cell.pointer 3) == none]) ++
    [row 5 4 14 0 (spad 0) (spad 1) (spad 2) 0, rowIf 5 5 0 0 (spad 0) 0 0 3 fun i => i.entry.a i.kind == .spad 0],
    ∃ (s : State) (i : Iteration), Issues s mcell i ∧ r.2 i = true := all_issue _ _ (by decide +kernel)

theorem witness_MeshOperations : ∀ r ∈ [rowIf 6 0 0 0 (spad 0) 0 (mesh 15) 0 fun i => i.entry.d i.kind == .mesh 15,
    rowIf 6 1 0 0 (mesh 0) 0 (spad 1) 0 fun i => i.entry.a i.kind == .mesh 0 && i.entry.d i.kind == .spad 1,
    row 6 2 0 0 0 0 (mesh 0) 5, row 6 3 0 0 (spad 0) 0 (mesh 0) 9, row 6 4 0 0 (spad 0) 0 (mesh 0) 0],
    ∃ (s : State) (i : Iteration), Issues s tcell i ∧ r.2 i = true := all_issue _ _ (by decide +kernel)

theorem witness_TallyOperations : ∀ r ∈ [rowIf 7 0 0 0 0 0 (tally 47) 5 fun i => i.entry.d i.kind == .tally 47, rowIf 7 1 0 0 0 0 (tally 0) 5 fun i => i.entry.d i.kind == .tally 0],
    ∃ (s : State) (i : Iteration), Issues s tcell i ∧ r.2 i = true := all_issue _ _ (by decide +kernel)

/-! ### Other events of cells -/

/-- Folds 0 and 1 active; fold 0 has no passes, so only fold 1 can fire. -/
def otherFold : Cell :=
  let x := running 0
  { x with regs := { x.regs with cellControl := 0x4003, stepTable := [(32, BitVec.ofNat 128 (word 0 3 0 0 0 0 0 5))], foldSwitch := [(1, 1)] } }
/-- Both can fire, and fold 0 has had its turn. -/
def turnOver : Cell :=
  let x := running 0
  { x with
    regs := { x.regs with
      cellControl := 0x4003
      stepTable := [(0, BitVec.ofNat 128 (word 0 3 0 0 0 0 0 5)), (32, BitVec.ofNat 128 (word 0 3 0 0 0 0 0 5))]
      foldSwitch := [(0, 1), (1, 1)] }
    seq := { x.seq with run := 64 } }

theorem witness_SchedulingRule :
    (∃ i, Issues (withCell tcell (running (word 0 3 0 0 0 0 0 5))) tcell i) ∧
    (let s := withCell tcell otherFold
     tcell.present = true ∧ (s.cell tcell).mode = .running ∧ (s.committed tcell).cell.seq.stopped = false ∧ (s.committed tcell).cell.seq.asking = none ∧
     (s.readied tcell).canFire (s.readied tcell).cell.seq.cur = false ∧ (s.readied tcell).nextFold = some 1) ∧
    (let s := withCell tcell turnOver
     (s.cell tcell).mode = .running ∧ (s.committed tcell).cell.seq.stopped = false ∧ (s.committed tcell).cell.seq.asking = none ∧
     (s.readied tcell).cell.regs.quantum ≤ (s.readied tcell).cell.seq.run ∧ (s.readied tcell).nextFold = some 1) ∧
    (let s := withCell tcell { Cell.reset with mode := .running }
     (s.cell tcell).mode = .running ∧ (s.committed tcell).cell.seq.stopped = false ∧ (s.committed tcell).cell.seq.asking = none ∧
     (s.readied tcell).canFire (s.readied tcell).cell.seq.cur = false ∧ (s.readied tcell).nextFold = none) :=
  ⟨⟨_, issues_of _ _ (by decide +kernel)⟩, by decide +kernel, by decide +kernel, by decide +kernel⟩

theorem witness_AccumulatorsCombine :
    (let s := Acc.ofNat (2 ^ 216 + 5)
     let t := Acc.ofNat (2 ^ 216 + 7)
     s.exact = true ∧ t.exact = true ∧ s.anchor = t.anchor ∧ s.escape = false ∧ t.escape = false ∧ min (s.count + t.count) 0xFFFFFFFF < 0xFFFFFFFF) ∧
    (let s := Acc.ofNat (2 ^ 216 + 2 ^ 200)
     let t := Acc.ofNat (2 ^ 216 + 2 ^ 217)
     s.exact = true ∧ t.exact = true ∧ t.escape = true ∧ s.anchor ≠ t.anchor) ∧
    ((Acc.ofNat (2 ^ 216)).exact = true ∧ (Acc.ofNat 5).exact = false) ∧
    ((Acc.ofNat (combineWords (2 ^ 216 + 2 ^ 256 - 2 ^ 224) (2 ^ 216))).exact = true ∧
      min ((Acc.ofNat (2 ^ 216 + 2 ^ 256 - 2 ^ 224)).count + (Acc.ofNat (2 ^ 216)).count) 0xFFFFFFFF = 0xFFFFFFFF) := by decide +kernel

/-- A packet at the mesh port. -/
def packet (type offset aux : Nat) : Packet :=
  { type, epoch := false, seq := false, attempt := 0, age := 0, dst := tcell, src := mcell, req := 0, tag := 1, offset, aux, tally := 0, tallyEn := false, flock := 0,
    payload := List.replicate (if type = 1 then 32 else 0) (PByte.ofData 7), entries := [], crc := 0, left := none }
/-- An iteration in flight. -/
def flying (fx : List Effect) : Inflight := { start := 0, due := 0, fold := 0, entry := 0, iter := 0, effects := fx, signal := none }

/-- A running cell with the write `i` past its commit, the bank slots `taken` given away in its cycle. -/
def lateCell (i : Inflight) (taken : List (Nat × Bool)) : State :=
  let x : Cell := Cell.reset
  withCell tcell { x with mode := .running, seq := { x.seq with late := [i], slots := taken } }

theorem witness_CommitsAndGrants :
    (let x : Cell := Cell.reset
     let s := withCell tcell { x with seq := { x.seq with inflight := [flying [.tallyAdd 3 1]] } }
     tcell.present = true ∧ (s.work tcell).cell.seq.inflight = flying [.tallyAdd 3 1] :: [] ∧ (flying [.tallyAdd 3 1]).due ≤ (s.work tcell).cell.seq.cycle) ∧
    (let i := flying [.spad 64 (Payload.ofNat 32 5) false]
     let s := lateCell i []
     let w := (s.work tcell).mapSeq fun q => { q with late := [] }
     (s.work tcell).cell.seq.late = [i] ∧ i.effects = [.spad 64 (Payload.ofNat 32 5) false] ∧ Payload.ofNat 32 5 ≠ [] ∧ w.grants i.due 5 (64 / 64) true = true) ∧
    (let i := flying [.spad 64 (Payload.ofNat 32 5) false]
     let s := lateCell i [(1, true)]
     let w := (s.work tcell).mapSeq fun q => { q with late := [] }
     (s.work tcell).cell.seq.late = [i] ∧ w.grants i.due 5 (64 / 64) true = false) ∧
    (let x : Cell := Cell.reset
     let p := packet 1 64 32
     let s := withCell tcell { x with mesh := { x.mesh with port := some (p, 0) } }
     let v : Work := { ((s.work tcell).mapMesh fun m => { m with port := none }) with asked := 0 }
     (s.work tcell).cell.mesh.port = some (p, 0) ∧ p.type = tPut ∧ (v.putArrive p).isSome = true) ∧
    (let x : Cell := Cell.reset
     let p := packet 2 64 32
     let s := withCell tcell { x with mesh := { x.mesh with port := some (p, 0) } }
     let u := s.writePhase tcell
     let v : Work := { ((u.work tcell).mapMesh fun m => { m with port := none }) with asked := 0 }
     (s.work tcell).cell.mesh.port = some (p, 0) ∧ (u.work tcell).cell.mesh.port = some (p, 0) ∧ p.type = tGet ∧
       (v.getArrive (u.dmaWait tcell) p).isSome = true) := by
  decide +kernel

theorem witness_SheepdogRaises :
    (let x := running (word 0 3 0 0 0 0 0 5)
     let s := withCell tcell { x with seq := { x.seq with folds := [(0, { FoldState.zero with iter := 1 })] } }
     tcell.present = true ∧ (s.work tcell).watched = true ∧ (s.cell tcell).seq.barked = false) := by decide +kernel

/-- The work of a cell that has not started anything. -/
def idle (x : Cell) : Work := (withCell tcell x).work tcell

theorem witness_CommittedEffects :
    let w := idle Cell.reset
    w.cell.accs.wf 0 = true ∧ w.cell.seq.folds.wf .zero = true ∧ w.cell.tallies.wf .zero = true ∧ w.cell.tallyAtStart 3 = 0 ∧ w.cell.tallyAtStart 3 < 5 ∧
      0 < (idle { Cell.reset with tallies := [(3, ⟨9, none⟩)] }).cell.tallyAtStart 3 := by decide +kernel

theorem witness_ScratchpadReadAfterWrite : SMap.wf PByte.zero [(5, PByte.ofData 3)] = true ∧ 0 < (Payload.ofNat 4 9).length := by decide +kernel

/-- A cell with a channel of two one-line slots at 0 whose fill tally stands at `n` (R116–R119). -/
def ringed (n : Nat) (drifted : List Nat) : Cell :=
  let x : Cell := Cell.reset
  { x with
    tallies := if n = 0 then [] else [(1, ⟨n, none⟩)]
    pad := { x.pad with channels := [(0, BitVec.ofNat 128 (2 ^ 18 + 2 * 2 ^ 30 + 2 ^ 38 + 2 * 2 ^ 44 + 2 ^ 50 + 2 ^ 58 + 2 ^ 66))], drifted } }

theorem witness_ChannelRules : (idle (ringed 2 [])).cell.channelView 64 = .full ∧ (idle (ringed 0 [])).cell.channelView 64 = .empty ∧
    (idle (ringed 0 [0])).cell.channelView 64 = .drifted ∧ (idle (ringed 0 [])).cell.channelView 128 = .free ∧
    ((idle Cell.reset).cell.stored 0 4).parityError = false ∧ Payload.ofNat 4 9 ≠ [] ∧
    (let x : Cell := Cell.reset
     ((idle { x with pad := { x.pad with bytes := [(0, ⟨1, false⟩)] } }).cell.stored 0 4).parityError = true) := by decide +kernel

theorem witness_TallyIncrements : (idle Cell.reset).cell.tallies.wf .zero = true ∧ (idle Cell.reset).cell.tally 47 + 1 ≤ 0xFFFFFFFF ∧
    0xFFFFFFFF < (idle { Cell.reset with tallies := [(47, ⟨0xFFFFFFFF, none⟩)] }).cell.tally 47 + 1 ∧
    SMap.wf Tally.zero [(47, ⟨0xFFFFFFFF, none⟩)] = true ∧ 3 ∉ (idle Cell.reset).cell.seq.arrivals ∧
    (let x : Cell := Cell.reset
     3 ∈ (idle { x with seq := { x.seq with arrivals := [3] } }).cell.seq.arrivals) := by decide +kernel

theorem witness_FaultLatch : (idle Cell.reset).cell.fault.first = none ∧ ((idle Cell.reset).raise Codes.sheepdog 0 0 0 0).cell.fault.first.isSome = true := by
  decide +kernel

/-! ### The static fabric -/

/-- A vector token of fold 0. -/
def token : Token := { payload := Payload.ofNat 32 9, ctl := 0, ctlBad := false, tag := 0, gen := false, sideBad := false }
/-- A cell with a token on its way to an input port, whose fold 0 has a slice there or not, in a sweep or not (R52, R154). -/
def arriving (port : Nat) (t : Token) (slice : BitVec 64) (sweep : Bool) : Cell :=
  let x : Cell := Cell.reset
  { x with
    regs := { x.regs with portPart := if slice = 0 then [] else [(port, slice)] }
    fab := { x.fab with wires := [(port, [t])], sweep } }

theorem witness_TokenArrivals : tcell.present = true ∧
    (let x := arriving 0 token 1 false
     x.mode ≠ .dead ∧ x.mode ≠ .fenced ∧ x.fab.wires.get [] 0 = [token] ∧ x.fab.sweep = false ∧ x.regs.slice 0 token.tag ≠ 0) ∧
    (let x := arriving 55 { token with gen := true } 1 true
     x.fab.wires.get [] 55 = [{ token with gen := true }] ∧ x.fab.sweep = true ∧ true ≠ x.regs.gen) ∧
    (let x := arriving 7 token 0 true
     token.gen = x.regs.gen ∧ x.regs.slice 7 token.tag = 0) ∧
    token.sideBad = false ∧ token.payload.parityError = false ∧ token.ctlBad = false := by decide +kernel

theorem witness_CreditReturn :
    let x : Cell := { Cell.reset with fab := { Cell.reset.fab with creditWire := [(0, 3), (447, 17)] } }
    let s := withCell tcell x
    tcell.present = true ∧ s.cells.wf .reset = true ∧ (s.cell tcell).fab.credits.wf 0 = true ∧ (s.cell tcell).fab.creditWire.wf 0 = true := by decide +kernel

theorem witness_SwitchGrants : ((withCell tcell { Cell.reset with mode := .running }).cell tcell).mode = .running ∧
    ((withCell tcell { Cell.reset with mode := .halted }).cell tcell).mode = .halted ∧ (State.reset.cell tcell).mode = .empty := by decide +kernel

/-- Fold 0 uses steering unit 3 or junction 1, whose output track 0 holds a credit (R147, R149, R151). -/
def pairing (steer : BitVec 64) (route : BitVec 64) (q : PairUnit) : Cell :=
  let x : Cell := Cell.reset
  { x with
    regs := { x.regs with cellControl := 0x4001, steer := [(3, steer)], junction := [(1, 1)], route := [(0, route)] }
    fab := { x.fab with credits := [(0, 1)], steer := [(3, q)], junction := [(1, q)] } }

theorem witness_SteeringFires :
    (let x := pairing 1 27 { PairUnit.zero with ctrl := [ctlToken], data := [token, token] }
     let q := x.fab.steer.get .zero 3
     x.regs.steerFold 3 = some 0 ∧ q.ctrl = ctlToken :: [] ∧ token.tag = ctlToken.tag ∧ token.gen = ctlToken.gen ∧ x.unitCredit 0 3 3 q.out.length = true ∧
       (x.regs.steerOf 0 3).mask = false ∧ q.data = token :: token :: []) ∧
    (let x := pairing 3 27 { PairUnit.zero with ctrl := [ctlToken], data := [token] }
     let q := x.fab.steer.get .zero 3
     x.regs.steerFold 3 = some 0 ∧ q.ctrl = ctlToken :: [] ∧ x.unitCredit 0 3 3 q.out.length = true ∧ (x.regs.steerOf 0 3).mask = true ∧ q.data = token :: []) := by
  decide +kernel

theorem witness_JunctionFires :
    let x := pairing 0 12 { PairUnit.zero with ctrl := [token], data := [token] }
    let q := x.fab.junction.get .zero 1
    tcell.present = true ∧ x.regs.junctionFold 1 = some 0 ∧ q.data = token :: [] ∧ q.ctrl = token :: [] ∧ x.unitCredit 0 4 1 q.out.length = true := by decide +kernel

theorem witness_SteeringTimesOut :
    let w := idle (pairing 1 27 { PairUnit.zero with data := [token] })
    let q := w.cell.fab.steer.get .zero 3
    q.waiting = true ∧ q.pairs (w.cell.regs.steerNeed 3) = false ∧ q.timedOut = false := by decide +kernel

/-! ### Delivered packets -/

/-- An engine with a cell, and its router with delivered packets. -/
def holding (c : Coord) (x : Cell) (inbox : List Packet) : State := { withCell c x with routers := [(c.key, { Router.reset with inbox })] }
/-- The same once the packet has been taken. -/
def taken (c : Coord) (x : Cell) (p : Packet) : State := (holding c x [p]).mapRouter c fun r => { r with inbox := [] }

theorem delivers_taken (c : Coord) (x : Cell) (test : Packet → Bool) (p : Packet) (h : (c.present && test p) = true) :
    (holding c x [p]).Delivers c test p (taken c x p) := by
  simp only [Bool.and_eq_true] at h
  refine ⟨h.1, ?_⟩
  simp [holding, taken, State.takeInbox, State.router, SMap.get, takeFirst, h.2]

/-- What a PUT or a FLOCK_DOWN copy can meet: nothing in its way, a taken bank slot, a repetition, a re-send that cannot be told from one, a bad CRC. -/
theorem witness_PutArrives : ∀ type ∈ [tPut, tFlockDown],
    let p := (packet type 64 32).seal
    let x : Cell := Cell.reset
    let w := fun (x : Cell) (p : Packet) => (taken tcell x p).work tcell
    let again := { p with attempt := 1 }.seal
    let heard : Cell := { x with mesh := { x.mesh with filter := [{ src := mcell, req := 0, tag := 1, seq := false, at_ := 0 }] } }
    let unsure : Cell := { x with mesh := { x.mesh with unsureUntil := 5 } }
    let busy : Cell := { x with mode := .running, seq := { x.seq with slots := [(1, true)] } }
    (holding tcell x [p]).Delivers tcell (isRequestOf type) p (taken tcell x p) ∧ (holding tcell heard [again]).Delivers tcell (isRequestOf type) again (taken tcell heard again) ∧
    (holding tcell unsure [again]).Delivers tcell (isRequestOf type) again (taken tcell unsure again) ∧
    (holding tcell busy [p]).Delivers tcell (isRequestOf type) p (taken tcell busy p) ∧
    (holding tcell x [packet type 64 32]).Delivers tcell (isRequestOf type) (packet type 64 32) (taken tcell x (packet type 64 32)) ∧
    p.forGate = false ∧ x.mesh.port = none ∧
    p.crcOk = true ∧ again.crcOk = true ∧ (packet type 64 32).crcOk = false ∧ inPadWindow p.offset = true ∧ padAccessOk tcell.kind p.offset p.len = true ∧
    (w x p).cell.mesh.view p.src p.req p.tag p.seq p.attempt 0 = .fresh ∧ (w x p).mustWait p p.offset p.len = false ∧
    (w busy p).cell.mesh.view p.src p.req p.tag p.seq p.attempt 0 = .fresh ∧ (w busy p).mustWait p p.offset p.len = true ∧
    (w heard again).cell.mesh.view again.src again.req again.tag again.seq again.attempt 0 = .duplicate ∧
    (w unsure again).cell.mesh.view again.src again.req again.tag again.seq again.attempt 0 = .unsure := by
  intro type h
  refine ⟨delivers_taken _ _ _ _ ?_, delivers_taken _ _ _ _ ?_, delivers_taken _ _ _ _ ?_, delivers_taken _ _ _ _ ?_, delivers_taken _ _ _ _ ?_, ?_⟩ <;>
    (revert type; decide +kernel)

theorem witness_GetArrives :
    let x : Cell := Cell.reset
    let none_ := (packet 2 64 0).seal
    let some_ := (packet 2 64 32).seal
    let reg := (packet 2 0x3F0040 8).seal
    let window : MergeWindow := { line := 1, data := Payload.ofNat 64 5, since := 0, reads := [], closed := false }
    let open_ : Cell := { x with mesh := { x.mesh with windows := [window] } }
    (holding mcell open_ [some_]).Delivers mcell (isRequestOf tGet) some_ (taken mcell open_ some_) ∧
    (holding tcell x [none_]).Delivers tcell (isRequestOf tGet) none_ (taken tcell x none_) ∧ (holding tcell x [some_]).Delivers tcell (isRequestOf tGet) some_ (taken tcell x some_) ∧
    (holding tcell x [reg]).Delivers tcell (isRequestOf tGet) reg (taken tcell x reg) ∧
    (holding mcell x [some_]).Delivers mcell (isRequestOf tGet) some_ (taken mcell x some_) ∧
    mcell.kind = .m ∧ padAccessOk mcell.kind 64 32 = true ∧ ((taken mcell x some_).work mcell).mustWait some_ some_.offset some_.len = false ∧
    none_.forGate = false ∧ some_.forGate = false ∧ reg.forGate = false ∧
    none_.crcOk = true ∧ some_.crcOk = true ∧ reg.crcOk = true ∧ x.mesh.port = none ∧ x.mesh.windows = [] ∧ tcell.kind ≠ .m ∧
    padAccessOk tcell.kind 64 0 = true ∧ padAccessOk tcell.kind 64 32 = true ∧ none_.len = 0 ∧ 0 < some_.len ∧
    ((taken tcell x some_).work tcell).mustWait some_ some_.offset some_.len = false ∧
    (let w := (taken mcell open_ some_).work mcell
     w.merges some_ = some window ∧ w.portBusy = false ∧ w.cell.mayRead = true) ∧
    inPadWindow reg.offset = false ∧ (((taken tcell x reg).work tcell).cell.readRegs tcell ((holding tcell x [reg]).dmaWait tcell) reg.offset reg.len).isSome = true := by
  refine ⟨delivers_taken _ _ _ _ ?_, delivers_taken _ _ _ _ ?_, delivers_taken _ _ _ _ ?_, delivers_taken _ _ _ _ ?_, delivers_taken _ _ _ _ ?_, ?_⟩ <;>
    decide +kernel

/-- A RED packet with one contributor (R216). -/
def redPacket : Packet :=
  { packet 6 64 16 with payload := Payload.ofNat 32 3, entries := [{ at_ := mcell, req := 0, tag := 1, seq := false, attempt := 0, byte := 0, len := 0 }] }.seal

theorem witness_TallyAddAndRedArrive :
    let x : Cell := Cell.reset
    let add := (packet 3 5 0).seal
    (holding tcell x [add]).Delivers tcell (isRequestOf tTallyAdd) add (taken tcell x add) ∧
    (holding tcell x [redPacket]).Delivers tcell (isRequestOf tRed) redPacket (taken tcell x redPacket) ∧
    add.crcOk = true ∧ redPacket.crcOk = true ∧ ((taken tcell x add).work tcell).cell.mesh.view add.src add.req add.tag add.seq add.attempt 0 = .fresh ∧
    (let w := (taken tcell x redPacket).work tcell
     redPacket.offset % 32 = 0 ∧ inPadWindow redPacket.offset = true ∧ redPacket.offset + 32 ≤ w.here.kind.spadBytes ∧ w.cell.channelAt redPacket.offset = none ∧
     redPacket.aux % 16 ≤ 8 ∧ (∀ e ∈ redPacket.entries, w.cell.mesh.view e.at_ e.req e.tag e.seq e.attempt w.now = .fresh) ∧ w.mustWait redPacket redPacket.offset 32 = false) := by
  refine ⟨delivers_taken _ _ _ _ ?_, delivers_taken _ _ _ _ ?_, ?_⟩ <;> decide +kernel

theorem witness_RedCombinesInMemory : (idle Cell.reset).cell.pad.bytes.wf PByte.zero = true ∧ (idle Cell.reset).cell.channelAt redPacket.offset = none ∧ 3 < redPacket.offset := by
  decide +kernel

theorem witness_FlockUpArrives :
    let x : Cell := Cell.reset
    let p := (packet 4 64 0).seal
    let silent := { packet 4 64 0 with req := 6 }.seal
    (holding tcell x [p]).Delivers tcell (fun p => p.type == tFlockUp) p (taken tcell x p) ∧ p.crcOk = true ∧ p.posted = false ∧
    (holding tcell x [silent]).Delivers tcell (fun p => p.type == tFlockUp) silent (taken tcell x silent) ∧ silent.crcOk = true ∧ silent.posted = true ∧
    (holding tcell x [packet 4 64 0]).Delivers tcell (fun p => p.type == tFlockUp) (packet 4 64 0) (taken tcell x (packet 4 64 0)) ∧ (packet 4 64 0).crcOk = false ∧ (packet 4 64 0).posted = false ∧
    (let q := { packet 4 64 0 with req := 6 }
     (holding tcell x [q]).Delivers tcell (fun p => p.type == tFlockUp) q (taken tcell x q) ∧ q.crcOk = false ∧ q.posted = true) := by
  refine ⟨delivers_taken _ _ _ _ ?_, ?_, ?_, delivers_taken _ _ _ _ ?_, ?_, ?_, delivers_taken _ _ _ _ ?_, ?_, ?_, delivers_taken _ _ _ _ ?_, ?_⟩ <;> decide +kernel

theorem witness_LoftRequestsArrive :
    let x : Cell := Cell.reset
    let rd := (packet 7 393215 0).seal
    let wr := { packet 8 0 0 with payload := Payload.ofNat 64 5 }.seal
    (holding mcell x [rd]).Delivers mcell (isRequestOf tLoftRd) rd (taken mcell x rd) ∧ rd.crcOk = true ∧ loftRequestBad mcell rd = false ∧
    ((taken mcell x rd).vault (cellVault mcell)).lost = false ∧
    (holding mcell x [wr]).Delivers mcell (isRequestOf tLoftWr) wr (taken mcell x wr) ∧ wr.crcOk = true ∧ loftRequestBad mcell wr = false ∧
    ((taken mcell x wr).vault (cellVault mcell)).lost = false ∧ ((taken mcell x wr).cell mcell).mesh.view wr.src wr.req wr.tag wr.seq wr.attempt 0 = .fresh ∧
    (∀ q ∈ ((taken mcell x wr).vault (cellVault mcell)).queue, q.copyOf wr = false) := by
  refine ⟨delivers_taken _ _ _ _ ?_, ?_, ?_, ?_, delivers_taken _ _ _ _ ?_, ?_, ?_, ?_, ?_, ?_⟩ <;> decide +kernel

/-- A GET of the sequencer that is outstanding under tag 1. -/
def asked : Outstanding :=
  { pkt := packet 2 0 32, sentAt := 0, resent := false, local_ := some 64, arrival := none, by_ := { fold := 0, entry := 0, iter := 0 }, line := 0, acks := 0, drops0 := 0, drops1 := 0, members := none }
/-- A cell with it. -/
def asking : Cell := { Cell.reset with mesh := { Cell.reset.mesh with out := [asked] } }
/-- The requester entry and the packet of a MULTI_REPLY for it (R213). -/
def requester : Contributor := { at_ := tcell, req := 0, tag := 1, seq := false, attempt := 0, byte := 0, len := 32 }
def multi : Packet := { packet 12 0 0 with payload := Payload.ofNat 64 5, entries := [requester] }.seal

theorem witness_ResponsesArrive : (∀ type ∈ [tAck, tNack, tFanout, tDrop, tReply],
      let p := (packet type 0 0).seal
      (holding tcell asking [p]).Delivers tcell (fun p => p.type == type) p (taken tcell asking p) ∧ p.crcOk = true ∧
      ((taken tcell asking p).work tcell).cell.matching p = some asked) ∧
    (let p := (packet tReply 0 32).seal
     BitVec.ofNat 16 p.offset = Codes.ok ∧ asked.local_ = some 64 ∧ ((taken tcell asking p).work tcell).mustWait p 64 p.len = false) ∧
    (holding tcell asking [multi]).Delivers tcell (fun p => p.type == tMultiReply) multi (taken tcell asking multi) ∧
    (let p := multi.entryReply requester
     p.crcOk = true ∧ ((taken tcell asking multi).work tcell).cell.matching p = some asked ∧ multi.crcOk = true ∧ multi.entries = [requester] ∧
     (((taken tcell asking multi).work tcell).replyArrive p).isSome = true) := by
  refine ⟨?_, ?_, delivers_taken _ _ _ _ ?_, ?_⟩
  · intro type h
    refine ⟨delivers_taken _ _ _ _ ?_, ?_, ?_⟩ <;> (revert type; decide +kernel)
  all_goals decide +kernel

theorem witness_MeshTimers : tcell.present = true ∧ State.reset.flipPending = false ∧
    ((withCell tcell asking).cell tcell).mesh.out.find? (fun o => o.pkt.req == 0 && o.pkt.tag == 1) = some asked ∧
    (let x : Cell := { Cell.reset with mesh := { Cell.reset.mesh with resting := [(79, 8)] } }
     ((withCell tcell x).cell tcell).mesh.resting.get 0 (16 * 4 + 15) ≠ 0) ∧
    (let x : Cell := { Cell.reset with mesh := { Cell.reset.mesh with windows := [{ line := 6143, data := Payload.ofNat 64 1, since := 0, reads := [requester], closed := true }] } }
     ((withCell mcell x).cell mcell).windowDue 6143 = true ∧ (((withCell mcell x).work mcell).closeWindow 6143).isSome = true) ∧
    (({ State.reset with routers := [(tcell.key, { Router.reset with lanes := [(36, [packet 1 0 32])] })] } : State).router tcell).head 4 4 = some (packet 1 0 32) ∧ (packet 1 0 32).expired 0 = false ∧ (packet 1 0 32).expired 3 = true := by
  decide +kernel
/-! ### Routers -/

/-- An engine with a packet at a head of its router. -/
def atHead (c : Coord) (lanes : List (Nat × List Packet)) : State := { State.reset with routers := [(c.key, { Router.reset with lanes })] }

theorem witness_PacketHops : tcell.present = true ∧
    ((atHead tcell [(39, [packet 1 0 32])]).router tcell).head 4 7 = some (packet 1 0 32) ∧
    (let p := packet 1 0 32
     let s := atHead tcell [(36, [p])]
     (s.router tcell).head 4 4 = some p ∧ p.typeOk = true ∧ p.expired s.clock = false ∧ p.epoch = s.epoch ∧ p.type ≠ tFlockDown ∧ p.type ≠ tMultiReply ∧
       (s.router tcell).held 4 p = false ∧ s.lostRoute p.epoch p.dst.paddock = false ∧
       (s.router tcell).choose tcell p p.dst (onDroveRoad 4 4) (s.roomAt tcell) = .deliver) ∧
    (let p := { packet 1 0 32 with dst := ⟨200, 8⟩ }
     let s := atHead tcell [(36, [p])]
     (s.router tcell).head 4 4 = some p ∧ p.typeOk = true ∧ p.expired s.clock = false ∧ p.epoch = s.epoch ∧ (s.router tcell).held 4 p = false ∧
       s.lostRoute p.epoch p.dst.paddock = false ∧
       ∃ d ∈ [0, 1, 2, 3], ∃ l ∈ [0, 1, 2, 3, 4], (s.router tcell).choose tcell p p.dst (onDroveRoad 4 4) (s.roomAt tcell) = .move d l) ∧
    (let p := { packet 1 0 32 with dst := ⟨200, 8⟩ }
     let s : State := { State.reset with routers := [(tcell.key, { Router.reset with lanes := [(36, [p])], down := [0, 1, 2, 3] })] }
     (s.router tcell).head 4 4 = some p ∧ p.typeOk = true ∧ p.expired s.clock = false ∧ p.epoch = s.epoch ∧ (s.router tcell).held 4 p = false ∧
       s.lostRoute p.epoch p.dst.paddock = false ∧ (s.router tcell).choose tcell p p.dst (onDroveRoad 4 4) (s.roomAt tcell) = .dropDown) ∧
    (let p := { packet 1 0 32 with age := 1 }
     let s := atHead tcell [(36, [p])]
     (s.router tcell).head 4 4 = some p ∧ p.typeOk = true ∧ p.expired s.clock = true) ∧
    (let p := { packet 1 0 32 with epoch := true }
     let s := atHead tcell [(36, [p])]
     (s.router tcell).head 4 4 = some p ∧ p.typeOk = true ∧ p.expired s.clock = false ∧ p.epoch ≠ s.epoch ∧ s.oldValid = false) ∧
    (let p := packet 1 0 32
     let s : State := { State.reset with routers := [(tcell.key, { Router.reset with lanes := [(36, [p])], state := 2 })] }
     (s.router tcell).head 4 4 = some p ∧ p.typeOk = true ∧ p.expired s.clock = false ∧ p.epoch = s.epoch ∧ (s.router tcell).held 4 p = true) ∧
    (let p := { packet 1 0 32 with dst := ⟨200, 8⟩ }
     let full := (List.range 40).map fun k => (k, List.replicate 64 p)
     let s : State := { State.reset with routers := [(tcell.key, { Router.reset with lanes := [(36, [p])] }), ((⟨200, 1⟩ : Coord).key, { Router.reset with lanes := full })] }
     (s.router tcell).head 4 4 = some p ∧ p.typeOk = true ∧ p.expired s.clock = false ∧ p.epoch = s.epoch ∧ (s.router tcell).held 4 p = false ∧
       s.lostRoute p.epoch p.dst.paddock = false ∧ (s.router tcell).choose tcell p p.dst (onDroveRoad 4 4) (s.roomAt tcell) = .wait) := by decide +kernel

theorem witness_RedHeadsCombine :
    let good := { redPacket with aux := 17 }.seal
    let bad : Packet := { good with crc := good.crc + 1 }
    ∀ a ∈ [good, bad], ∀ b ∈ [good, bad],
      let s := atHead tcell [(0, [a]), (28, [b])]
      (s.router tcell).head 0 0 = some a ∧ (s.router tcell).head 3 4 = some b ∧ redFits a b = true ∧ good.crcOk = true ∧ bad.crcOk = false ∧
        ((s.router tcell).lanes.get [] 56).any (fun p => p.type == tRed) = false ∧ (s.router tcell).held 0 a = false ∧ (s.router tcell).held 3 b = false := by
  decide +kernel

theorem witness_RoutingFlip :
    (let s : State := { State.reset with boot := { BootState.reset with routed := true } }
     s.boot.routed = true ∧ s.oldValid = false ∧ s.flipPending = false ∧ tcell.neighbour 2 = some ⟨200, 1⟩ ∧ edgeOf tcell 2 ∉ s.defects.meshDown) ∧
    (let s : State := { State.reset with flipPending := true, oldValid := true }
     s.flipPending = true ∧ s.oldValid = true ∧ ∀ f, f < fieldCount → s.defects.misses.get 0 f = 0) ∧
    (let s : State := { State.reset with oldValid := true }
     s.oldValid = true ∧ s.flipPending = false ∧ s.flipWaiting = 0) := by decide +kernel

/-- An engine in a flip whose paddocks `on` are powered. -/
def flipping (on : List Nat) : State :=
  { State.reset with flipPending := true, defects := { DefectState.reset with paddocks := on.map fun p => (p, PaddockMode.powered) } }

theorem witness_RoutingFlip_installs :
    let s := flipping (List.range 272)
    s.flipPending = true ∧ s.oldValid = false ∧ (s.writeVersion (!s.epoch) []).versionMeets (!s.epoch) = true := by decide +kernel

/-- Two paddocks that are powered alone. -/
def apart : State := (flipping [0, 100]).writeVersion true []

theorem apart_routers (c : Coord) : apart.router c = .reset := by
  have : apart.routers = [] := by decide +kernel
  simp [State.router, this, SMap.get]

theorem apart_live (k : Nat) (h : k ∈ apart.liveRouters) : apart.paddockLive (Coord.ofKey k).paddock = true := by
  simp only [State.liveRouters, List.mem_flatMap, List.mem_map, List.mem_filter, Bool.and_eq_true, List.mem_range] at h
  obtain ⟨f, hf, c, ⟨hc, hl, _⟩, rfl⟩ := h
  have hx : c.x < 960 := by
    simp only [fieldCells, rectCells, List.mem_flatMap, List.mem_map] at hc
    obtain ⟨y, _, x, hx, rfl⟩ := hc
    have : x < 8 * (12 * colOfField f) + 8 * 12 := by
      simp only [upFrom, List.mem_map, List.mem_range] at hx
      omega
    have : 8 * (12 * colOfField f) + 8 * 12 ≤ 960 := by
      have := (show ∀ f < fieldCount, 8 * (12 * colOfField f) + 8 * 12 ≤ 960 by decide +kernel) f hf
      exact this
    simp only
    omega
  have : Coord.ofKey c.key = c := by
    cases c
    simp only [Coord.ofKey, Coord.key, Coord.mk.injEq] at hx ⊢
    omega
  rwa [this]

/-- Two paddocks that are not neighbours cannot reach each other. -/
theorem witness_RoutingFlip_refuses :
    let s := flipping [0, 100]
    s.flipPending = true ∧ s.oldValid = false ∧ (s.writeVersion (!s.epoch) []).versionMeets (!s.epoch) = false := by
  refine ⟨rfl, rfl, ?_⟩
  have one : apart.staircaseOnly true = false := by decide +kernel
  have two : apart.droveReaches true 0 apart.liveRouters = false := by
    simp only [State.droveReaches, Bool.and_eq_false_imp, List.all_eq_false]
    refine fun _ => ⟨(⟨143, 244⟩ : Coord).key, ?_, ?_⟩
    · have there : (⟨143, 244⟩ : Coord) ∈ fieldCells 25 := by
        simp only [fieldCells, rectCells, upFrom, List.mem_flatMap, List.mem_map, List.mem_range]
        exact ⟨244, ⟨4, by decide, by decide +kernel⟩, 143, ⟨47, by decide, by decide +kernel⟩, rfl⟩
      exact List.mem_flatMap.mpr ⟨25, List.mem_range.mpr (by decide), List.mem_map_of_mem (List.mem_filter.mpr ⟨there, by decide +kernel⟩)⟩
    · have hop : (apart.wayOut true 0 (Coord.ofKey (⟨143, 244⟩ : Coord).key)).2.toList.flatMap (acrossKey (⟨143, 244⟩ : Coord).key) =
          [(⟨144, 244⟩ : Coord).key] := by decide +kernel
      have out : (⟨144, 244⟩ : Coord).key ∉ apart.liveRouters := fun h =>
        absurd (apart_live _ h) (by decide +kernel)
      have away : decide ((Coord.ofKey (⟨143, 244⟩ : Coord).key).paddock = 0) = false := by decide +kernel
      simp [away, hop, out]
  have none_ : apart.unrouted true = [] := by
    have : apart.routers = [] := by decide +kernel
    simp [State.unrouted, this]
  show apart.versionMeets true = false
  simp only [State.versionMeets, one, none_, Bool.false_or, List.not_mem_nil, decide_false, Bool.not_false, List.filter_true, Bool.and_true, Bool.and_eq_false_imp,
    List.all_eq_false]
  intro _
  refine ⟨0, ?_, ?_⟩
  · simp only [List.mem_filter, List.mem_range]
    exact ⟨by decide, by decide +kernel⟩
  · simp [two]

/-! ### Run control -/

/-- The body of an image of one block with musters 1 and 2 and nothing else (R160, R166). -/
def body : List Byte :=
  List.replicate 8 0 ++ [1, 1] ++ List.replicate 30 0 ++ [2, 0, 0, 0, 72, 0, 0, 0] ++ List.replicate 24 0 ++ [1, 0, 2, 0]

/-- Region 1: block (25, 0), whose image is `body`. -/
def region (mode : RegionMode) : Region :=
  { mode, bx := 25, oy := 0, w := 1, h := 1, musters := [1, 2], body, digest := [], slot := none, committed := 4, pendingStep := none, run := none, halts := [],
    aborts := [], forced := none, forcedBy := none, faults := [], load := none, starting := none, releasing := false, peerLost := false, heldStep := none, peersMoved := [],
    trees := [], suspects := [] }

/-- An engine that is up and holds region 1, its cells with one active fold. -/
def up (r : Region) : State :=
  { State.reset with
    boot := { BootState.reset with powered := true, refclk := true, stage := some 9, running := some [], routed := true }
    regions := [(1, r)]
    cells := (rectCells 25 0 1 1).map fun c => (c.key, { running 0 with mode := .loaded }) }

theorem takes_up (r : Region) (m : HcpMsg) (op : Nat) (h : (m.opcode == op && m.src.port == .host && headerFits m) = true) : (up r).Takes m op := by
  simp only [Bool.and_eq_true, beq_iff_eq] at h
  exact ⟨h.1.1, h.1.2, rfl, rfl, rfl, h.2⟩

/-- A command message for region 1. -/
def cmd (op : Nat) : HcpMsg := { hcp with opcode := op }

theorem witness_StartMakesReady : ∀ mode ∈ [RegionMode.loaded, .halted],
    let r := region mode
    let s := up r
    let k := s.kept (cmd opStart)
    s.Takes (cmd opStart) opStart ∧ k.mustQueue 1 = false ∧ k.regions.find 1 = some r ∧ r.mode = mode ∧ r.peerLost = false ∧ k.condemnedAt r = none ∧
      (k.liveCells r).all (fun c => (k.cell c).regs.startable) = true ∧ k.windowsOpen (Image.ofBody r.body) = true ∧ k.coreOnRef r = false := by
  intro mode h
  refine ⟨takes_up _ _ _ ?_, ?_⟩ <;> (revert mode; decide +kernel)

theorem witness_StepRuns :
    let r := region .ready
    let s := up r
    let m := { cmd opStep with step := 5 }
    let k := s.kept m
    s.Takes m opStep ∧ k.mustQueue 1 = false ∧ k.regions.find 1 = some r ∧ r.mode = .ready ∧ r.peerLost = false ∧ r.peersMoved = [] ∧ k.condemnedAt r = none ∧
      m.step = r.committed + 1 ∧ r.committed < 0xFFFFFFFF ∧ bitAt m.flags 0 = false := by
  refine ⟨takes_up _ _ _ ?_, ?_⟩ <;> decide +kernel

theorem witness_CommitCommits : ∀ mode ∈ [RegionMode.ready, RegionMode.halted],
    let r : Region := { region mode with pendingStep := some 5 }
    let s := up r
    let m := { cmd opCommit with step := 5 }
    let k := s.kept m
    s.Takes m opCommit ∧ k.mustQueue 1 = false ∧ k.regions.find 1 = some r ∧ (r.mode = .ready ∨ r.mode = .halted) ∧ r.pendingStep = some m.step ∧ k.condemned r = none := by
  intro mode h
  refine ⟨takes_up _ _ _ ?_, ?_⟩ <;> (revert mode; decide +kernel)

theorem witness_RelocateBegins :
    let r := region .loaded
    let s := up r
    let m := { cmd opRelocate with bx := 26 }
    let k := s.kept m
    s.Takes m opRelocate ∧ k.mustQueue 1 = false ∧ k.regions.find 1 = some r ∧ r.mode = .loaded ∧ r.peerLost = false ∧
      rectsMeet r.bx r.oy r.w r.h m.bx m.oy r.w r.h = false ∧ k.linksOk 1 m.bx m.oy (Image.ofBody r.body) r.body = true ∧
      k.placeOk 1 m.bx m.oy false (Image.ofBody r.body) r.body = true := by
  refine ⟨takes_up _ _ _ ?_, ?_⟩ <;> decide +kernel

theorem witness_HaltHalts : ∀ mode ∈ [RegionMode.ready, .loaded, .halted, .running, .aborting],
    (up (region mode)).Takes (cmd opHalt) opHalt ∧ ((up (region mode)).kept (cmd opHalt)).regions.find 1 = some (region mode) ∧ (region mode).mode = mode := by
  intro mode h
  refine ⟨takes_up _ _ _ ?_, ?_⟩ <;> (revert mode; decide +kernel)

/-- An engine that holds a region whose arrival is posted to the leader with FLAG 0, or not posted (R316). -/
def doubtful (r : Region) (doubt : Bool) : State :=
  { up r with musters := if doubt then [(2, { Muster.zero with waiting := some (3, false, 0) })] else [] }

theorem witness_AbortForces : ∀ mode ∈ [RegionMode.running, .ready, .aborting, .loading, .loaded, .halted], ∀ doubt ∈ [true, false],
    let s := doubtful (region mode) doubt
    s.Takes (cmd opAbort) opAbort ∧ (s.kept (cmd opAbort)).regions.find 1 = some (region mode) ∧ (region mode).mode = mode ∧
      (s.kept (cmd opAbort)).hasPosted 1 (region mode) = doubt := by
  intro mode h doubt h'
  refine ⟨⟨rfl, rfl, rfl, rfl, rfl, rfl⟩, ?_⟩
  revert mode doubt
  decide +kernel

theorem witness_ForcedBoundary : (up (region .running)).regions.find 1 = some (region .running) ∧ (up (region .ready)).regions.find 1 = some (region .ready) ∧
    (region .running).mode = .running ∧ (region .ready).mode ≠ .running := by decide +kernel

/-- A LOAD of two bytes, and what has come of it. -/
def loadMsg : HcpMsg := { cmd opLoad with region := 2, length := 2 }
def coming (pieces : List (Nat × List Byte)) : PendingLoad := { cmd := refOf loadMsg, msg := loadMsg, pieces, last := 0 }
def loading (pieces : List (Nat × List Byte)) : State := { up (region .loaded) with hcp := { HcpState.reset with loads := [coming pieces] } }
/-- A piece. -/
def piece (offset : Nat) : HcpMsg := { loadMsg with opcode := opLoadData, length := 1, dataOffset := offset, payload := [7] }

theorem witness_LoadTakesPieces :
    (up (region .loaded)).Takes loadMsg opLoad ∧
    (let s := up (region .loaded)
     (s.kept loadMsg).mustQueue 2 = false ∧ s.modeOf 2 = .empty ∧ s.regions.find 2 = none ∧ 0 < loadMsg.length ∧ s.hcp.loadOf loadMsg.src loadMsg.seq = none) ∧
    (∀ p ∈ [[], [(0, [(7 : Byte)])]],
      let s := loading p
      let m := piece p.length
      let new : PendingLoad := { coming p with pieces := p ++ [(m.dataOffset, m.payload)], last := 0 }
      m.opcode = opLoadData ∧ m.src.port = .host ∧ m.version = 1 ∧ s.hcpServed = true ∧ s.hcp.loadOf m.src m.seq = some (coming p) ∧ m.payload.length = m.length ∧
        1 ≤ m.length ∧ m.length ≤ 8192 ∧ m.dataOffset + m.length ≤ loadMsg.length ∧ loadMsg ∉ s.hcp.waiting ∧ new.envelope.isSome = decide (p ≠ [])) ∧
    ((loading []).hcp.loadOf loadMsg.src loadMsg.seq = some (coming []) ∧ (coming []).envelope = none) := by
  refine ⟨takes_up _ _ _ ?_, ?_⟩ <;> decide +kernel
theorem witness_LoadAccepts : (loading [(0, [7, 7])]).hcp.loadOf loadMsg.src loadMsg.seq = some (coming [(0, [7, 7])]) ∧
    (coming [(0, [7, 7])]).envelope = some [7, 7] ∧ (loading [(0, [7, 7])]).regions.find 2 = none := by decide +kernel

/-- A load of region 1's image. -/
def job (wait sweeping : Bool) : LoadJob :=
  { cmd := refOf (cmd opLoad), kind := .new, body := body, step := 0, bx := 25, oy := 0, waitIdle := wait, installed := sweeping, sweeping, back := .empty }

theorem witness_LoadingGoesOn :
    (let r : Region := { region .loading with load := some (job true false) }
     let s := up r
     s.regions.find 1 = some r ∧ (job true false).waitIdle = true ∧ r.releasing = false ∧ s.regionIdle r = true ∧ r.mode = .loading ∧ s.flipPending = false ∧ s.oldValid = false) ∧
    (let r : Region := { region .loading with load := some (job false true) }
     let s := up r
     s.regions.find 1 = some r ∧ (job false true).sweeping = true ∧ r.releasing = false ∧ (job false true).kind = .new ∧ (s.endSweep r).targetFault (job false true) = none) ∧
    (let r : Region := { region .loaded with starting := some (refOf (cmd opStart)) }
     (up r).regions.find 1 = some r ∧ r.load = none ∧ r.releasing = false ∧ r.starting = some (refOf (cmd opStart))) ∧
    (let r := region .loaded
     (up r).regions.find 1 = some r ∧ r.load = none ∧ ∀ e ∈ (up r).regions, 1 ∈ e.2.peersMoved → e.2.mode ≠ .running ∧ e.2.mode ≠ .aborting) ∧
    (let r : Region := { region .halted with releasing := true }
     (up r).regions.find 1 = some r ∧ r.releasing = true ∧ (up r).referrerRuns 1 = false) := by decide +kernel

/-- A step in progress. -/
def run (released : Bool) (ended : Option Bool) : StepRun := { cmd := refOf (cmd opStep), step := 5, hostCommit := false, released, ended }

theorem witness_StepStartsAndEnds :
    (let r : Region := { region .running with run := some (run false none) }
     (up r).regions.find 1 = some r ∧ r.run = some (run false none) ∧ r.mode = .running ∧ (run false none).released = false) ∧
    (let r : Region := { region .running with run := some (run true (some false)) }
     (up r).regions.find 1 = some r ∧ r.run = some (run true (some false)) ∧ (run true (some false)).ended = some false ∧ r.faults = [] ∧ r.halts = [] ∧
       (Image.ofBody r.body).collectives = [] ∧ (run true (some false)).hostCommit = false) := by decide +kernel

/-- A latched fault. -/
def report : FaultReport := { code := Codes.rangeEscape, fold := 0, entry := 0, iter := 0, detail := 0 }

theorem witness_BoundaryEnds :
    (let x : Cell := { Cell.reset with fault := { FaultState.reset with reports := [report] } }
     let s := withCell ⟨192, 0⟩ x
     (fieldCells 0).find? (fun c => !(s.cell c).fault.reports.isEmpty) = some ⟨192, 0⟩ ∧ (s.cell ⟨192, 0⟩).fault.reports = [report]) ∧
    (let r : Region := { region .aborting with suspects := [tcell] }
     tcell.present = true ∧ (up r).regions.find? (fun e => decide (tcell ∈ e.2.suspects)) = some (1, r) ∧ r.mode = .aborting) ∧
    (let r : Region := { region .aborting with run := some (run true none) }
     (up r).regions.find 1 = some r ∧ (up r).drained 1 r = true ∧ r.suspects = [] ∧ (up r).reportsDue r = false ∧ (up r).inDoubt r = false ∧ r.run = some (run true none)) := by decide +kernel

theorem witness_CommandsTurnedAway : ∀ op ∈ [opLoadData, opLoad, opStart, opStep, opHalt, opAbort, opRelocate, opCommit],
    (let m : HcpMsg := { cmd op with src := { src with port := .field } }
     m.opcode = op ∧ m.src.port = .field) ∧
    ((cmd op).opcode = op ∧ (cmd op).src.port = .host ∧ State.reset.boot.refclk = false ∧
      ({ State.reset with boot := { BootState.reset with minimal := true } } : State).boot.minimal = true) ∧
    (∀ done ∈ [none, some [(1 : Byte)]],
      let rec_ : CmdRecord := { seq := 7, done }
      let s : State := { up (region .ready) with hcp := { HcpState.reset with records := [(src, [rec_])] } }
      s.hcpServed = true ∧ s.hcp.record (cmd op).src (cmd op).seq = some rec_) ∧
    (let s := up (region .ready)
     let early : State := { s with boot := { s.boot with stage := some 8 } }
     early.hcpServed = true ∧ early.hcp.record (cmd op).src (cmd op).seq = none ∧ early.boot.stage ≠ some 9 ∧ s.hcpServed = true ∧
       headerFits { cmd op with flags := 4 } = false ∧ s.hcp.loadOf (cmd op).src (cmd op).seq = none) := by
  decide +kernel

/-- A transfer of cell firmware to one cell. -/
def transfer (sent : Bool) : Transfer :=
  { number := 3, use := .firmware .t, flock := 4095, payload := [1, 2, 3], members := [tcell.key], missing := [], round := 0, sent, done := false }
/-- Field 0 with a transfer in hand. -/
def sending (sent : Bool) : State := { State.reset with hubs := [(0, { Hub.zero with transfers := [transfer sent] })] }
/-- A posted packet of chunk 0 of transfer 3. -/
def posted : Packet := { packet 1 (3 * 2 ^ 13 + 1) 64 with req := 7, payload := Payload.ofNat 64 1 }.seal

theorem witness_Broadcasts :
    ((sending false).hub 0).transfers.find? Transfer.toSend = some (transfer false) ∧ ((sending false).transferBegin 0 (transfer false)).isSome = true ∧
    (holding tcell Cell.reset [posted]).Delivers tcell (fun p => p.posted && (p.type == tPut || p.type == tFlockDown)) posted (taken tcell Cell.reset posted) ∧
    posted.crcOk = true ∧ ((taken tcell Cell.reset posted).cell tcell).mode = .empty ∧
    (((taken tcell Cell.reset posted).receivers.get .zero tcell.key).take 3 0 1 (posted.payload.map (·.data))).2 = none ∧
    (let x : Cell := { Cell.reset with mode := .loaded }
     (holding tcell x [posted]).Delivers tcell (fun p => p.posted && (p.type == tPut || p.type == tFlockDown)) posted (taken tcell x posted) ∧
       ((taken tcell x posted).cell tcell).mode ≠ .empty) ∧
    (let s : State := { sending true with receivers := [(tcell.key, { Receiver.zero with got := [(3, { bitmap := 1, accepted := 1, count := 1, chunks := [(0, [1, 2, 3])] })] })] }
     (s.hub 0).transfers.find? (fun t => t.sent) = some (transfer true) ∧ ((s.advanceTo (s.clock + 4)).sweepFinds (transfer true) []).2 = []) ∧
    (let t := { transfer false with flock := 0 }
     ({ State.reset with hubs := [(0, { Hub.zero with transfers := [t] })] } : State).hub 0 = { Hub.zero with transfers := [t] } ∧ Transfer.toSend t = true ∧ t.flock = 0) := by
  refine ⟨?_, ?_, delivers_taken _ _ _ _ ?_, ?_, ?_, ?_, ⟨delivers_taken _ _ _ _ ?_, ?_⟩, ?_, ?_⟩ <;> decide +kernel

/-! ### Musters -/

/-- A muster of two cells of one block, with a completion on its way to a node, and one count there already or not. -/
def muster (counted : Nat) : Muster :=
  { Muster.zero with region := 1, cells := [tcell.key, tcell.key + 1], top := 0, counts := if counted = 0 then [] else [(treeNode 0 tcell, (counted, 0))]
                     transit := [(treeNode 0 tcell, false, false)] }
/-- The engine with a muster 255. -/
def withMuster (m : Muster) : State := { State.reset with musters := [(255, m)] }

theorem witness_MusterRounds :
    (let u := (withMuster (muster 0)).muster 255
     u.transit = (treeNode 0 tcell, false, false) :: [] ∧ State.reset.nodeOut (treeNode 0 tcell) = false ∧ u.countAt (treeNode 0 tcell) false + 1 < u.need (treeNode 0 tcell)) ∧
    (let u := (withMuster (muster 1)).muster 255
     u.transit = (treeNode 0 tcell, false, false) :: [] ∧ State.reset.nodeOut (treeNode 0 tcell) = false ∧ u.need (treeNode 0 tcell) ≤ u.countAt (treeNode 0 tcell) false + 1 ∧ treeNode 0 tcell = u.topNode ∧ u.isLinked = false) ∧
    (let u := (withMuster { muster 1 with top := 3 }).muster 255
     u.need (treeNode 0 tcell) ≤ u.countAt (treeNode 0 tcell) false + 1 ∧ treeNode 0 tcell ≠ u.topNode) ∧
    (tcell.present = true ∧ tcell.key ∈ ((withMuster { muster 0 with releases := [tcell.key] }).muster 255).releases) ∧
    (let u := (withMuster { muster 0 with members := [1, 2], waiting := some (true, false, 9) }).muster 255
     u.waiting = some (true, false, 9) ∧ u.leader ≠ State.reset.relend.engineId) := by decide +kernel

theorem witness_MusterReleaseAtCell : ∀ amount ∈ [0, 2], ∀ held ∈ [1, 0xFFFFFFFF],
    let q : RoundSignal := { tally := 3, amount, by_ := ⟨1, 2, 3⟩ }
    let x : Cell := { Cell.reset with tallies := [(3, { Tally.zero with value := held })], must := { CellMusters.reset with parts := [(7, { nextParity := true, pending := [q] })] } }
    let w := idle x
    w.cell.must.parts.wf { nextParity := false, pending := [] } = true ∧ w.cell.tallies.wf .zero = true ∧
      w.cell.must.parts.get { nextParity := false, pending := [] } 7 = { nextParity := true, pending := q :: [] } ∧ w.cell.must.overrun = none ∧
      (0 < amount) = decide (amount = 2) ∧ (0xFFFFFFFF < w.cell.tally 3 + amount) = decide (amount = 2 ∧ held = 0xFFFFFFFF) := by decide +kernel

/-! ### DMA channels and the loft -/

/-- A descriptor from loft line 0 to the cell's own scratchpad, one line long, signalling tally 47 (R239). -/
def descWord : Word256 := BitVec.ofNat 256 ((195 + 2 ^ 20 * 128) * 2 ^ 64 + 64 * 2 ^ 128 + 1 * 2 ^ 152 + 47 * 2 ^ 170 + 2 ^ 176)
def desc (started : Bool) (next : Nat) (lines : List DmaLine) : DmaDesc :=
  { addr := 256, word := descWord, invalid := false, started, base := 0, next, lines, failed := none, placed := none, recorded := false }
/-- Channel 3 of the M-cell with it. -/
def channel (d : DmaDesc) : State := { State.reset with dma := [(4 * mcell.key + 3, { DmaChannel.zero with queue := [d] })] }
/-- Its line, read. -/
def readLine : DmaLine := { index := 0, phase := .arrived, data := Payload.ofNat 64 9, status := Codes.ok, detail := 0 }

theorem witness_DmaChannel : channelOk mcell 3 = true ∧
    (let s := channel (desc false 0 [])
     (s.channel mcell 3).queue = desc false 0 [] :: [] ∧ (desc false 0 []).started = false ∧ (s.channel mcell 3).aborted = false ∧ (desc false 0 []).desc.waitEn = false ∧
       (desc false 0 []).desc.ok [] = true) ∧
    (let d := desc true 1 [readLine]
     let s := channel d
     ((s.settle mcell 3).channel mcell 3).aborted = false ∧
       ((s.settle mcell 3).channel mcell 3).queue.findSome? (fun d => (d.lines.find? fun l => l.phase == .arrived).map fun l => (d, l)) = some (d, readLine) ∧
       readLine.status = Codes.ok ∧ ((s.settle mcell 3).startWrite mcell 3 (d.base + readLine.index) d.desc readLine.index readLine.data).isSome = true) ∧
    (let d := desc true 1 []
     let s := channel d
     ((s.settle mcell 3).channel mcell 3).queue = d :: [] ∧ d.started = true ∧ d.lines = [] ∧ d.total ≤ d.next ∧ ((s.settle mcell 3).channel mcell 3).aborted = false ∧
       d.failed = none ∧ d.desc.signalTally ≤ 47 ∧ ((s.settle mcell 3).padTurn mcell 3 ((d.addr + 30) / 64) .status).isSome = true) ∧
    (let d := desc true 1 []
     let s := (channel d).setCell mcell { Cell.reset with mode := .running, seq := { Cell.reset.seq with slots := [((256 + 30) / 64, true)] } }
     ((s.settle mcell 3).channel mcell 3).queue = d :: [] ∧ ((s.settle mcell 3).channel mcell 3).aborted = false ∧
       (s.settle mcell 3).padTurn mcell 3 ((d.addr + 30) / 64) .status = none) ∧
    (let d := { desc false 0 [] with invalid := true }
     (channel d).channel mcell 3 = { DmaChannel.zero with queue := [d] } ∧ d.started = false ∧ d.desc.waitEn = false ∧ d.invalid = true) := by decide +kernel

/-- A vault with one request. -/
def vaultWith (q : LoftRequest) : State := { State.reset with loft := { LoftState.reset with vaults := [(0, { Vault.zero with queue := [q] })] } }
/-- A read and a write of line 31. -/
def lineRead : LoftRequest := { src := .mesh (packet 7 31 0), line := 31, write := none, accepted := false }
def lineWrite (accepted : Bool) : LoftRequest := { src := .mesh (packet 8 31 0), line := 31, write := some (Payload.ofNat 64 5), accepted }

theorem witness_VaultRequests : 0 < physicalVaults ∧
    (((vaultWith lineRead).vault 0).lost = false ∧ (((vaultWith lineRead).vault 0).queue.filter (·.accepted)).length < 256 ∧
      ((vaultWith lineRead).vault 0).nextRequest = some lineRead ∧ lineRead.write = none) ∧
    (((vaultWith (lineWrite false)).vault 0).nextRequest = some (lineWrite false) ∧ (lineWrite false).write = some (Payload.ofNat 64 5)) ∧
    (let q : LoftRequest := { lineWrite false with src := .channel 2 7 }
     ((vaultWith q).vault 0).lost = false ∧ (((vaultWith q).vault 0).queue.filter (·.accepted)).length < 256 ∧ ((vaultWith q).vault 0).nextRequest = some q ∧
       q.src = .channel 2 7 ∧ q.write = some (Payload.ofNat 64 5)) ∧
    (takeFirst (fun (q : LoftRequest) => q.accepted && q.line % 32 == 31) ((vaultWith { lineRead with accepted := true }).vault 0).queue =
      some ({ lineRead with accepted := true }, [])) ∧
    (takeFirst (fun (q : LoftRequest) => q.accepted && q.line % 32 == 31) ((vaultWith (lineWrite true)).vault 0).queue = some (lineWrite true, [])) ∧
    (let s : State := { State.reset with
       boot := { BootState.reset with powered := true }, defects := { DefectState.reset with paddocks := [((vaultCell 0).paddock, .powered)] } }
     s.boot.powered = true ∧ s.paddockLive (vaultCell 0).paddock = true) ∧
    ((State.reset.vault 0).lost = false ∧ (State.reset.vault 0).queue = [] ∧ ((State.reset.vault 0).read 5 []).2.2.uncorrectable ≤ (State.reset.vault 0).uncorrectable) := by
  decide +kernel

theorem witness_SpareTakesOver :
    let s : State := { State.reset with loft := { LoftState.reset with map := [(5, .pending)], assigned := [(61440, 5)] } }
    5 < logicalVaults ∧ s.loft.map.find 5 = some .pending ∧ s.loft.draining.get [] 5 = [] ∧ s.loft.assigned.find? (fun e => e.2 == 5) = some (61440, 5) := by decide +kernel

/-! ### Relend -/

/-- An engine with one Relend port. -/
def withPort (p : Nat) (x : Port) : State := { State.reset with relend := { RelendState.reset with ports := [(p, x)] } }
def upPort : Port := { Port.zero with mode := .up }
/-- A unit sent and not acknowledged. -/
def sentUnit : SentUnit := { seq := 7, credits := ⟨0, 0⟩, data := [] }

/-- The same with S8 past its tests, so that the ports' optics are powered (R354). -/
def lit (x : Port) : State := { withPort 63 x with boot := { BootState.reset with s8Tested := true } }
/-- The same with region 1 running. -/
def lanes (due : Bool) : State := { withPort 63 { upPort with laneFailed := [8], laneDue := due } with regions := [(1, region .running)] }

theorem witness_PortsChange : (((withPort 63 { upPort with replay := [sentUnit] }).port 63).mode = .up ∧ ((withPort 63 { upPort with replay := [sentUnit] }).port 63).replay ≠ []) ∧
    (((lit Port.zero).port 63).mode = .down ∧ (lit Port.zero).opticsOn = true) ∧
    (let s := lit { Port.zero with mode := .training }
     (s.port 63).mode = .training ∧ (s.port 63).laneFailed = [] ∧ s.opticsOn = true) ∧
    (((withPort 63 upPort).port 63).mode = .up ∧ ((withPort 63 upPort).port 63).laneFailed = [] ∧ ((withPort 63 upPort).port 63).spareFor = none) ∧
    (let x := (withPort 63 { upPort with spareFor := some 0 }).port 63
     x.mode = .up ∧ 8 ∉ x.laneFailed ∧ x.spareFor = some 0) ∧
    (((withPort 63 { upPort with laneFailed := [8] }).port 63).laneFailed = 8 :: [] ∧ ∀ e ∈ (withPort 63 { upPort with laneFailed := [8] }).regions, e.2.mode ≠ .running) ∧
    (((lanes true).port 63).laneFailed = 8 :: [] ∧ ((lanes true).port 63).laneDue = true) ∧
    (((lanes false).port 63).laneFailed = 8 :: [] ∧ ((lanes false).port 63).laneDue = false ∧ ∃ e ∈ (lanes false).regions, e.2.mode = .running) := by decide +kernel

/-- What a port is once a unit's acknowledgement, credits and data are in. -/
def afterUnit (x : Port) (u : LinkUnit) : Port := (x.acked 0 u.ack).unitData u

theorem witness_LinkUnits : ((withPort 0 upPort).port 0).mode = .up ∧ ({ unit with decoded := .uncorrectable } : LinkUnit).decoded = .uncorrectable ∧
    (unit.decoded = .clean ∧ unit.nak = false) ∧
    (∀ times ∈ [[], List.replicate 8 0],
      let x := { upPort with replay := [sentUnit], replayTimes := times }
      let u := { unit with nak := true }
      ((withPort 0 x).port 0).mode = .up ∧ u.decoded = .clean ∧ u.nak = true ∧ (afterUnit x u).replay ≠ [] ∧ ((afterUnit x u).replays 0).isSome = decide (times = [])) := by
  decide +kernel

theorem witness_UnitOrder :
    let p : Port := { Port.zero with rxSeq := 65535 }
    unit.decoded ≠ .uncorrectable ∧ p.rxSeq < 65536 ∧ p.early = [] ∧ p.nak = none ∧ (p.early.any fun v => v.seq == 62) = false ∧ ({ unit with seq := 65535 } : LinkUnit).seq = p.rxSeq ∧
      ({ unit with seq := 62 } : LinkUnit).seq = (p.rxSeq + 63) % 65536 ∧ 63 % 8 ≠ 0 ∧ ({ unit with seq := 63 } : LinkUnit).seq = (p.rxSeq + 64) % 65536 ∧
      ({ unit with seq := 32766 } : LinkUnit).seq = (p.rxSeq + 32767) % 65536 ∧ ({ unit with seq := 32767 } : LinkUnit).seq = (p.rxSeq + 32768) % 65536 := by decide +kernel

/-- A Relend frame. -/
def rframe (kind dst hop addr : Nat) : Frame :=
  { kind, poison := false, hold := false, dst, src := 9, srcPort := 2, hop, tag := 5, seq := false, attempt := 0, len := 64, addr, status := Codes.ok, amount := 0,
    payload := List.replicate 64 1, crc := 0 }
/-- A port that has received it. -/
def received (f : Frame) (routes : SMap (BitVec 32)) : State :=
  { State.reset with relend := { RelendState.reset with ports := [(2, { upPort with rx := [f], tags := [] })], routes } }

theorem witness_FramesTransit :
    (((received (rframe 1 7 14 0) []).takeFrame 2 fun f => f.dst != 0).isSome = true) ∧
    (let f := rframe 1 7 13 0
     let s := received f [(7, 0x1002)]
     ∃ t, s.takeFrame 2 (fun f => f.dst != s.relend.engineId) = some (f, t) ∧ f.hop < 14 ∧ (t.freeRoom 2 f).egress f.dst = some 2) := by
  refine ⟨by decide +kernel, _, rfl, by decide +kernel, by decide +kernel⟩

/-- An OPEN window of space 0 with every right, or none. -/
def windows (open_ : Bool) : SMap Window :=
  if open_ then [(4095, { Window.zero with mode := .open_, size := 4096, read := true, write := true, inc := true })] else []
/-- A received request of a kind. -/
def asked1 (kind : Nat) (open_ : Bool) : State :=
  { received (rframe kind 0 0 64) [] with
    relend := { (received (rframe kind 0 0 64) []).relend with windows := windows open_ } }

theorem witness_RelendServes : (∀ kind ∈ [kRead, kWrite, kInc],
      let f := rframe kind 0 0 64
      (∃ t, (asked1 kind true).heldKind 2 kind = some (f, t) ∧ (t.gate (t.serveGate f)).outcomes = [] ∧ (t.gate (t.serveGate f)).inbound = [] ∧
        (t.windowCheck kind (bits f.addr 48 4) (bits f.addr 0 48) 64).1 = some 4095 ∧ f.wholeAccess 64 = true) ∧
      (∃ t, (asked1 kind false).heldKind 2 kind = some (f, t) ∧ (t.windowCheck kind (bits f.addr 48 4) (bits f.addr 0 48) 64).1 = none) ∧
      f.kind = kind ∧ f.attempt = 0 ∧ bits f.addr 48 4 ≤ 2) ∧
    (let f := { rframe kRead 0 0 64 with len := 32 }
     let s : State := { received f [] with relend := { (received f []).relend with windows := windows true } }
     (s.heldKind 2 kRead).any (fun e => (e.2.gate (e.2.serveGate f)).outcomes == [] && (e.2.gate (e.2.serveGate f)).inbound == [] &&
       (e.2.windowCheck kRead (bits f.addr 48 4) (bits f.addr 0 48) 32).1 == some 4095) = true ∧ f.kind = kRead ∧ f.attempt = 0 ∧ f.wholeAccess 32 = false) ∧
    (let i : Inbound := { id := 0, port := 2, frame := rframe 1 0 0 64, window := 4095, since := 3, told := false, issued := true, done := some (Codes.ok, Payload.ofNat 64 1),
                          open_ := 0, arrivalSent := true }
     let s : State := { State.reset with relend := { RelendState.reset with gateways := [(16383, { Gateway.zero with inbound := [i] })] } }
     (s.gate 16383).inbound.find? s.served = some i ∧ (s.gate 16383).inbound = [i] ∧ i.told = false ∧ i.done = some (Codes.ok, Payload.ofNat 64 1)) := by
  refine ⟨?_, by decide +kernel, by decide +kernel⟩
  intro kind h
  simp only [List.mem_cons, List.not_mem_nil, or_false] at h
  obtain rfl | rfl | rfl := h <;> exact ⟨⟨_, rfl, by decide +kernel⟩, ⟨_, rfl, by decide +kernel⟩, by decide +kernel⟩

/-- A tag in use. -/
def tagUse (phase : TagPhase) (attempt : Nat) : TagUse :=
  { phase, frame := { rframe 1 7 0 0 with attempt, tag := 5 }, owner := .ring 0 0 false, since := 4, resent := false }
/-- A port with tag 5 in use, and a received answer. -/
def answered (u : TagUse) (rx : List Frame) : State :=
  { State.reset with relend := { RelendState.reset with ports := [(2, { upPort with rx, tags := [(5, u)] })], routes := [(7, 0x1002)] } }

theorem witness_RelendTags : (∀ kind ∈ [kResponse, kNack, kAccept],
      let f := rframe kind 0 0 0
      (∃ t, (answered (tagUse .sent 0) [f]).takeKind 2 kind = some (f, t) ∧ t.tagOf f = some (tagUse .sent 0) ∧ (tagUse .sent 0).phase = .sent)) ∧
    (let f := { rframe kAccept 0 0 0 with hold := true }
     ∃ t, (answered (tagUse .accepted 0) [f]).takeKind 2 kAccept = some (f, t) ∧ t.tagOf f = some (tagUse .accepted 0) ∧ (tagUse .accepted 0).phase = .accepted ∧ f.hold = true) ∧
    (let f := rframe kResponse 0 0 0
     ∃ t, (answered (tagUse .resting 0) [f]).takeKind 2 kResponse = some (f, t) ∧ t.tagOf f = none) ∧
    (((answered (tagUse .sent 4) []).port 2).tags.find 5 = some (tagUse .sent 4) ∧ (answered (tagUse .sent 4) []).odp.resends ≤ (tagUse .sent 4).frame.attempt) ∧
    (let s := answered (tagUse .sent 3) []
     (tagUse .sent 3).frame.attempt < s.odp.resends ∧ ((s.advanceTo ((tagUse .sent 3).since + s.odp.attemptUs)).tagResend 2 5 (tagUse .sent 3)).1 = none) ∧
    (tagUse .accepted 0).phase = .accepted ∧ (tagUse .resting 0).phase = .resting ∧
    (((answered (tagUse .accepted 0) []).port 2).freeTag.isSome = true ∧ (answered (tagUse .accepted 0) []).rings = []) := by
  refine ⟨?_, ⟨_, rfl, by decide +kernel⟩, ⟨_, rfl, by decide +kernel⟩, by decide +kernel⟩
  intro kind h
  simp only [List.mem_cons, List.not_mem_nil, or_false] at h
  obtain rfl | rfl | rfl := h <;> exact ⟨_, rfl, by decide +kernel⟩

/-- A started descriptor to another engine: from the cell's scratchpad to space 0 of Relend (R239, R283). -/
def streamDesc (placed : Option Nat) : DmaDesc :=
  { desc true 0 [] with word := BitVec.ofNat 256 ((195 + 2 ^ 20 * 128) + 7 * 2 ^ (64 + 52) + 64 * 2 ^ 128 + 2 * 2 ^ 154 + 47 * 2 ^ 170), placed, recorded := placed.isSome }
/-- Slot 3 of the gateway of the cell, and its record. -/
def home : Nat × Nat := homeSlot (cellVault mcell) 3
def streamRecord (done changed : Bool) (polledAt : Option (Nat × Packet)) : StreamRecord :=
  { word := descWord, next := 0, lines := [], linesDone := 0, failed := none, done, stalledAt := none, changed, polledAt, id := 0 }
/-- The engine with the channel and its gateway. -/
def streaming (d : DmaDesc) (records : SMap StreamRecord) (lost : Bool) : State :=
  { channel d with relend := { RelendState.reset with gateways := [(home.1, { Gateway.zero with records, lost })] } }

theorem witness_StreamRecords : channelOk mcell 3 = true ∧
    (∀ lost ∈ [true, false],
      let s := streaming (streamDesc none) [] lost
      let x := s.channel mcell 3
      let r := if x.record then 1 else 0
      let t := (s.mapDesc mcell 3 DmaDesc.toPlace fun d => { d with placed := some r }).mapChannel mcell 3 fun x => { x with record := !x.record }
      x.queue.find? DmaDesc.toPlace = some (streamDesc none) ∧ x.aborted = false ∧ s.slotOf mcell 3 = (if lost then none else some home) ∧
        (∀ e ∈ x.queue, e.placed = some r → e.total ≤ e.next) ∧
        (t.lineRequest mcell 3 0 tPut (gateCoord home.1) (recordOffset home.2 r) 32 0 false 0 (Payload.ofNat 32 (s.recordOf mcell (streamDesc none)).toNat)).isSome = true) ∧
    (∀ lost ∈ [true, false],
      let s := streaming (streamDesc (some 1)) [(2 * home.2 + 1, streamRecord true false none)] lost
      (s.channel mcell 3).queue.find? DmaDesc.polled = some (streamDesc (some 1)) ∧ s.slotOf mcell 3 = (if lost then none else some home) ∧
        (s.cell mcell).polling 3 = false ∧ (s.lineRequest mcell 3 0 tGet (gateCoord home.1) (recordOffset home.2 1) 16 0 false 0 []).isSome = true) ∧
    (let r := streamRecord false false (some (6, packet tGet 0 16))
     let s := streaming (streamDesc (some 0)) [(2 * home.2, r)] false
     home.1 < 16384 ∧ home.2 < 16 ∧ s.heldPoll home.1 home.2 = some (2 * home.2, 6, packet tGet 0 16) ∧ (s.gate home.1).records.find (2 * home.2) = some r) := by decide +kernel

/-- Gateways stand beside routers that exist (R280). -/
theorem gateCoord_present (g : Nat) : (gateCoord g).present = true := by
  have fields : ∀ k, (fieldAt (colOfField (edgeFields.getD (k % edgeFields.length) 0)) (rowOfField (edgeFields.getD (k % edgeFields.length) 0))).isSome = true ∧
      colOfField (edgeFields.getD (k % edgeFields.length) 0) < 10 ∧ rowOfField (edgeFields.getD (k % edgeFields.length) 0) < 8 := fun k => by
    have hl : edgeFields.length = 24 := by decide +kernel
    rw [hl]
    exact (by decide +kernel : ∀ k < 24, (fieldAt (colOfField (edgeFields.getD k 0)) (rowOfField (edgeFields.getD k 0))).isSome = true ∧
      colOfField (edgeFields.getD k 0) < 10 ∧ rowOfField (edgeFields.getD k 0) < 8) _ (Nat.mod_lt _ (by decide))
  have place : ∀ f n, (fieldAt (colOfField f) (rowOfField f)).isSome = true → colOfField f < 10 → rowOfField f < 8 →
      ({ x := (fieldOrigin f).x + n % 96, y := (fieldOrigin f).y + n / 96 % 80 } : Coord).present = true := fun f n h1 h2 h3 => by
    have hx : (96 * colOfField f + n % 96) / 96 = colOfField f := by omega
    have hy : (80 * rowOfField f + n / 96 % 80) / 80 = rowOfField f := by omega
    have hf : Coord.field? ⟨96 * colOfField f + n % 96, 80 * rowOfField f + n / 96 % 80⟩ =
        fieldAt ((96 * colOfField f + n % 96) / 96) ((80 * rowOfField f + n / 96 % 80) / 80) := if_pos ⟨by simp only; omega, by simp only; omega⟩
    show (Coord.field? ⟨96 * colOfField f + n % 96, 80 * rowOfField f + n / 96 % 80⟩).isSome = true
    rw [hf, hx, hy]
    exact h1
  have ⟨h1, h2, h3⟩ := fields (Config.gatewayPlace g)
  exact place _ _ h1 h2 h3

theorem gatewayAt_coord : ∃ g, gatewayAt (gateCoord 0) = some g ∧ gateCoord g = gateCoord 0 := by
  have : ((List.range 16384).find? fun g => gateCoord g == gateCoord 0).isSome = true :=
    List.find?_isSome.mpr ⟨0, List.mem_range.mpr (by decide), beq_self_eq_true _⟩
  obtain ⟨g, h⟩ := Option.isSome_iff_exists.mp this
  exact ⟨g, h, by simpa using List.find?_some h⟩

/-- A packet at the router of gateway 0, whose slot 3 holds record 1 or not. -/
def atGate (p : Packet) (g : Nat) (r : Option StreamRecord) : State :=
  { State.reset with
    routers := [((gateCoord 0).key, { Router.reset with inbox := [p] })]
    relend := { RelendState.reset with gateways := [(g, { Gateway.zero with records := r.toList.map fun r => (7, r) })] } }
/-- The same once the packet has been taken. -/
def gateTook (p : Packet) (g : Nat) (r : Option StreamRecord) : State := (atGate p g r).mapRouter (gateCoord 0) fun r => { r with inbox := [] }
/-- A record PUT and a poll of slot 3, record 1. -/
def putRecord : Packet := (packet tPut (recordOffset 3 1) 32).seal
def pollRecord : Packet := (packet tGet (recordOffset 3 1) 16).seal

theorem atGate_takes (p : Packet) (g type : Nat) (r : Option StreamRecord) (hg : gatewayAt (gateCoord 0) = some g) (h : (isRequestOf type p && p.forGate) = true) :
    (atGate p g r).toGate (gateCoord 0) type = some (g, p, gateTook p g r) := by
  simp only [Bool.and_eq_true] at h
  simp [State.toGate, atGate, gateTook, State.takeInbox, State.router, SMap.get, takeFirst, h.1, h.2, hg]

/-- A PUT of a record that is not busy or is, and a poll of one that is done, has changed, or neither: at the router of gateway 0, wherever the part puts it. -/
theorem witness_StreamRecords_gateway : ∃ g, (gateCoord 0).present = true ∧ gateCoord g = gateCoord 0 ∧
    (∀ r ∈ [none, some (streamRecord true false none), some (streamRecord false false none)],
      let t := gateTook putRecord g r
      (atGate putRecord g r).toGate (gateCoord 0) tPut = some (g, putRecord, t) ∧ putRecord.crcOk = true ∧ putRecord.payload.length = 32 ∧
        gateOffset putRecord.offset = (3, 1, true) ∧ putRecord.payload.poisoned = false ∧
        (t.cell (gateCoord g)).mesh.view putRecord.src putRecord.req putRecord.tag putRecord.seq putRecord.attempt t.clock = .fresh ∧
        t.recordBusy g 7 = r.any fun r => !r.done) ∧
    (∀ r ∈ [streamRecord true false none, streamRecord false true none, streamRecord false false none],
      let t := gateTook pollRecord g (some r)
      (atGate pollRecord g (some r)).toGate (gateCoord 0) tGet = some (g, pollRecord, t) ∧ pollRecord.crcOk = true ∧ pollRecord.aux = 16 ∧
        gateOffset pollRecord.offset = (3, 1, true) ∧ (t.gate g).records.find 7 = some r ∧ r.polledAt = none) := by
  obtain ⟨g, hg, hc⟩ := gatewayAt_coord
  refine ⟨g, gateCoord_present 0, hc, ?_, ?_⟩
  · intro r _
    refine ⟨atGate_takes _ _ _ _ hg (by decide +kernel), by decide +kernel, by decide +kernel, by decide +kernel, by decide +kernel, rfl, ?_⟩
    cases r <;> simp [gateTook, atGate, State.recordBusy, State.gate, State.mapRouter, SMap.get, SMap.find]
  · intro r hr
    refine ⟨atGate_takes _ _ _ _ hg (by decide +kernel), by decide +kernel, by decide +kernel, by decide +kernel, ?_, ?_⟩
    · simp [gateTook, atGate, State.gate, State.mapRouter, SMap.get, SMap.find]
    · revert r
      decide +kernel

theorem witness_LinkedEngines : (∀ kind ∈ [kMusterArrive, kMusterRelease, kPace],
      let f := rframe kind 0 0 0
      ∃ t, (received f []).takeKind 2 kind = some (f, t) ∧ (t.muster (numAt f.payload 0 1)).lastRelease = [] ∧ numAt f.payload 4 1 ≤ 4 ∧ t.relend.heard.find f.src = none) ∧
    (let s : State := { State.reset with relend := { RelendState.reset with paceReason := some 2, heard := [(4095, { khz := 1, reason := 0, seq := 0, at_ := 5 })] } }
     s.relend.paceReason = some 2 ∧ s.relend.heard.find 4095 = some { khz := 1, reason := 0, seq := 0, at_ := 5 }) := by
  refine ⟨?_, by decide +kernel⟩
  intro kind h
  simp only [List.mem_cons, List.not_mem_nil, or_false] at h
  obtain rfl | rfl | rfl := h <;> exact ⟨_, rfl, by decide +kernel⟩


/-! ### Collectives, lost units, clocks and power -/

/-- `body` with one ORDERED collective of no lines whose members are engines 0 and 1 (R299). -/
def ringBody : List Byte :=
  List.replicate 8 0 ++ [1, 1] ++ List.replicate 30 0 ++ [2, 0, 0, 0, 72, 0, 0, 0] ++ List.replicate 16 0 ++ [1, 0, 0, 0, 76, 0, 0, 0] ++ [1, 0, 2, 0] ++
  [2, 1, 0, 0, 0, 0, 10, 0] ++ List.replicate 4 0 ++ [2, 0] ++ List.replicate 42 0 ++ [140, 0, 0, 0] ++ List.replicate 4 0 ++ [0, 0, 1, 0]
/-- A running region with the collective, its slot, and a muster of it that has released. -/
def ringRegion : Region := { region .running with body := ringBody }
def ringUp (t : RingSlot) : State :=
  { up ringRegion with rings := [(15, { t with region := 1 })], musters := [(1, { muster 0 with rounds := 1 }), (2, muster 0)] }
def ringDecl : Collective := ((Image.ofBody ringBody).collectives).headD ⟨0, 0, 0, 0, 0, 0, 0, 0, 0, 0, 0, []⟩
/-- The slot, with a record of each phase in its place. -/
def ringHeld : State :=
  let s := ringUp { RingSlot.zero with phase := .reducing }
  ((s.loftWrite 0 ((checkRecord ringDecl 0 0 0 false 1).map PByte.ofData) .none).2.loftWrite 192 ((checkRecord ringDecl 0 0 1 true 1).map PByte.ofData) .none).2

theorem witness_CollectiveSlots :
    (let s := ringUp { RingSlot.zero with phase := .gathering }
     s.declOf 15 = some (ringRegion, Image.ofBody ringBody, ringDecl) ∧ (s.ring 15).phase = .gathering ∧ ringRegion.mode = .running ∧
      s.gathered ringRegion ringDecl = true ∧ 1 < ringDecl.members.length) ∧
    (let s := ringUp { RingSlot.zero with phase := .distributing, written := [0, 1] }
     s.declOf 15 = some (ringRegion, Image.ofBody ringBody, ringDecl) ∧ (s.ring 15).phase = .distributing ∧ (s.ring 15).sends = [] ∧
      (∀ j, j < ringDecl.members.length → j ∈ (s.ring 15).written) ∧ ringRegion.musters[1]? = some 2) := by decide +kernel

theorem witness_CollectiveRecords :
    let s := ringHeld
    let d := ringDecl
    s.declOf 15 = some (ringRegion, Image.ofBody ringBody, d) ∧ (s.ring 15).phase = .reducing ∧ d.members.length = 2 ∧
    0 ∉ (s.ring 15).first ∧ s.ringIndex d ≠ (0 + 1) % 2 ∧
    recordPlaced ((s.ringRead 15 0 false (d.checkLine 0 false)).1.map (·.data)) (s.ring 15).step 0 false ((s.ringIndex d + 2 - 1) % 2) = true ∧
    1 ∉ (s.ring 15).second ∧ s.ringIndex d ≠ 1 ∧
    recordPlaced ((s.ringRead 15 1 true (d.checkLine 1 true)).1.map (·.data)) (s.ring 15).step 1 true ((s.ringIndex d + 2 - 1) % 2) = true := by decide +kernel

/-- The last hub controller alive with two misses, and the last paddock live. -/
def worn : State :=
  { State.reset with defects := { DefectState.reset with misses := [(67, 2)], paddocks := [(271, .powered)] } }

theorem witness_UnitsLost : worn.hubAlive 67 = true ∧ 2 ≤ worn.defects.misses.get 0 67 ∧ State.reset.hubAlive 67 = true ∧ State.reset.defects.misses.get 0 67 < 2 ∧
    worn.paddockLive 271 = true ∧ (worn.paddockRegs 271).settled = false ∧
    (let s : State := { worn with pwr := { State.reset.pwr with paddocks := [(271, { PaddockRegs.zero with settled := true })] } }
     s.paddockLive 271 = true ∧ (s.paddockRegs 271).settled = true) := by decide +kernel

/-- Clocks with REFCLK there, roots ready or not, and clock 271 on its way to REFCLK or to its root. -/
def clocked (ready : List Nat) (ref : Bool) : State :=
  { State.reset with clk := { State.reset.clk with refPresent := true, ready, pending := [271], src := if ref then [(271, true)] else [] } }
/-- The field of `tcell`, in which region 1 runs, on its way back to its root. -/
def goingBack : State :=
  let f := tcell.field
  { up (region .running) with clk := { State.reset.clk with ready := [f], returning := [f], pending := [4 * f] } }

theorem witness_ClockEvents :
    (let s := clocked [67] true
     s.clk.refPresent = true ∧ s.clk.lostAt.find 67 = none ∧ s.clk.held.wf 0 = true ∧ 67 ∈ s.clk.ready ∧ s.boot.stage ≠ some 9 ∧
       4 * 67 + 3 ∈ s.clk.pending ∧ s.clk.src.get false (4 * 67 + 3) = true) ∧
    (let s : State := { State.reset with clk := { State.reset.clk with lostAt := [(67, 8)] } }
     s.clk.lostAt.find 67 = some 8 ∧ s.hubAlive 67 = true) ∧
    (let s := clocked [67] false
     4 * 67 + 3 ∈ s.clk.pending ∧ s.clk.src.get false (4 * 67 + 3) = false ∧ 67 ∈ s.clk.ready ∧ 67 ∉ s.clk.returning) ∧
    (let s := clocked [] false
     4 * 67 + 3 ∈ s.clk.pending ∧ s.clk.src.get false (4 * 67 + 3) = false ∧ 67 ∉ s.clk.ready) ∧
    (let f := tcell.field
     f < fieldCount ∧ 4 * f + 0 ∈ goingBack.clk.pending ∧ goingBack.clk.src.get false (4 * f + 0) = false ∧ f ∈ goingBack.clk.ready ∧ f ∈ goingBack.clk.returning ∧
       goingBack.fieldRuns f = true) ∧
    (let u := (clocked [67] true).advanceTo 1000
     u.domainRuns 267 = false ∧ u.domainRuns 268 = true ∧ u.domainRuns 339 = true ∧ (u.khzBounds 339).1 ≤ (u.khzBounds 339).2) := by decide +kernel

/-- A half whose sequencer is in a state, on its way to a point. -/
def halfIn (state : DvfsState) (toward : Nat) : State :=
  let p := State.reset.pwr
  { State.reset with
    boot := { BootState.reset with powered := true, refclk := true, stage := some 9 }
    pwr := { p with east := { p.east with state, toward } } }

theorem witness_HalvesRamp :
    (let s := halfIn .fRampUp 5
     (s.dvfs true).state = .fRampUp ∧ opRoot (s.dvfs true).toward = 3100 ∧ 3100 ≠ (s.roots true).set ∧ s.setOk 3100 = true ∧ s.otherLater true = false ∧
       s.pwr.emergency = false ∧ s.awaitsRoot (!true) 3100 = false) ∧
    (let t := halfIn .fRampUp 5
     let s := { t with pwr := { t.pwr with west := { t.pwr.west with target := 5 } } }
     (s.dvfs true).state = .fRampUp ∧ s.otherLater true = true) ∧
    (let t := halfIn .fRampUp 5
     let s := { t with pwr := { t.pwr with west := { t.pwr.west with state := .fRampUp, target := 5, toward := 5 } } }
     s.otherLater true = false ∧ s.pwr.emergency = false ∧ s.awaitsRoot (!true) 3100 = true) ∧
    State.reset.pwr.bankStretch = false ∧
    (let t := halfIn .fRampDown 5
     let s := { t with clk := { t.clk with east := { t.clk.east with slewing := true, set := 3100 } } }
     (s.roots true).slewing = true ∧ (s.roots true).set = opRoot (s.dvfs true).toward ∧ (s.dvfs true).state = .fRampDown) ∧
    (let t := halfIn .fRampUp 5
     let s := { t with clk := { t.clk with east := { t.clk.east with slewing := true, set := 3100 } } }
     (s.roots true).slewing = true ∧ (s.roots true).set = opRoot (s.dvfs true).toward ∧ (s.dvfs true).state = .fRampUp) ∧
    999 < 1000 ∧ State.reset.part.rootMax < 5000 := by decide +kernel

/-- An engine in use whose highest temperature measure asks for the lowest point, and one that asks to go up. -/
theorem witness_DvfsSequencer :
    (let t := halfIn .idle 0
     let s := { t with pwr := { t.pwr with east := { t.pwr.east with op := 11, target := 11 } } }
     s.powered = true ∧ s.wish true = 0 ∧ 0 ≠ (s.dvfs true).target ∧ (s.dvfs true).state = .idle ∧ 0 < (s.dvfs true).op) ∧
    (let t := halfIn .idle 0
     let s := { t with pwr := { t.pwr with own := 11 } }
     s.powered = true ∧ (s.dvfs true).op < s.wish true ∧ s.wish true ≠ (s.dvfs true).target ∧ (s.dvfs true).state = .idle ∧
       (s.roots true).set ≠ opRoot (s.wish true) ∧ s.pwr.emergency = false) ∧
    (let s := halfIn .idle 0
     s.wish true = (s.dvfs true).target) ∧
    ({ State.reset.pwr with eastHotAt := some 9 } : PowerState).emergency = true := by decide +kernel

theorem witness_PaddocksSettle : ((halfIn .vRaise 0).dvfs true).state = .vRaise ∧ ((halfIn .vLower 0).dvfs true).state = .vLower := by decide +kernel

theorem witness_SupplyAndCap :
    (let s := halfIn .idle 0
     s.powered = true ∧ s.boot.stage ≠ some 3 ∧ s.bankAt95 3040 0 = true ∧ s.bankAt95 0 3040 = true ∧ s.bankAt95 3039 3039 = false ∧ s.pwr.bankStretch = false) ∧
    (let t := halfIn .idle 0
     let s := { t with pwr := { t.pwr with bankStretch := true } }
     s.bankAt95 2879 2879 = false ∧ s.pwr.bankStretch = true ∧ s.bankStepDone = true ∧ 100 * 2879 < 900 * s.pwr.westLimit ∧ 100 * 2879 < 900 * s.pwr.eastLimit) ∧
    State.reset.paddockLive 271 = false := by decide +kernel

/-- Paddock 271 live, its offset at a value. -/
def offsetAt (avs : Int) : State :=
  { worn with pwr := { State.reset.pwr with paddocks := [(271, { PaddockRegs.zero with avs })] } }

theorem witness_VoltageLoops : (offsetAt 9).paddockLive 271 = true ∧ ((offsetAt 9).dvfs (paddockEast 271)).state = .idle ∧
    ((offsetAt 9).paddockRegs 271).avs < 10 ∧ 10 ≤ ((offsetAt 10).paddockRegs 271).avs ∧ ((offsetAt 9).paddockRegs 271).stretching = false ∧
    (let s : State := { worn with pwr := { State.reset.pwr with paddocks := [(271, { PaddockRegs.zero with vtarget := 800 })] } }
     3039 < 4 * (s.paddockRegs 271).vtarget - 10 * (s.paddockRegs 271).margin ∧ 4 * (s.paddockRegs 271).vtarget - 10 * (s.paddockRegs 271).margin ≤ 3040 ∧
       ∀ q, q < 4 → s.paddockLive (4 * (271 / 4) + q) = true → (s.paddockRegs (4 * (271 / 4) + q)).threshold + 40 ≤ [0, 0, 0, 3080].getD q 0) := by decide +kernel

theorem witness_DroopStretches : worn.paddockLive 271 = true ∧ (worn.paddockRegs 271).stretching = false ∧
    ((worn.paddockRegs 271).recent.filter fun t => decide (worn.clock < t + 1000)).length + 1 < worn.pwr.droopLimit := by decide +kernel

theorem witness_ThermalMeasures :
    (let temp : PaddockTemp := { paddock := 271, junction := 104, loft := 104 }
     let c : Coolant := { inlet := 200, outlet := 449 }
     temp.paddock < 272 ∧ temp.junction < 105 ∧ State.reset.pwr.tThrottle ≤ temp.junction ∧ temp.loft < 105 ∧ c.outlet < c.inlet + 250 ∧ State.reset.pwr.throttling = false ∧
      State.reset.pwr.overtemp = false) ∧
    ({ State.reset.pwr with westHotAt := some 9 } : PowerState).measures = [(1, 9)] ∧
    (let temps : List PaddockTemp := [{ paddock := 0, junction := 50, loft := 50 }, { paddock := 271, junction := 115, loft := 104 }]
     (∀ t ∈ temps, t.paddock < 272) ∧ (∃ t ∈ temps, 115 ≤ t.junction ∨ 105 ≤ t.loft) ∧ 1 ≤ ({ State.reset.pwr with overScans := 1 } : PowerState).overScans) := by
  decide +kernel

/-- A frame of the meter of a length and kind, its CRC right or wrong (R416). -/
def meterFrame (kind len : Nat) (crc : Nat → Nat) : List Byte :=
  let b := BitVec.ofNat 8 kind :: List.replicate (len - 5) 0
  b ++ leBytes 4 (crc (crc32c b))

theorem crcBit_lt (c : Nat) (h : c < 2 ^ 32) : crcBit c < 2 ^ 32 := by
  unfold crcBit
  split
  · exact Nat.xor_lt_two_pow (by omega) (by decide)
  · omega

theorem crc32c_lt (l : List Byte) : crc32c l < 2 ^ 32 := by
  have step : ∀ (c : Nat) (b : Byte), c < 2 ^ 32 → crcByte c b < 2 ^ 32 := fun c b h => by
    have := b.isLt
    unfold crcByte
    exact crcBit_lt _ (crcBit_lt _ (crcBit_lt _ (crcBit_lt _ (crcBit_lt _ (crcBit_lt _ (crcBit_lt _ (crcBit_lt _ (Nat.xor_lt_two_pow h (by omega)))))))))
  have all : ∀ (l : List Byte) (c : Nat), c < 2 ^ 32 → l.foldl crcByte c < 2 ^ 32 := fun l => by
    induction l with
    | nil => exact fun c h => h
    | cons b l ih => exact fun c h => ih _ (step c b h)
  exact Nat.xor_lt_two_pow (all l _ (by decide)) (by decide)

theorem leNat_leBytes (v : Nat) (h : v < 2 ^ 32) : leNat (leBytes 4 v) = v := by
  simp only [leBytes, leNat, BitVec.toNat_ofNat]
  omega

theorem meterFrame_fits (kind len : Nat) (crc : Nat → Nat) (hk : kind < 256) (hl : 5 ≤ len) (hc : ∀ c, c < 2 ^ 32 → crc c < 2 ^ 32) :
    (meterFrame kind len crc).length = len ∧ numAt (meterFrame kind len crc) 0 1 = kind ∧
    numAt (meterFrame kind len crc) (len - 4) 4 = crc (crc32c ((meterFrame kind len crc).take (len - 4))) := by
  have hb : (BitVec.ofNat 8 kind :: List.replicate (len - 5) (0 : Byte)).length = len - 4 := by simp; omega
  have h4 : ∀ v, (leBytes 4 v).length = 4 := fun v => by simp [leBytes]
  refine ⟨?_, ?_, ?_⟩
  · simp only [meterFrame, List.length_append, hb, h4]; omega
  · simp [meterFrame, numAt, sliceOf, leNat]; omega
  · simp only [meterFrame, numAt, sliceOf]
    rw [← hb, List.drop_left, List.take_left, List.take_of_length_le (by simp [h4]), leNat_leBytes _ (hc _ (crc32c_lt _))]

/-- What a frame taken in fulfils. -/
def frameTaken (kind len : Nat) (b : List Byte) : Prop :=
  b.length = len ∧ numAt b 0 1 = kind ∧ crc32c (b.take (len - 4)) = numAt b (len - 4) 4

/-- Frames of every kind and length with a right CRC, and one with a wrong CRC. -/
theorem witness_MeterFrames : (∃ b, frameTaken 1 64 b) ∧ (∃ b, frameTaken 2 64 b) ∧ (∃ b, frameTaken 3 2432 b) ∧ (∃ b, frameTaken 4 1328 b) ∧
    (∃ b : List Byte, crc32c (b.take (b.length - 4)) ≠ numAt b (b.length - 4) 4) ∧ ([] : List Byte).length < 4 ∧
    ({ BootState.reset with refclk := true } : BootState).refclk = true := by
  have fits := fun (kind len : Nat) (hk : kind < 256) (hl : 5 ≤ len) =>
    have ⟨h1, h2, h3⟩ := meterFrame_fits kind len id hk hl fun _ h => h
    (⟨_, h1, h2, h3.symm⟩ : ∃ b, frameTaken kind len b)
  refine ⟨fits 1 64 (by decide) (by decide), fits 2 64 (by decide) (by decide), fits 3 2432 (by decide) (by decide), fits 4 1328 (by decide) (by decide), ?_, by decide, rfl⟩
  have ⟨h1, h2, h3⟩ := meterFrame_fits 1 64 (fun c => if c = 0 then 1 else 0) (by decide) (by decide) fun c _ => by
    show (if c = 0 then 1 else 0) < 2 ^ 32
    split <;> decide
  have other : ∀ c : Nat, c ≠ if c = 0 then 1 else 0 := fun c => by split <;> omega
  refine ⟨meterFrame 1 64 fun c => if c = 0 then 1 else 0, ?_⟩
  rw [h1]
  exact fun h => other _ (h.trans h3)

/-- A record. -/
def rec0 : Record := ⟨0, 0, 0, 0, 1, 5, 0, 0, 0, 0, [], none⟩

theorem witness_RecorderEvents : (({ RecorderState.reset with frozen := some (3, 8) } : RecorderState).frozen = some (3, 8)) ∧
    (let s : State := { State.reset with hubs := [(67, { Hub.zero with ring := { Hub.zero.ring with due := true } })] }
     (s.hub 67).ring.due = true ∧ s.logFrozen = false) ∧
    ({ State.reset with boot := { BootState.reset with powered := true, refclk := true } } : State).timed = true := by decide +kernel

/-- Rings that meet each clause of R462: with room, full with a flushed record behind an unflushed one, full with none flushed; and a ring due to be flushed, with and without
dropped records. -/
theorem witness_RingsTakeRecords :
    (let r : Ring := { Ring.zero with held := (rec0, false) :: (rec0, true) :: List.replicate 1022 (rec0, false) }
     1024 ≤ r.held.length ∧ r.held = [(rec0, false)] ++ (rec0, true) :: List.replicate 1022 (rec0, false) ∧ (∀ e ∈ [(rec0, false)], e.2 = false)) ∧
    (let r : Ring := { Ring.zero with held := List.replicate 1024 (rec0, false) }
     1024 ≤ r.held.length ∧ r.held.length ≤ 1024 ∧ (∀ e ∈ r.held, e.2 = false)) ∧
    (let r : Ring := { Ring.zero with held := List.replicate 1023 (rec0, false) }
     r.held.length < 1024) ∧
    (∀ dropped ∈ [0, 7], let s : State := { State.reset with hubs := [(67, { Hub.zero with ring := { Ring.zero with held := [(rec0, false)], due := true, dropped } })] }
      s.hubs.wf .zero = true ∧ (s.hub 67).ring.due = true ∧ s.logFrozen = false ∧ (s.hub 67).ring.dropped = dropped ∧ s.ringFrozen 67 = false ∧
        (let u : State := { s with recd := { s.recd with frozen := some (68, 0) } }
         (u.hub 67).ring.due = true ∧ u.logFrozen = false ∧ u.ringFrozen 67 = true ∧ (u.hub 67).holding.length < 256)) := by
  have none_flushed : ∀ n, ∀ e ∈ List.replicate n (rec0, false), e.2 = false := fun n e h => by rw [(List.mem_replicate.mp h).2]
  refine ⟨⟨?_, rfl, none_flushed 1⟩, ⟨?_, ?_, none_flushed 1024⟩, ?_, by decide +kernel⟩ <;> simp only [List.length_cons, List.length_replicate] <;> decide

/-! ### Bring-up -/

/-- A stage of bring-up that runs. -/
def atStage (n : Nat) (result : Nat) : State :=
  { State.reset with boot := { BootState.reset with powered := true, refclk := true, running := some [], stage := some n, reports := [(n, BitVec.ofNat 64 result)] } }

theorem witness_PowerSessions :
    let on := { BootState.reset with powered := true }
    State.reset.boot.powered = false ∧ on.powered = true ∧ on.refclk = false ∧ State.reset.flash.failedStarts < 3 ∧
    ({ FlashState.reset with failedStarts := 3 } : FlashState).failedStarts = 3 ∧ (atStage 8 1).boot.powered = true ∧ (atStage 8 1).boot.refclk = true ∧
    ({ on with restartAt := some 9 } : BootState).restartAt = some 9 ∧ State.reset.hubs.wf .zero = true ∧ State.reset.boot.refclk = false := by decide +kernel

theorem witness_FailedStarts : (∀ n ∈ [0, 7], (stageLimit n).isSome = true ∧ (atStage n 1).stageRuns n = true ∧ (atStage n 1).boot.stage = some n) ∧
    ((atStage 8 1).stageRuns 8 = true ∧ (atStage 8 1).boot.running.isSome = true) ∧
    ((atStage 8 4).boot.stage = some 8 ∧ (atStage 8 4).boot.refclk = true ∧ (atStage 8 4).pwr.overtemp = false ∧ (atStage 8 4).resultOf 8 = resultFailed ∧
      (atStage 8 4).flash.failedStarts < 2 ∧ 2 ≤ ({ FlashState.reset with failedStarts := 2 } : FlashState).failedStarts) := by decide +kernel

theorem witness_FirstStages :
    (∀ serial ∈ [0, 7], let s := { atStage 0 1 with meter := { MeterState.reset with gotStatus := true, state := 0, serial } }
      s.stageRuns 0 = true ∧ (s.meter.gotStatus && s.meter.state == 0) = true ∧ (s.meter.serial = s.flash.meterSerial ↔ serial = 0)) ∧
    ((atStage 0 1).stageRuns 0 = true ∧ (atStage 0 1).meter.gotStatus = false) ∧
    (let s := { atStage 0 1 with meter := { MeterState.reset with gotStatus := true, state := 1 } }
     s.stageRuns 0 = true ∧ s.meter.gotStatus = true ∧ (s.meter.gotStatus && s.meter.state == 0) = false) ∧ (atStage 1 1).stageRuns 1 = true := by decide +kernel

theorem witness_MiddleStages : (∀ n ∈ [2, 3, 4, 5, 6, 7], (atStage n 1).stageRuns n = true) ∧ 67 < fieldCount ∧ 67 ∉ List.range 67 ∧
    (atStage 3 1).boot.first = ([], []) ∧ (atStage 3 1).boot.second = ([], []) ∧ tcell.present = true ∧ (atStage 6 1).loft.map = [] ∧
    (∀ f, f < 68 → ((atStage 7 1).hub f).transfers = []) := by decide +kernel

/-- Stage 5 with every paddock powered. -/
def linkTests : State :=
  { atStage 5 1 with defects := { DefectState.reset with paddocks := (List.range 272).map fun p => (p, PaddockMode.powered) } }
/-- What S5 checks against R200, for routing choices of the firmware and no link that failed (R352). -/
def routed0 (entries : List RouteEntry) : State :=
  let u := linkTests.advanceTo (linkTests.boot.stageAt + 1000 * 7)
  (((List.range 272).filter fun p => !u.paddockLive p).foldl State.borderDown u).writeVersion false entries

/-- A drove road that leaves the wafer. -/
def strayEntry : RouteEntry := { at_ := ⟨200, 0⟩, paddock := 271, entry := 0 }

theorem routed0_router (c : Coord) : ((routed0 [strayEntry]).router c).route c false 271 = if c.key = 200 then Route.ofBits 0 else staircase c 271 := by
  have : (routed0 [strayEntry]).routers = [(200, { Router.reset with table := [(271, 0)] })] := by decide +kernel
  by_cases h : c.key = 200
  · simp [State.router, this, SMap.get, SMap.find, h, Router.route]
  · have : (routed0 [strayEntry]).router c = .reset := by simp [State.router, this, SMap.get, SMap.find, Ne.symm h]
    rw [this, if_neg h]
    rfl

theorem witness_MiddleStages_routes : (atStage 5 1).stageRuns 5 = true ∧ linkTests.stageRuns 5 = true ∧ 7 ≤ 100 ∧
    (strayEntry.at_.present = true ∧ strayEntry.paddock < 272) ∧ (routed0 []).versionMeets false = true ∧ (routed0 [strayEntry]).versionMeets false = false := by
  refine ⟨by decide +kernel, by decide +kernel, by decide, by decide +kernel, by decide +kernel, ?_⟩
  have one : (routed0 [strayEntry]).staircaseOnly false = false := by decide +kernel
  have two : (routed0 [strayEntry]).droveReaches false 271 (routed0 [strayEntry]).liveRouters = false := by
    simp only [State.droveReaches, Bool.and_eq_false_imp, List.all_eq_false]
    refine fun _ => ⟨(⟨200, 0⟩ : Coord).key, ?_, ?_⟩
    · have there : (⟨200, 0⟩ : Coord) ∈ fieldCells 0 := by
        simp only [fieldCells, rectCells, upFrom, List.mem_flatMap, List.mem_map, List.mem_range]
        exact ⟨0, ⟨0, by decide, by decide +kernel⟩, 200, ⟨8, by decide, by decide +kernel⟩, rfl⟩
      exact List.mem_flatMap.mpr ⟨0, List.mem_range.mpr (by decide), List.mem_map_of_mem (List.mem_filter.mpr ⟨there, by decide +kernel⟩)⟩
    · have hop : ((routed0 [strayEntry]).wayOut false 271 (Coord.ofKey (⟨200, 0⟩ : Coord).key)).2.toList.flatMap (acrossKey (⟨200, 0⟩ : Coord).key) = [] := by
        decide +kernel
      have away : decide ((Coord.ofKey (⟨200, 0⟩ : Coord).key).paddock = 271) = false := by decide +kernel
      simp [away, hop]
  have none_ : (routed0 [strayEntry]).unrouted false = [] := by decide +kernel
  simp only [State.versionMeets, one, none_, Bool.false_or, List.not_mem_nil, decide_false, Bool.not_false, List.filter_true, Bool.and_true, Bool.and_eq_false_imp,
    List.all_eq_false]
  intro _
  refine ⟨271, ?_, ?_⟩
  · simp only [List.mem_filter, List.mem_range]
    exact ⟨by decide, by decide +kernel⟩
  · simp [two]

theorem witness_PaddockAttempts :
    let s := atStage 3 1
    let b := s.boot
    (({ s with boot := { b with first := ([0], [271]) } } : State).stageRuns 3 = true) ∧
    (({ b with first := ([0], [271]) } : BootState).first.2 = 271 :: [] ∧ ({ b with first := ([0], [271]) } : BootState).first.1 = 0 :: []) ∧
    (({ b with second := ([0], [271]) } : BootState).first.2 = [] ∧ ({ b with second := ([0], [271]) } : BootState).second.2 = 271 :: []) := by decide +kernel

theorem witness_LastStage : ∀ tested ∈ [false, true],
    let s := { atStage 8 1 with boot := { (atStage 8 1).boot with s8Left := some 5, s8Tested := tested } }
    s.stageRuns 8 = true ∧ s.boot.s8Left = some 5 ∧ s.boot.s8Tested = tested ∧ (s.port 63).mode = .down := by decide +kernel

/-! ### Requests of the object dictionary -/

/-- A management complex that serves, nothing heard yet. -/
def base : State := up (region .loaded)
/-- A source at the field port, and a request from it. -/
def rack : Source := { port := .field, addr := 5, udp := 9 }
def ask (op index subindex : Nat) (payload : List Byte) : OdpMsg := { odp with src := rack, op, index, subindex, length := payload.length, payload }

theorem serves_of (s : State) (m : OdpMsg) (h : (s.odpServed m.src.port && !odpMalformed m && s.odp.records == []) = true) : s.Serves m := by
  simp only [Bool.and_eq_true, Bool.not_eq_true', beq_iff_eq] at h
  exact ⟨h.1.1, h.1.2, by rw [h.2]; rfl⟩

/-- A WRITE brings its payload. -/
theorem brings_write (s : State) (m : OdpMsg) (e : OdpEntry) (h : (s.odpServed m.src.port && !odpMalformed m && s.odp.records == []) = true)
    (h2 : m.op = 2 ∧ s.entryFor m = .inr e ∧ (e.access = acRw ∨ e.access = acWo) ∧ e.type ≠ tyDomain ∧ (m.type = 0 ∨ m.type = e.type) ∧ e.min_ ≤ m.length ∧
      m.length ≤ e.max_) : s.Brings m m.index m.subindex e m.payload (s.heard m) :=
  ⟨serves_of s m h, .inl ⟨h2.1, rfl, rfl, h2.2.1, h2.2.2.1, h2.2.2.2.1, h2.2.2.2.2.1, h2.2.2.2.2.2.1, h2.2.2.2.2.2.2, rfl, rfl⟩⟩

/-- Stage 3, all of whose bytes have come in one piece, and the commit of it. -/
def stage (index subindex : Nat) (b : List Byte) : Stage :=
  { handle := 3, src := rack, index, subindex, session := 0, count := 0, total := b.length, pieces := [(0, b)], at_ := 0 }
def staged (s : State) (x : Stage) : State := { s with odp := { s.odp with stages := [x] } }
def commit : OdpMsg := { ask 5 0 0 [] with handle := 3 }

theorem stage_value (index subindex : Nat) (b : List Byte) : (stage index subindex b).value = some b := by
  have fold : ∀ (pre post : List Byte), b = pre ++ post → (List.range' pre.length post.length).foldr (fun i (acc : Option (List Byte)) =>
      match stagedByte [(0, b)] i, acc with | some x, some l => some (x :: l) | _, _ => none) (some []) = some post := by
    intro pre post
    induction post generalizing pre with
    | nil => intro; rfl
    | cons x post ih =>
      intro h
      have := ih (pre ++ [x]) (by simp [h])
      simp only [List.length_append, List.length_cons, List.length_nil, Nat.zero_add] at this
      rw [List.length_cons, List.range'_succ, List.foldr_cons, this]
      simp [stagedByte, h]
  have := fold [] b rfl
  unfold Stage.value
  rw [List.range_eq_range']
  exact this

/-- A commit brings the bytes of its stage, of a sealed entry where no operator is enrolled. -/
theorem brings_stage (s : State) (index sub : Nat) (b : List Byte) (e : OdpEntry) (h : (s.odpServed .field && s.odp.records == [] && s.clock == 0 && s.unenrolled) = true)
    (he : odpEntry index sub = some e) :
    (staged s (stage index sub b)).Brings commit index sub e b (((staged s (stage index sub b)).heard commit).stageFreed 3) := by
  simp only [Bool.and_eq_true, beq_iff_eq] at h
  obtain ⟨⟨⟨h1, h2⟩, h3⟩, h4⟩ := h
  refine ⟨⟨h1, rfl, by show (s.odp.records.find? _) = none; rw [h2]; rfl⟩, .inr ⟨rfl, stage index sub b, b, rfl, ?_, rfl, rfl, he, stage_value _ _ _, ?_⟩⟩
  · show s.clock < _
    rw [h3]; exact Nat.lt_of_lt_of_le (by decide : 0 < 10000000) (Nat.le_add_left _ _)
  · by_cases hr : e.access = acRws
    · exact .inr (.inl ⟨hr, rfl, by show (s.unenrolled && true) = true; rw [h4]; rfl, rfl, rfl⟩)
    · exact .inl ⟨hr, rfl, rfl⟩

/-- The entry of an index and subindex. -/
def entry (index sub : Nat) : OdpEntry := (odpEntry index sub).getD (numEntry 0 0)

theorem witness_DictionaryReads :
    (let m := ask 1 0x4003 1 []
     base.Serves m ∧ base.entryFor m = .inr (entry 0x4003 1) ∧ (entry 0x4003 1).access ≠ acWo ∧ (entry 0x4003 1).type ≠ tyDomain) ∧
    (let m := ask 1 0x4021 1 []
     base.Serves m ∧ base.entryFor m = .inr (entry 0x4021 1) ∧ (entry 0x4021 1).access ≠ acWo ∧ (entry 0x4021 1).snapped = true ∧ (base.heard m).odp.snapshots.length < 16) ∧
    (let m := { ask 1 0x4021 1 [] with handle := 5 }
     let x : Snapshot := { handle := 5, index := 0x4021, subindex := 1, value := [7], at_ := 0 }
     let s := { base with odp := { base.odp with snapshots := [x] } }
     s.Serves m ∧ s.entryFor m = .inr (entry 0x4021 1) ∧
      ((s.heard m).odp.snapshots.find? fun x => x.handle == m.handle && x.index == m.index && x.subindex == m.subindex) = some x) ∧
    (let m := ask 1 0x8010 1 []
     base.Serves m ∧ base.entryFor m = .inr (entry 0x8010 1) ∧ (entry 0x8010 1).access = acWo) ∧
    (let m := ask 1 0x1001 4 []
     base.Serves m ∧ base.entryFor m = .inl (whyNoEntry, none)) ∧
    (let m := ask 1 0x4003 1 []
     let s : State := { base with boot := { base.boot with minimal := true } }
     s.Serves m ∧ s.entryFor m = .inl (whyMinimal, some (entry 0x4003 1))) ∧
    (base.Serves (ask 0 0x1001 1 []) ∧ base.Serves (ask 7 0x1001 1 [])) := by
  refine ⟨⟨serves_of _ _ ?_, ?_⟩, ⟨serves_of _ _ ?_, ?_⟩, ⟨serves_of _ _ ?_, ?_⟩, ⟨serves_of _ _ ?_, ?_⟩, ⟨serves_of _ _ ?_, ?_⟩, ⟨serves_of _ _ ?_, ?_⟩, serves_of _ _ ?_, serves_of _ _ ?_⟩ <;>
    decide +kernel

/-- The rows of the requests that a WRITE or a READ of an entry of its own makes. -/
def ownRows (m : OdpMsg) : List (Instr × Nat × Nat) :=
  [(.operatorKey m, 0x9020, 1), (.keyClear m, 0x9021, 1), (.ownerRequired m, 0x9004, 1), (.engineId m, 0x6001, 1), (.mgmtImage m, 0x2011, 1), (.spreadWrite m, 0x3002, 1),
   (.fieldSource m, 0x3030, 1), (.routeTable m, 0x6003, 1), (.routerMarks m, 0xA030, 1), (.sessionOpen m, 0x9010, 2), (.sessionClose m, 0x9010, 3), (.vendorKeyRevoke m, 0x9003, 2),
   (.attestNonce m, 0x9002, 1), (.restart m, 0x2010, 3), (.historyClear m, 0x7030, 2), (.musterQuery m, 0xA011, 1), (.tallyQuery m, 0xA040, 1), (.windowRecordWrite m, 0x611F, 1),
   (.windowOpen m, 0x6120, 1), (.qpReset m, 0x6320, 1), (.freeze m, 0x8010, 1)]

/-- A message of every row of `Claims.DictionaryDiscards`. -/
theorem witness_DictionaryDiscards_rows :
    (∀ row ∈ [(Instr.odpRead, 1), (.odpWrite, 2), (.stageBegin, 3), (.stageData, 4), (.stageCommit, 5), (.stageCancel, 6)],
      let m := ask row.2 0x4003 1 []
      (row.1 m, m.op) ∈ [(Instr.odpRead m, 1), (.odpWrite m, 2), (.stageBegin m, 3), (.stageData m, 4), (.stageCommit m, 5), (.stageCancel m, 6)]) ∧
    (∀ e ∈ ownRows odp, (odpEntry e.2.1 e.2.2).isSome = true) ∧
    bits (leNat (ask 2 0x6120 1 [0, 32]).payload) 12 4 = 2 ∧ leNat (ask 2 0x6320 1 [1]).payload % 256 ≠ 0 ∧ leNat (ask 2 0x8010 1 [0xFF]).payload = 0xFF := by
  refine ⟨?_, by decide +kernel, by decide +kernel, by decide +kernel, by decide +kernel⟩
  intro row h
  simp only [List.mem_cons, List.not_mem_nil, or_false] at h
  obtain rfl | rfl | rfl | rfl | rfl | rfl := h <;> simp [ask]

theorem witness_DictionaryDiscards :
    let m := ask 2 0x4003 1 [85]
    let a := odpReply m none Codes.ok 0
    let s := { base with odp := { base.odp with records := [{ src := rack, seq := m.seq, reply := some a }] } }
    State.reset.odpServed m.src.port = false ∧ base.odpServed m.src.port = true ∧ odpMalformed { m with version := 2 } = true ∧ odpMalformed m = false ∧
    s.odpServed m.src.port = true ∧ s.odp.records.find? (fun r => r.src == m.src && r.seq == m.seq) = some { src := rack, seq := m.seq, reply := some a } := by decide +kernel

theorem witness_DictionaryWrites :
    (∀ b ∈ ([84, 85, 100, 101] : List Byte), base.Brings (ask 2 0x4003 1 [b]) 0x4003 1 (entry 0x4003 1) [b] (base.heard (ask 2 0x4003 1 [b]))) ∧
    (let m := { ask 3 0x6005 1 [] with total := 128 }
     base.Serves m ∧ base.entryFor m = .inr (entry 0x6005 1) ∧ (entry 0x6005 1).type = tyDomain ∧ (entry 0x6005 1).access = acRw ∧
      (entry 0x6005 1).fits m.index m.total = true ∧ (base.heard m).odp.stages.length < 16 ∧ ((base.heard m).odp.stages.map (·.total)).sum + m.total ≤ stageRoom) ∧
    (let m := { ask 4 0 0 [7] with handle := 3, offset := 1 }
     let x := stage 0x6005 1 [1, 2]
     (staged base x).Serves m ∧ ((staged base x).heard m).odp.stages = [x] ∧ x.handle = m.handle ∧ m.offset + m.length = x.total) ∧
    (let m := { ask 6 0 0 [] with handle := 3 }
     (staged base (stage 0x6005 1 [1, 2])).Serves m ∧ ((staged base (stage 0x6005 1 [1, 2])).heard m).stageOf m.handle = some (stage 0x6005 1 [1, 2])) ∧
    (let x := { stage 0x6005 1 [1, 2] with pieces := [(1, [2])] }
     (staged base x).Serves commit ∧ ((staged base x).heard commit).stageOf commit.handle = some x ∧ odpEntry x.index x.subindex = some (entry 0x6005 1) ∧ x.value = none) ∧
    (let b : List Byte := leBytes 2 4095 ++ leBytes 2 0
     (staged base (stage 0x6005 1 b)).Brings commit 0x6005 1 (entry 0x6005 1) b (((staged base (stage 0x6005 1 b)).heard commit).stageFreed 3) ∧
      ∀ i, i < b.length / 2 → numAt b (2 * i) 2 ≤ 4095) := by
  refine ⟨?_, ⟨serves_of _ _ ?_, ?_⟩, ⟨serves_of _ _ ?_, ?_⟩, ⟨serves_of _ _ ?_, ?_⟩, ⟨serves_of _ _ ?_, ?_⟩, brings_stage _ _ _ _ _ ?_ ?_, ?_⟩
  · exact fun b h => brings_write base (ask 2 0x4003 1 [b]) _ (by revert b; decide +kernel) (by revert b; decide +kernel)
  all_goals decide +kernel

theorem witness_DictionaryTimes :
    (let s := staged { State.reset with clock := 10000000 } (stage 0x6005 1 [])
     s.stageOf 3 = some (stage 0x6005 1 []) ∧ s.clock ≤ (stage 0x6005 1 []).at_ + 10000000) ∧
    (let x : Snapshot := { handle := 5, index := 0x4021, subindex := 1, value := [], at_ := 0 }
     let o := { OdpState.reset with snapshots := [x] }
     o.snapshots.find? (fun x => x.handle == 5) = some x ∧ 2000000 ≤ x.at_ + 2000000) ∧
    (let x : Challenge := { src := rack, bytes := [], at_ := 0 }
     let o := { OdpState.reset with challenges := [x] }
     o.challenges.find? (fun x => x.src == rack) = some x ∧ 30000000 ≤ x.at_ + 30000000) ∧
    (let x : Session := { number := 6, src := rack, slot := 1, challenge := [], count := 0, at_ := 0 }
     let o := { OdpState.reset with sessions := [x] }
     o.sessions.find? (fun x => x.number == 6) = some x ∧ 300000000 ≤ x.at_ + 300000000) := by decide +kernel

/-! ### Settings written through the dictionary -/

/-- The state after the value of `base`, or of a variation of it, has been brought. -/
def brought (s : State) (index sub : Nat) (b : List Byte) : State := ((staged s (stage index sub b)).heard commit).stageFreed 3
/-- A commit of bytes, and a WRITE of bytes, that come to an entry. -/
def Commits (s : State) (index sub : Nat) (b : List Byte) : Prop :=
  (staged s (stage index sub b)).Brings commit index sub (entry index sub) b (brought s index sub b)
def Writes (s : State) (index sub : Nat) (b : List Byte) : Prop :=
  s.Brings (ask 2 index sub b) index sub (entry index sub) b (s.heard (ask 2 index sub b))

theorem commits_of (s : State) (index sub : Nat) (b : List Byte)
    (h : (s.odpServed .field && s.odp.records == [] && s.clock == 0 && s.unenrolled && odpEntry index sub == some (entry index sub)) = true) : Commits s index sub b := by
  have ⟨h1, h2⟩ := Bool.and_eq_true_iff.mp h
  exact brings_stage s index sub b _ h1 (eq_of_beq h2)

theorem writes_of (s : State) (index sub : Nat) (b : List Byte)
    (h : (s.odpServed .field && !odpMalformed (ask 2 index sub b) && s.odp.records == []) = true)
    (h2 : s.entryFor (ask 2 index sub b) = .inr (entry index sub) ∧ ((entry index sub).access = acRw ∨ (entry index sub).access = acWo) ∧
      (entry index sub).type ≠ tyDomain ∧ (entry index sub).min_ ≤ b.length ∧ b.length ≤ (entry index sub).max_) : Writes s index sub b :=
  brings_write s _ _ h ⟨rfl, h2.1, h2.2.1, h2.2.2.1, .inl rfl, h2.2.2.2⟩

/-- A session request of slot 4: its challenge, and a signature of zeros. -/
def opening : List Byte := [4, 0, 0, 0] ++ List.replicate 32 7 ++ List.replicate 2432 0
/-- Challenge 7 … 7 held for the rack, and a key in slot 4. -/
def challenged : State :=
  { base with
    odp := { base.odp with challenges := [{ src := rack, bytes := List.replicate 32 7, at_ := 0 }] }
    flash := { base.flash with keys := [(4, [1])] } }
/-- A session of the rack. -/
def inSession : State :=
  { base with odp := { base.odp with sessions := [{ number := 6, src := rack, slot := 1, challenge := [], count := 0, at_ := 0 }] } }

/-- SESSION_OPEN is a DOMAIN that may be written without a session, so its stage comes with keys enrolled too. -/
theorem opens : (staged challenged (stage 0x9010 2 opening)).Brings commit 0x9010 2 (entry 0x9010 2) opening (brought challenged 0x9010 2 opening) :=
  ⟨serves_of _ _ (by decide +kernel), .inr ⟨rfl, stage 0x9010 2 opening, opening, rfl, by decide, rfl, rfl, by decide +kernel, stage_value _ _ _,
    .inl ⟨by decide +kernel, rfl, rfl⟩⟩⟩

theorem witness_Sessions :
    (let m := ask 1 0x9010 1 []
     base.Serves m ∧ base.entryFor m = .inr (entry 0x9010 1) ∧ m.handle = 0 ∧ (base.heard m).odp.snapshots.length < 16) ∧
    ((staged challenged (stage 0x9010 2 opening)).Brings commit 0x9010 2 (entry 0x9010 2) opening (brought challenged 0x9010 2 opening) ∧
      numAt opening 0 1 = 4 ∧ zeroAt opening 1 3 = true ∧ zeroAt opening 36 12 = true ∧
      (∃ c ∈ (brought challenged 0x9010 2 opening).odp.challenges, c.src = commit.src ∧ c.bytes = sliceOf opening 4 32) ∧
      (brought challenged 0x9010 2 opening).flash.keys.find 4 = some [1] ∧ (brought challenged 0x9010 2 opening).odp.sessions.length < 4) ∧
    (Writes inSession 0x9010 3 [6, 0, 0, 0] ∧ ∃ x ∈ (inSession.heard (ask 2 0x9010 3 [6, 0, 0, 0])).odp.sessions, x.number = leNat [6, 0, 0, 0] ∧ x.src = rack) := by
  refine ⟨⟨serves_of _ _ ?_, ?_⟩, ⟨opens, ?_⟩, writes_of _ _ _ _ ?_ ?_, ?_⟩ <;> decide +kernel

/-- No operator enrolled, an owner required all the same. -/
def ownerLost : State := { base with flash := { base.flash with ownerRequired := true } }
/-- A running image of vendor key 3. -/
def keyed : State := { base with boot := { base.boot with running := some (List.replicate 8 0 ++ [3] ++ List.replicate 200 0) } }

theorem witness_Keys : Commits base 0x9020 4 (List.replicate 1312 1) ∧
    (Commits base 0x9021 4 [1] ∧ (brought base 0x9021 4 [1]).flash.ownerRequired = false) ∧
    (Commits ownerLost 0x9021 4 [1] ∧ (brought ownerLost 0x9021 4 [1]).flash.ownerRequired = true ∧ (brought ownerLost 0x9021 4 [1]).flash.keys.erase 4 = []) ∧
    (Commits base 0x9003 2 [3] ∧ (brought base 0x9003 2 [3]).flash.vendorKeyMin < leNat [3] ∧
      (Envelope.of ((brought base 0x9003 2 [3]).boot.running.getD [])).keyId < leNat [3]) ∧
    (Commits keyed 0x9003 2 [3] ∧ leNat [3] ≤ (Envelope.of ((brought keyed 0x9003 2 [3]).boot.running.getD [])).keyId) ∧
    (Commits base 0x9004 1 [0] ∧ leNat [0] = 0) ∧ (Commits base 0x9004 1 [1] ∧ leNat [1] = 1 ∧ (brought base 0x9004 1 [1]).flash.keys = []) := by
  refine ⟨commits_of _ _ _ _ ?_, ⟨commits_of _ _ _ _ ?_, ?_⟩, ⟨commits_of _ _ _ _ ?_, ?_⟩, ⟨commits_of _ _ _ _ ?_, ?_⟩, ⟨commits_of _ _ _ _ ?_, ?_⟩, ⟨commits_of _ _ _ _ ?_, ?_⟩, commits_of _ _ _ _ ?_, ?_⟩ <;>
    decide +kernel

theorem witness_Attestation : (Commits base 0x9002 1 (List.replicate 32 5) ∧ (brought base 0x9002 1 (List.replicate 32 5)).odp.attesting = []) ∧
    (let s := { base with odp := { base.odp with attesting := [([1], commit)] } }
     Commits s 0x9002 1 (List.replicate 32 5) ∧ (brought s 0x9002 1 (List.replicate 32 5)).odp.attesting ≠ [] ∧ s.odp.attesting = [([1], commit)]) := by
  refine ⟨⟨commits_of _ _ _ _ ?_, ?_⟩, commits_of _ _ _ _ ?_, ?_⟩ <;> decide +kernel

theorem witness_BoardSettings :
    (Writes base 0x6001 1 [0xFF, 0x0F] ∧ (base.heard (ask 2 0x6001 1 [0xFF, 0x0F])).relend.idLocked = false ∧ leNat [0xFF, 0x0F] = 4095) ∧
    (let s := { base with relend := { base.relend with idLocked := true } }
     Writes s 0x6001 1 [0, 0] ∧ (s.heard (ask 2 0x6001 1 [0, 0])).relend.idLocked = true) ∧
    (Commits base 0x2010 3 [1] ∧ (brought base 0x2010 3 [1]).pwr.overtemp = false ∧ (brought base 0x2010 3 [1]).boot.restartAt = none) ∧
    (Commits base 0x2011 1 [1, 2] ∧ (brought base 0x2011 1 [1, 2]).boot.writing = none) ∧
    (({ base.boot with writing := some ([1], commit) } : BootState).writing = some ([1], commit)) ∧
    (∀ o ∈ [(1, false), (3, true)], Writes base 0x3002 o.1 [10] ∧ (base.heard (ask 2 0x3002 o.1 [10])).halfRuns o.2 = false) ∧
    (∀ o ∈ [(2, false), (4, true)], Writes base 0x3002 o.1 (leBytes 2 330) ∧ (base.heard (ask 2 0x3002 o.1 (leBytes 2 330))).halfRuns o.2 = false ∧
      leNat (leBytes 2 330) = 330) ∧
    (∃ o ∈ [(1, false), (3, true)], Writes (up (region .running)) 0x3002 o.1 [10] ∧ ((up (region .running)).heard (ask 2 0x3002 o.1 [10])).halfRuns o.2 = true) ∧
    (∀ v ∈ ([0, 3, 4, 7] : List Byte), let s := { base with clk := { base.clk with ready := [67] } }
     Writes s 0x3030 68 [v] ∧ (s.heard (ask 2 0x3030 68 [v])).boot.stage = some 9 ∧ (s.heard (ask 2 0x3030 68 [v])).fieldQuiet 67 = true ∧
       67 ∈ (s.heard (ask 2 0x3030 68 [v])).clk.ready) ∧
    Commits base 0x7030 2 [1] := by
  refine ⟨⟨writes_of _ _ _ _ ?_ ?_, ?_⟩, ⟨writes_of _ _ _ _ ?_ ?_, ?_⟩, ⟨commits_of _ _ _ _ ?_, ?_⟩, ⟨commits_of _ _ _ _ ?_, ?_⟩, ?_, ?_, ?_, ?_, ?_, commits_of _ _ _ _ ?_⟩
  rotate_left 11
  · exact fun o h => ⟨writes_of _ _ _ _ (by revert o; decide +kernel) (by revert o; decide +kernel), by revert o; decide +kernel⟩
  · exact fun o h => ⟨writes_of _ _ _ _ (by revert o; decide +kernel) (by revert o; decide +kernel), by revert o; decide +kernel⟩
  · exact ⟨(1, false), by decide, writes_of _ _ _ _ (by decide +kernel) (by decide +kernel), by decide +kernel⟩
  · exact fun v h => ⟨writes_of _ _ _ _ (by revert v; decide +kernel) (by revert v; decide +kernel), by revert v; decide +kernel⟩
  all_goals decide +kernel

/-- A window 4095 of space 0 in a mode, with requests in hand. -/
def window (mode : WindowMode) (busy size : Nat) : State :=
  { base with relend := { base.relend with windows := [(4095, { Window.zero with mode, busy, size, read := true })] } }

theorem witness_WindowsAndRoutes : (Commits base 0x6003 1 (List.replicate 16384 0) ∧ routeOk (numAt (List.replicate 16384 0) 0 4) = true) ∧
    (Commits base 0x611F 128 (List.replicate 16 0) ∧ ((brought base 0x611F 128 (List.replicate 16 0)).window 4095).mode = .closed) ∧
    (Commits (window .open_ 0 64) 0x611F 128 (List.replicate 16 0) ∧ ((brought (window .open_ 0 64) 0x611F 128 (List.replicate 16 0)).window 4095).mode ≠ .closed) ∧
    (∀ size ∈ [0, 64], let s := window .closed 0 size
      let b := leBytes 4 (4095 + 4096)
      Writes s 0x6120 1 b ∧ leNat b = 4095 + 4096 ∧ ((s.heard (ask 2 0x6120 1 b)).window 4095).mode = .closed ∧
        (((s.heard (ask 2 0x6120 1 b)).window 4095).rangeOk = true ↔ size = 64) ∧
        (s.heard (ask 2 0x6120 1 b)).windowTaken ((s.heard (ask 2 0x6120 1 b)).window 4095) = false) ∧
    (∀ busy ∈ [0, 2], let s := window .open_ busy 64
      let b := leBytes 4 (4095 + 8192)
      Writes s 0x6120 1 b ∧ leNat b = 4095 + 8192 ∧ ((s.heard (ask 2 0x6120 1 b)).window 4095).mode ≠ .closed ∧
        ((s.heard (ask 2 0x6120 1 b)).window 4095).busy = busy) ∧
    (let s := window .closing 2 64
     let b := leBytes 4 (4095 + 8192)
     Writes s 0x6120 1 b ∧ ((s.heard (ask 2 0x6120 1 b)).window 4095).mode = .closing) ∧
    (((window .closing 0 64).window 4095).mode = .closing ∧ ((window .closing 0 64).window 4095).busy = 0) := by
  refine ⟨⟨commits_of _ _ _ _ ?_, ?_⟩, ⟨commits_of _ _ _ _ ?_, ?_⟩, ⟨commits_of _ _ _ _ ?_, ?_⟩, ?_, ?_, ⟨writes_of _ _ _ _ (by decide +kernel) (by decide +kernel), by decide +kernel⟩, ?_⟩
  rotate_left 6
  · exact fun n h => ⟨writes_of _ _ _ _ (by revert n; decide +kernel) (by revert n; decide +kernel), by revert n; decide +kernel⟩
  · exact fun n h => ⟨writes_of _ _ _ _ (by revert n; decide +kernel) (by revert n; decide +kernel), by revert n; decide +kernel⟩
  all_goals decide +kernel

theorem witness_QueriesAndMarks : Writes base 0xA011 1 [255] ∧
    (Writes base 0xA040 1 (leBytes 4 200) ∧ tcell.present = true ∧ leNat (leBytes 4 200) = tcell.x + 1024 * tcell.y) ∧
    (let b : List Byte := [1, 2, 192, 1]
     Writes base 0xA030 1 b ∧ bits (leNat b) 0 8 < bits (leNat b) 8 8 ∧ bits (leNat b) 8 8 ≤ bits (leNat b) 16 8 ∧ bits (leNat b) 16 8 ≤ 192 ∧ bits (leNat b) 24 8 ≠ 0) ∧
    (Writes base 0x8010 1 [68] ∧ (base.heard (ask 2 0x8010 1 [68])).freezeRefused 68 = false) ∧
    (let s := { base with recd := { base.recd with frozen := some (3, 0) } }
     Writes s 0x8010 1 [68] ∧ (s.heard (ask 2 0x8010 1 [68])).freezeRefused 68 = true) ∧
    (Writes base 0x8010 1 [0xFF] ∧ (base.heard (ask 2 0x8010 1 [0xFF])).freezeRefused 0xFF = false) := by
  refine ⟨writes_of _ _ _ _ ?_ ?_, ⟨writes_of _ _ _ _ ?_ ?_, ?_⟩, ⟨writes_of _ _ _ _ ?_ ?_, ?_⟩, ⟨writes_of _ _ _ _ ?_ ?_, ?_⟩, ⟨writes_of _ _ _ _ ?_ ?_, ?_⟩,
    writes_of _ _ _ _ ?_ ?_, ?_⟩ <;> decide +kernel

/-! ### The host port -/

/-- Queue pair 63 in a mode, with jobs. -/
def paired (mode : QpMode) (jobs : List RdmaJob) (message : Option (Nat × Nat)) : State :=
  { base with
    eth := { base.eth with up := true, qps := [(63, { QueuePair.zero with mode, jobs, message })] }
    relend := { base.relend with windows := windows true } }
/-- A write of one line that waits. -/
def waitingWrite : RdmaJob := { psn := 0, use := .write (List.replicate 64 1), window := none, addr := 0 }
/-- The 32 bytes of a queue pair to be armed, or reset. -/
def pairBytes (mode : Byte) : List Byte := [mode, 4] ++ List.replicate 30 0

theorem witness_QueuePairWrites :
    (Commits base 0x6320 64 (pairBytes 1) ∧ numAt (pairBytes 1) 0 1 = 1 ∧ (pairBytes 1).length = 32 ∧ ((brought base 0x6320 64 (pairBytes 1)).pair 63).mode = .reset ∧
      pairOk (pairBytes 1) = true) ∧
    (Commits (paired .rts [] none) 0x6320 64 (pairBytes 1) ∧ ((brought (paired .rts [] none) 0x6320 64 (pairBytes 1)).pair 63).mode ≠ .reset) ∧
    (numAt (pairBytes 0) 0 1 = 0 ∧ ∀ jobs ∈ [[], [waitingWrite]], Commits (paired .rts jobs none) 0x6320 64 (pairBytes 0) ∧
      ((brought (paired .rts jobs none) 0x6320 64 (pairBytes 0)).pair 63).mode ≠ .reset ∧ ((brought (paired .rts jobs none) 0x6320 64 (pairBytes 0)).pair 63).jobs = jobs) ∧
    ((brought (paired .rts [] none) 0x6320 64 (pairBytes 0)).pair 63).resetting = [] ∧
    (let s := base.mapPair 63 fun x => { x with mode := .rts, resetting := [(commit, pairBytes 0)] }
     Commits s 0x6320 64 (pairBytes 0) ∧ ((brought s 0x6320 64 (pairBytes 0)).pair 63).mode ≠ .reset ∧ ((brought s 0x6320 64 (pairBytes 0)).pair 63).resetting ≠ []) ∧
    (base.pair 63).jobs = [] := by
  refine ⟨⟨commits_of _ _ _ _ ?_, ?_⟩, ⟨commits_of _ _ _ _ ?_, ?_⟩, ⟨?_, ?_⟩, ?_, ⟨commits_of _ _ _ _ ?_, ?_⟩, ?_⟩
  rotate_left 5
  · exact fun jobs h => ⟨commits_of _ _ _ _ (by revert jobs; decide +kernel), by revert jobs; decide +kernel⟩
  all_goals decide +kernel

/-- A packet of one line for pair 63, under window 4095. -/
def line63 : RdmaPkt := { qp := 63, psn := 0, rkey := 4095, va := 64, dmaLen := 64, payload := List.replicate 64 1, ce := false }

theorem witness_RdmaRequests : ((base.pair 63).takes = false ∧ (paired .rts [] none).eth.up = true) ∧
    (let s := paired .rts [] none
     let u := s.mapPair 63 fun x => { x with naked := false }
     (s.pair 63).takes = true ∧ line63.psn = (s.pair 63).psn ∧ (∀ kind ∈ [RdmaKind.first, .only, .read], u.rdmaBad line63 kind (s.pair 63).message 4095 64 = false) ∧
       (u.window 4095).mode = .open_ ∧ (u.window 4095).covers 0 64 64 = true ∧ (u.window 4095).allows kWrite = true ∧ (u.window 4095).allows kRead = true) ∧
    (let s := paired .rts [] (some (4095, 128))
     let u := s.mapPair 63 fun x => { x with naked := false }
     (s.pair 63).takes = true ∧ (s.pair 63).message = some (4095, 128) ∧ (∀ kind ∈ [RdmaKind.middle, .last], u.rdmaBad line63 kind (some (4095, 128)) 4095 128 = false) ∧
       (u.window 4095).covers 0 128 line63.payload.length = true) ∧
    (let s := paired .rts [waitingWrite] none
     let u := s.mapPair 63 fun x => { x with jobs := [] }
     (s.pair 63).jobs = [waitingWrite] ∧ (s.pair 63).mode = .rts ∧ (u.pair 63).jobs = [] ∧ (u.rdmaWriteLines 63 waitingWrite (List.replicate 64 1) []).1 = none ∧
       ((u.rdmaWriteLines 63 waitingWrite (List.replicate 64 1) []).2.pair 63).mode = .rts ∧
       ((u.rdmaWriteLines 63 waitingWrite (List.replicate 64 1) []).2.pair 63).jobs = []) := by decide +kernel

/-- A frame at a port, at the host port's HOST_IPV4 or the port's link-local address. -/
def ethFrame (port : MgmtPort) (kind : EthKind) (dstUdp length : Nat) (payload : List Byte) : EthFrame :=
  { port, kind, ipv4 := port == .host, dest := if port = .host then 7 else linkLocal (portMac port), ce := false, length, tagged := false, pause := false, dstUdp, src := rack,
    checksumOk := true, ipv4Zero := false, payload }
/-- A host port with HOST_IPV4 7, its link up, in minimal mode or not. -/
def hosting (minimal : Bool) : State :=
  { paired .rts [] none with
    boot := { (paired .rts [] none).boot with minimal }
    odp := { (paired .rts [] none).odp with ipv4 := 7 } }

theorem addressed_field (s : State) (kind : EthKind) (dstUdp length : Nat) (payload : List Byte) : s.addressed (ethFrame .field kind dstUdp length payload) = true := by
  simp [State.addressed, ethFrame]

theorem addressed_host (kind : EthKind) (dstUdp length : Nat) (payload : List Byte) : (hosting false).addressed (ethFrame .host kind dstUdp length payload) = true := by
  have : (hosting false).odp.ipv4 = 7 := rfl
  simp [State.addressed, ethFrame, this]

theorem witness_HostPorts : (∀ minimal ∈ [false, true], (hosting minimal).boot.powered = true ∧ (hosting minimal).boot.refclk = true ∧ (hosting minimal).boot.minimal = minimal) ∧
    (hosting false).eth.up = true ∧
    (∀ length ∈ [64, 9216], (((hosting false).eth.rx.filter fun g => g.port == .host).map (·.length)).sum + length ≤ rxRoom) ∧
    udpHcp ≠ 1 ∧ udpOdp ≠ 1 ∧ udpRoce ≠ 1 ∧ ([] : List Byte).length < 32 ∧ 32 ≤ (List.replicate 32 (0 : Byte)).length ∧
    (hosting false).odpServed .host = true ∧ (hosting true).odpServed .field = true ∧
    rxRoom < (([ethFrame .host .udp udpOdp rxRoom []].filter fun g => g.port == .host).map (·.length)).sum + 64 := by decide +kernel

/-- Frames of every kind at an address of a port, and one at none. -/
theorem witness_HostPorts_addresses : (∀ kind dst length b, (hosting false).addressed (ethFrame .host kind dst length b) = true ∧
      (ethFrame .host kind dst length b).ipv4 = true ∧ (ethFrame .host kind dst length b).dest = (hosting false).odp.ipv4) ∧
    (∀ kind dst length b, (hosting false).addressed (ethFrame .field kind dst length b) = true ∧ (ethFrame .field kind dst length b).ipv4 = false ∧
      (ethFrame .field kind dst length b).dest = linkLocal (portMac (ethFrame .field kind dst length b).port)) ∧
    (∀ port, (hosting false).addressed { ethFrame port .udp udpOdp 64 [] with ipv4 := true, dest := 0 } = false) ∧
    (let f := { ethFrame .host .udp udpOdp 64 [] with dest := base.odp.ipv4 }
     f.ipv4 = true ∧ f.port = .host ∧ f.dest = base.odp.ipv4 ∧ base.odp.ipv4 = 0) := by
  refine ⟨fun _ _ _ _ => ⟨addressed_host _ _ _ _, rfl, rfl⟩, fun _ _ _ _ => ⟨addressed_field _ _ _ _ _, rfl, rfl⟩, fun port => ?_, rfl, rfl, rfl, rfl⟩
  have : (hosting false).odp.ipv4 = 7 := rfl
  cases port <;> simp [State.addressed, this]

/-! ### What every command keeps -/

theorem witness_UnitsThatExist : (Instr.nop tcell).wf = true ∧ (Instr.hubHeartbeat 67 true).wf = true ∧ (Instr.nodeLost (.row 7)).wf = true ∧
    (Instr.odpRead (ask 1 0x1001 1 [])).wf = true := by decide +kernel

/-- A legal state whose step answers a next state: reset with a command in front. -/
theorem witness_SettingsStayLegal : State.reset.Legal ∧ ∃ t, step { State.reset with pending := [.nop tcell] } = .next t := by
  refine ⟨⟨?_, ?_, ?_, ?_, ?_, ⟨?_, ?_, ?_⟩, ?_, ?_, ?_⟩, _, rfl⟩ <;> decide +kernel

/-- The same for time and the fuses, on an empty queue. -/
theorem witness_TimeAndFuses : ∃ t, step State.reset = .next t := ⟨_, rfl⟩
end Sys2Proof.Tests
end

section
/-!
SUPPORT. The turn of a cell's current fold (R49): no operation and nothing an issue books changes it, so that only the scheduling rule does; and what that
rule makes of a cycle in which the sequencer is neither stopped nor waiting for reads.
-/
namespace Sys2Proof.Machine

/-! ### What leaves the turn alone -/

/-- CUR_FOLD and run, the two fields the scheduling rule moves (R49). -/
def Work.turn (w : Work) : Nat × Nat := (w.cell.seq.cur, w.cell.seq.run)

theorem Work.Still.turn_eq {w t : Work} (h : w.Still t) : t.turn = w.turn := by
  simp only [Work.turn, h.cur, h.run]

@[simp] theorem Work.raise_turn (w : Work) (code : Code) (f e i d : Nat) : (w.raise code f e i d).turn = w.turn :=
  (w.raise_still code f e i d).turn_eq

@[simp] theorem Work.read_turn (w : Work) (a n f e i : Nat) : (w.read a n f e i).2.turn = w.turn := (w.read_still a n f e i).turn_eq

@[simp] theorem Work.mapFab_turn (w : Work) (g : FabricState → FabricState) : (w.mapFab g).turn = w.turn := rfl

@[simp] theorem Work.mapMesh_turn (w : Work) (g : MeshState → MeshState) : (w.mapMesh g).turn = w.turn := rfl

theorem Work.map_turn {w : Work} {g : Cell → Cell} (h : (g w.cell).seq = w.cell.seq) : (w.map g).turn = w.turn := by
  simp only [Work.turn, Work.map, h]

theorem Work.mapSeq_turn {w : Work} {g : SeqState → SeqState} (hcur : (g w.cell.seq).cur = w.cell.seq.cur)
    (hrun : (g w.cell.seq).run = w.cell.seq.run) : (w.mapSeq g).turn = w.turn := by
  simp only [Work.turn, Work.mapSeq, hcur, hrun]

/-- Steps that each keep the turn keep it together. -/
theorem foldl_turn {α β : Type} (of : β → Work) {g : β → α → β} (h : ∀ b a, (of (g b a)).turn = (of b).turn) (l : List α) (b : β) :
    (of (l.foldl g b)).turn = (of b).turn :=
  List.foldlRecOn (motive := fun x => (of x).turn = (of b).turn) l g rfl fun x hx a _ => (h x a).trans hx

@[simp] theorem Work.putResult_turn (w : Work) (e : Entry) (k : CellKind) (ok : Bool) (f iter : Nat) (v : Payload) :
    (w.putResult e k ok f iter v).2.turn = w.turn := by
  unfold Work.putResult
  dsimp only
  (repeat' split) <;> simp

@[simp] theorem Work.musterEnter_turn (w : Work) (f entry iter : Nat) (e : Entry) : (w.musterEnter f entry iter e).turn = w.turn := by
  unfold Work.musterEnter
  dsimp only
  split
  · rfl
  · exact (Work.map_turn rfl).trans (w.raise_turn ..)

@[simp] theorem Work.meshIssue_turn (w : Work) (f : Nat) (e : Entry) (k : CellKind) (iter : Nat) (data : Payload) :
    (w.meshIssue f e k iter data).2.turn = w.turn := by
  unfold Work.meshIssue
  dsimp only
  split <;> rfl

@[simp] theorem Work.lookup_turn (w : Work) (f entry iter : Nat) (e : Entry) (tok : Payload) :
    (w.lookup f entry iter e tok).2.turn = w.turn := by
  unfold Work.lookup
  dsimp only
  (repeat' split) <;> simp [foldl_turn Prod.snd]

theorem Work.turn_of_lookup_eq {w : Work} {f entry iter : Nat} {e : Entry} {tok : Payload} {r : Option Payload × Work}
    (h : w.lookup f entry iter e tok = r) : r.2.turn = w.turn := h ▸ w.lookup_turn f entry iter e tok

/-- AG_RESET changes generators, and nothing of the sequencer (R38). -/
theorem Cell.foldl_resetAg_seq : ∀ (l : List Nat) (c : Cell), (l.foldl Cell.resetAg c).seq = c.seq
  | [], _ => rfl
  | n :: l, c => Cell.foldl_resetAg_seq l (c.resetAg n)

/-- No operation changes the current fold or its run: only the scheduling rule does (R49). -/
@[simp] theorem Work.execute_turn (w : Work) (f entry iter : Nat) (e : Entry) (ok : Bool) (got : List (ReadRole × Payload)) :
    (w.execute f entry iter e ok got).2.turn = w.turn := by
  unfold Work.execute
  dsimp only
  split
  case h_3 => -- AG_RESET
    split
    · exact Work.map_turn (Cell.foldl_resetAg_seq ..)
    · rfl
  case h_17 => -- LOOKUP, which reads the scratchpad before its result is put
    split
    · exact (Work.putResult_turn ..).trans (Work.turn_of_lookup_eq ‹_›)
    · split <;> exact Work.turn_of_lookup_eq ‹_›
  -- every other operation leaves the cell to `put`, raises a fault, or only makes effects
  all_goals (repeat' split) <;> simp

@[simp] theorem Work.pop_turn (w : Work) (f p : Nat) : (w.pop f p).turn = w.turn := by
  unfold Work.pop
  split <;> rfl

@[simp] theorem Work.foldEnd_turn (w : Work) (f entry iter : Nat) : (w.foldEnd f entry iter).turn = w.turn := by
  unfold Work.foldEnd
  dsimp only
  (repeat' split) <;> simp [Work.mapSeq_turn]

@[simp] theorem Work.advance_turn (w : Work) (f : Nat) (e : Entry) (entry iter : Nat) : (w.advance f e entry iter).turn = w.turn := by
  unfold Work.advance
  rw [Work.mapSeq_turn rfl rfl]
  split
  · exact Work.foldEnd_turn ..
  · rfl

@[simp] theorem Work.foldl_pop_turn (w : Work) (f : Nat) (l : List (Nat × Bool)) : (l.foldl (fun w p => w.pop f p.1) w).turn = w.turn :=
  foldl_turn id (g := fun v (p : Nat × Bool) => v.pop f p.1) (fun v p => v.pop_turn f p.1) l w

@[simp] theorem Work.foldl_advanceAg_turn (w : Work) (l : List Nat) : (l.foldl (fun w g => w.map fun c => c.advanceAg g) w).turn = w.turn :=
  foldl_turn id (g := fun v n => v.map fun c => c.advanceAg n) (fun _ _ => Work.map_turn rfl) l w

/-- What an issue books leaves the turn alone; its run is counted by the scheduling rule (R49). -/
@[simp] theorem Work.book_turn (w : Work) (f : Nat) (e : Entry) (s : FoldState) (fx : List Effect) : (w.book f e s fx).turn = w.turn := by
  unfold Work.book
  dsimp only
  rw [apply_ite Work.turn, Work.advance_turn, ite_self, Work.mapSeq_turn rfl rfl, apply_ite Work.turn, Work.raise_turn, ite_self]
  split <;> simp

/-! ### The outcomes of the scheduling rule -/

theorem Iteration.start_turn (i : Iteration) : i.start.turn = i.work.turn := rfl

theorem Iteration.issued_cur (i : Iteration) (fx : List Effect) (w : Work) : (i.issued fx w).cell.seq.cur = w.cell.seq.cur :=
  congrArg Prod.fst (w.book_turn i.fold i.entry i.pos fx)

theorem Iteration.issued_run (i : Iteration) (fx : List Effect) (w : Work) : (i.issued fx w).cell.seq.run = w.cell.seq.run + 1 :=
  congrArg (·.2 + 1) (w.book_turn i.fold i.entry i.pos fx)

/-- The operation of an iteration that issues leaves the turn as the scheduling rule found it. -/
theorem Issues.execute_turn {s : State} {c : Coord} {i : Iteration} (h : Issues s c i) :
    (i.start.execute i.fold i.pos.entry i.pos.iter i.entry i.ok i.got).2.turn = (s.readied c).turn := by
  have still := Work.grantReads_still i.fold i.pos.entry i.pos.iter (s.readied c).cell.seq.cycle
    (i.entry.reads (s.readied c).here.kind (s.readied c).cell.pointer) (s.readied c) [] [] []
  rw [h.granted] at still
  rw [Work.execute_turn, Iteration.start_turn, still.turn_eq]

/-- The scheduling rule where the current fold cannot fire or has used its quantum, and another fold can fire: the switch (R49). -/
theorem State.sequence_switch {s : State} {c : Coord} {g : Nat} (hgo : (s.committed c).cell.seq.stopped = false)
    (hask : (s.committed c).cell.seq.asking = none)
    (hcur : (s.readied c).canFire (s.readied c).cell.seq.cur = false ∨ (s.readied c).cell.regs.quantum ≤ (s.readied c).cell.seq.run)
    (hg : (s.readied c).nextFold = some g) :
    (s.committed c).sequence = ((s.readied c).mapSeq fun q => { q with cur := g, run := 0 }, .switched) := by
  have hr : (s.committed c).cell.regs.folds.foldl Work.inspectFold (s.committed c) = s.readied c := rfl
  have hturn : ((s.readied c).canFire (s.readied c).cell.seq.cur &&
      (decide ((s.readied c).cell.seq.run < (s.readied c).cell.regs.quantum) || (s.readied c).nextFold.isNone)) = false := by
    rcases hcur with h | h
    · simp [h]
    · simp [hg, Nat.not_lt.mpr h]
  simp only [Work.sequence, hgo, Work.schedule, hask, hr, hturn, Bool.false_eq_true, if_false]
  rw [hg]

/-- The scheduling rule where no fold can fire: an idle cycle (R49). -/
theorem State.sequence_idle {s : State} {c : Coord} (hgo : (s.committed c).cell.seq.stopped = false)
    (hask : (s.committed c).cell.seq.asking = none) (hcur : (s.readied c).canFire (s.readied c).cell.seq.cur = false)
    (hg : (s.readied c).nextFold = none) :
    (s.committed c).sequence = (s.readied c, .idle) := by
  have hr : (s.committed c).cell.regs.folds.foldl Work.inspectFold (s.committed c) = s.readied c := rfl
  simp only [Work.sequence, hgo, Work.schedule, hask, hr, hcur, hg, Bool.false_and, Bool.false_eq_true, if_false]

/-- SEQUENCER_CYCLE at a running cell: what the sequencer makes of it after its commits, once the cycle has ended (R49). -/
theorem exec_sequencerCycle {s : State} {c : Coord} (hp : c.present = true) (hm : (s.cell c).mode = .running) :
    exec (.sequencerCycle c) s = .next ((s.grants c).absorb (s.committed c).sequence.1.endCycle) := by
  have hrun : s.cycles c = true := by simp [State.cycles, hm]
  show atCell c (s.cycle c) = _
  simp only [atCell, answerIf, hp, if_true, State.cycle, hrun, Work.seqCycle, State.committed]

end Sys2Proof.Machine

namespace Sys2Proof
open Sys2Proof.Machine

/-- Settles O10, one lemma about the sequencer's part of the cycle for each outcome of R49. -/
theorem schedulingRule : Obligations.SchedulingRule := by
  intro s c hp hm hgo hask
  dsimp only
  rw [exec_sequencerCycle hp hm]
  refine ⟨fun i h => ?issues, fun g hcur hg => ?switches, fun hcur hg => ?idle⟩
  case issues =>
    obtain ⟨hcur, hrun⟩ := Prod.mk.inj h.execute_turn
    refine ⟨_, by rw [h.sequence], ?_, ?_⟩
    · rw [Iteration.issued_run, hrun]
    · rw [Iteration.issued_cur, hcur, h.current]
  case switches => rw [State.sequence_switch hgo hask hcur hg]
  case idle => rw [State.sequence_idle hgo hask hcur hg]

end Sys2Proof
end

section
/-!
SUPPORT. Accumulator words (R73) and their combination (R80): reading a word back after it is written, one closed form of the combination per combination of
modes, and the algebra of exact states.
-/
namespace Sys2Proof.Machine

/-! ### Reading a word back -/

/-- Every field of the state has room in its place of the word (R73). -/
structure Acc.Fits (a : Acc) : Prop where
  value : a.value < 2 ^ 200
  anchor : a.anchor < 2 ^ 16
  resv : a.resv < 2 ^ 3
  count : a.count < 2 ^ 32

theorem Acc.ofNat_fits (w : Nat) : (Acc.ofNat w).Fits :=
  ⟨Nat.mod_lt _ (Nat.two_pow_pos _), Nat.mod_lt _ (Nat.two_pow_pos _), Nat.mod_lt _ (Nat.two_pow_pos _), Nat.mod_lt _ (Nat.two_pow_pos _)⟩

/-- A flag as a digit of the word. -/
theorem ite_two_pow_eq_mul_toNat (b : Bool) (n : Nat) : (if b then 2 ^ n else 0) = 2 ^ n * b.toNat := by
  cases b <;> simp

/-- A flag is read back from its digit. -/
theorem bitAt_eq_of_digit {w n : Nat} {b : Bool} (h : w / 2 ^ n % 2 = b.toNat) : bitAt w n = b := by
  rw [bitAt, Nat.testBit_eq_decide_div_mod_eq, h]
  cases b <;> rfl

/-- What a word is written from is what it reads as (R73). -/
theorem Acc.ofNat_toNat {a : Acc} (h : a.Fits) : Acc.ofNat a.toNat = a := by
  obtain ⟨hvalue, hanchor, hresv, hcount⟩ := h
  obtain ⟨value, anchor, exact, escape, nan, posInf, negInf, resv, count⟩ := a
  have := exact.toNat_le
  have := escape.toNat_le
  have := nan.toNat_le
  have := posInf.toNat_le
  have := negInf.toNat_le
  simp only [Acc.toNat, ite_two_pow_eq_mul_toNat]
  simp only at hvalue hanchor hresv hcount
  simp only [Acc.ofNat, Acc.mk.injEq, bits, Nat.shiftRight_eq_div_pow]
  refine ⟨?_, ?_, bitAt_eq_of_digit ?_, bitAt_eq_of_digit ?_, bitAt_eq_of_digit ?_, bitAt_eq_of_digit ?_, bitAt_eq_of_digit ?_, ?_, ?_⟩ <;> omega

/-! ### Signed fields -/

/-- A field of `w` bits is known from its signed reading. -/
theorem signedOf_inj {w a b : Nat} (ha : a < 2 ^ w) (hb : b < 2 ^ w) (h : signedOf w a = signedOf w b) : a = b := by
  unfold signedOf at h
  split at h <;> split at h <;> omega

/-- The signed reading of a number is the number, up to whole multiples of its range. -/
theorem signedOf_emod (w v : Nat) : signedOf w v % ((2 ^ w : Nat) : Int) = v % ((2 ^ w : Nat) : Int) := by
  unfold signedOf
  split
  · rfl
  · exact Int.sub_emod_right _ _

/-- Wrapping a part of a sum changes nothing of the wrapped sum. -/
theorem wrapTo_signedOf_wrapTo_add (w : Nat) (i j : Int) : wrapTo w (signedOf w (wrapTo w i) + j) = wrapTo w (i + j) := by
  have hpos : (0 : Int) < ((2 ^ w : Nat) : Int) := Int.natCast_pos.mpr (Nat.two_pow_pos w)
  have hwrap : ((wrapTo w i : Nat) : Int) = i % ((2 ^ w : Nat) : Int) := Int.toNat_of_nonneg (Int.emod_nonneg i hpos.ne')
  have hread : signedOf w (wrapTo w i) % ((2 ^ w : Nat) : Int) = i % ((2 ^ w : Nat) : Int) := by
    rw [signedOf_emod, hwrap, Int.emod_emod]
  have hsum : (signedOf w (wrapTo w i) + j) % ((2 ^ w : Nat) : Int) = (i + j) % ((2 ^ w : Nat) : Int) := Int.ModEq.add_right j hread
  exact congrArg Int.toNat hsum

theorem wrapTo_lt (w : Nat) (i : Int) : wrapTo w i < 2 ^ w := by
  have hpos : (0 : Int) < ((2 ^ w : Nat) : Int) := Int.natCast_pos.mpr (Nat.two_pow_pos w)
  have := Int.emod_lt_of_pos i hpos
  unfold wrapTo
  omega

/-- The lower of two anchors, each read as signed (R80). -/
def lowAnchor (x y : Nat) : Nat := if signedOf 16 x ≤ signedOf 16 y then x else y

theorem signedOf_lowAnchor (x y : Nat) : signedOf 16 (lowAnchor x y) = min (signedOf 16 x) (signedOf 16 y) := by
  rw [lowAnchor, apply_ite (signedOf 16), min_def]

theorem lowAnchor_self (x : Nat) : lowAnchor x x = x := ite_self x

theorem lowAnchor_lt {x y n : Nat} (hx : x < n) (hy : y < n) : lowAnchor x y < n := by
  unfold lowAnchor
  split <;> assumption

theorem lowAnchor_comm {x y : Nat} (hx : x < 2 ^ 16) (hy : y < 2 ^ 16) : lowAnchor x y = lowAnchor y x :=
  signedOf_inj (lowAnchor_lt hx hy) (lowAnchor_lt hy hx) (by rw [signedOf_lowAnchor, signedOf_lowAnchor, min_comm])

theorem lowAnchor_assoc {x y z : Nat} (hx : x < 2 ^ 16) (hy : y < 2 ^ 16) (hz : z < 2 ^ 16) :
    lowAnchor (lowAnchor x y) z = lowAnchor x (lowAnchor y z) :=
  signedOf_inj (lowAnchor_lt (lowAnchor_lt hx hy) hz) (lowAnchor_lt hx (lowAnchor_lt hy hz)) (by simp only [signedOf_lowAnchor, min_assoc])

/-! ### Results of FP32 are 32-bit words -/

theorem fp32_over_lt (sat neg : Bool) : FloatFmt.fp32.over sat neg < 2 ^ 32 := by
  cases sat <;> cases neg <;> decide

theorem fp32_ofRat_lt (sat neg : Bool) (n d : Nat) (e : Int) : FloatFmt.fp32.ofRat sat neg n d e < 2 ^ 32 := by
  have hsign : FloatFmt.fp32.maxBits + FloatFmt.fp32.signBit neg < 2 ^ 32 := by cases neg <;> decide
  unfold FloatFmt.ofRat
  dsimp only
  split
  · decide
  · split
    · exact fp32_over_lt sat neg
    · omega

theorem fp32_ofNum_lt (sat : Bool) : ∀ v : Num, FloatFmt.fp32.ofNum sat v < 2 ^ 32
  | .nan => (by decide : 0x7FC00000 < 2 ^ 32)
  | .inf neg => fp32_over_lt sat neg
  | .fin m e => fp32_ofRat_lt sat (decide (m < 0)) m.natAbs 1 e

/-! ### The combination of two states, by their modes (R80) -/

/-- MAC_COUNT of a combination: the saturating sum (R80). -/
def Acc.countWith (s t : Acc) : Nat := min (s.count + t.count) 0xFFFFFFFF

/-- Are two exact states not for one sum: one has escaped, or their anchors differ (R80)? -/
def Acc.apart (s t : Acc) : Bool := s.escape || t.escape || decide (s.anchor ≠ t.anchor)

/-- Does the combination of two exact states escape: they are apart, or the count saturates (R80)? -/
def Acc.clash (s t : Acc) : Bool := s.apart t || decide (s.countWith t = 0xFFFFFFFF)

theorem Acc.countWith_comm (s t : Acc) : s.countWith t = t.countWith s := by
  rw [Acc.countWith, Acc.countWith, Nat.add_comm]

theorem Acc.countWith_le (s t : Acc) : s.countWith t ≤ 0xFFFFFFFF := Nat.min_le_right _ _

theorem Acc.apart_eq_true {s t : Acc} : s.apart t = true ↔ s.escape = true ∨ t.escape = true ∨ s.anchor ≠ t.anchor := by
  simp [Acc.apart, or_assoc]

theorem Acc.apart_eq_false {s t : Acc} : s.apart t = false ↔ s.escape = false ∧ t.escape = false ∧ s.anchor = t.anchor := by
  simp [Acc.apart, and_assoc]

theorem Acc.clash_eq_true {s t : Acc} : s.clash t = true ↔ s.apart t = true ∨ s.countWith t = 0xFFFFFFFF := by
  simp [Acc.clash]

theorem Acc.apart_comm (s t : Acc) : s.apart t = t.apart s := by
  simp only [Acc.apart, Bool.or_comm s.escape, ne_comm (a := s.anchor)]

theorem Acc.clash_comm (s t : Acc) : s.clash t = t.clash s := by
  rw [Acc.clash, Acc.clash, s.apart_comm, s.countWith_comm]

theorem Acc.low_anchorInt (s t : Acc) : (if s.anchorInt ≤ t.anchorInt then s.anchor else t.anchor) = lowAnchor s.anchor t.anchor := rfl

/-- Two exact states: their sum, or an escape where they clash (R80). -/
theorem Acc.combine_exact {s t : Acc} (hs : s.exact = true) (ht : t.exact = true) :
    s.combine t =
      { value := if s.clash t then 0 else wrapTo 200 (s.int + t.int), anchor := lowAnchor s.anchor t.anchor, exact := true, escape := s.clash t,
        nan := s.nan || t.nan, posInf := s.posInf || t.posInf, negInf := s.negInf || t.negInf, resv := 0, count := s.countWith t } := by
  rcases h : s.apart t with _ | _
  case false => -- the row of the sum: only a saturated count escapes
    obtain ⟨hse, hte, hanchor⟩ := Acc.apart_eq_false.mp h
    by_cases hfull : 0xFFFFFFFF ≤ s.count + t.count <;>
      simp [Acc.combine, hs, ht, Acc.clash, h, hse, hte, hanchor, hfull, lowAnchor_self, Acc.esc, Acc.countWith]
  case true => -- the row of the escape, which a saturated count leaves as it is
    have hrow : ¬ ((!s.escape && !t.escape && decide (s.anchor = t.anchor)) = true) := by
      simpa [Acc.apart, imp_iff_not_or, or_assoc] using h
    simp [Acc.combine, hs, ht, Acc.clash, h, hrow, Acc.esc, Acc.low_anchorInt, Acc.countWith]

/-- An exact state with an ordered one, on its left: the exact state, escaped (R80). -/
theorem Acc.combine_exact_ordered {s t : Acc} (hs : s.exact = true) (ht : t.exact = false) :
    s.combine t = { s with value := 0, escape := true, resv := 0, count := s.countWith t } := by
  simp [Acc.combine, hs, ht, Acc.esc, Acc.countWith]

/-- An exact state with an ordered one, on its right: the same (R80). -/
theorem Acc.combine_ordered_exact {s t : Acc} (hs : s.exact = false) (ht : t.exact = true) : s.combine t = t.combine s := by
  rw [Acc.combine_exact_ordered ht hs, t.countWith_comm]
  simp [Acc.combine, hs, ht, Acc.esc, Acc.countWith]

/-- Two ordered states: one FP32 addition, no flags (R80). -/
theorem Acc.combine_ordered {s t : Acc} (hs : s.exact = false) (ht : t.exact = false) :
    s.combine t =
      { value := FloatFmt.fp32.ofNum false ((FloatFmt.fp32.decode (s.value % 2 ^ 32)).add (FloatFmt.fp32.decode (t.value % 2 ^ 32))),
        anchor := lowAnchor s.anchor t.anchor, exact := false, escape := false, nan := false, posInf := false, negInf := false, resv := 0,
        count := s.countWith t } := by
  simp [Acc.combine, hs, ht, Acc.countWith, Acc.low_anchorInt]

/-! ### What holds in every combination -/

@[simp] theorem Acc.combine_resv (s t : Acc) : (s.combine t).resv = 0 := by
  cases hs : s.exact <;> cases ht : t.exact
  · rw [Acc.combine_ordered hs ht]
  · rw [Acc.combine_ordered_exact hs ht, Acc.combine_exact_ordered ht hs]
  · rw [Acc.combine_exact_ordered hs ht]
  · rw [Acc.combine_exact hs ht]

@[simp] theorem Acc.combine_count (s t : Acc) : (s.combine t).count = s.countWith t := by
  cases hs : s.exact <;> cases ht : t.exact
  · rw [Acc.combine_ordered hs ht]
  · rw [Acc.combine_ordered_exact hs ht, Acc.combine_exact_ordered ht hs, s.countWith_comm]
  · rw [Acc.combine_exact_ordered hs ht]
  · rw [Acc.combine_exact hs ht]

/-- The combined fields have room in the word again. -/
theorem Acc.Fits.combine {s t : Acc} (hs : s.Fits) (ht : t.Fits) : (s.combine t).Fits := by
  have hcount : s.countWith t < 2 ^ 32 := Nat.lt_of_le_of_lt (s.countWith_le t) (by decide)
  cases hse : s.exact <;> cases hte : t.exact
  · rw [Acc.combine_ordered hse hte]
    exact ⟨(fp32_ofNum_lt _ _).trans (by decide), lowAnchor_lt hs.anchor ht.anchor, Nat.two_pow_pos 3, hcount⟩
  · rw [Acc.combine_ordered_exact hse hte, Acc.combine_exact_ordered hte hse]
    exact ⟨Nat.two_pow_pos 200, ht.anchor, Nat.two_pow_pos 3, t.countWith_comm s ▸ hcount⟩
  · rw [Acc.combine_exact_ordered hse hte]
    exact ⟨Nat.two_pow_pos 200, hs.anchor, Nat.two_pow_pos 3, hcount⟩
  · rw [Acc.combine_exact hse hte]
    refine ⟨?_, lowAnchor_lt hs.anchor ht.anchor, Nat.two_pow_pos 3, hcount⟩
    dsimp only
    split
    · exact Nat.two_pow_pos 200
    · exact wrapTo_lt 200 _

/-- A combined word reads as the combined state. -/
@[simp] theorem ofNat_combineWords (a b : Nat) : Acc.ofNat (combineWords a b) = (Acc.ofNat a).combine (Acc.ofNat b) :=
  Acc.ofNat_toNat ((Acc.ofNat_fits a).combine (Acc.ofNat_fits b))

/-! ### The table's rows, field by field -/

theorem Acc.combine_row_sum {s t : Acc} (hs : s.exact = true) (ht : t.exact = true) (hanchor : s.anchor = t.anchor) (hse : s.escape = false)
    (hte : t.escape = false) (hcount : s.countWith t < 0xFFFFFFFF) :
    (s.combine t).value = wrapTo 200 (s.int + t.int) ∧ (s.combine t).anchor = s.anchor ∧ (s.combine t).escape = false := by
  have hclash : s.clash t = false := by simp [Acc.clash, Acc.apart_eq_false.mpr ⟨hse, hte, hanchor⟩, hcount.ne]
  rw [Acc.combine_exact hs ht, hclash, ← hanchor, lowAnchor_self]
  exact ⟨rfl, rfl, rfl⟩

theorem Acc.combine_row_escape {s t : Acc} (hs : s.exact = true) (ht : t.exact = true) (hapart : s.escape = true ∨ t.escape = true ∨ s.anchor ≠ t.anchor) :
    (s.combine t).value = 0 ∧ (s.combine t).escape = true ∧ (s.combine t).anchorInt = min s.anchorInt t.anchorInt := by
  have hclash : s.clash t = true := Acc.clash_eq_true.mpr (.inl (Acc.apart_eq_true.mpr hapart))
  rw [Acc.combine_exact hs ht, hclash]
  exact ⟨rfl, rfl, signedOf_lowAnchor _ _⟩

/-- An exact result whose count is saturated has escaped, in both rows that give one. -/
theorem Acc.combine_saturated {s t : Acc} (hu : (s.combine t).exact = true) (hcount : s.countWith t = 0xFFFFFFFF) :
    (s.combine t).escape = true ∧ (s.combine t).value = 0 := by
  cases hs : s.exact <;> cases ht : t.exact
  · rw [Acc.combine_ordered hs ht] at hu
    cases hu
  · rw [Acc.combine_ordered_exact hs ht, Acc.combine_exact_ordered ht hs]
    exact ⟨rfl, rfl⟩
  · rw [Acc.combine_exact_ordered hs ht]
    exact ⟨rfl, rfl⟩
  · rw [Acc.combine_exact hs ht, Acc.clash_eq_true.mpr (.inr hcount)]
    exact ⟨rfl, rfl⟩

/-! ### The algebra of exact states -/

theorem Acc.combine_exact_comm {s t : Acc} (hs : s.Fits) (ht : t.Fits) (hse : s.exact = true) (hte : t.exact = true) : s.combine t = t.combine s := by
  rw [Acc.combine_exact hse hte, Acc.combine_exact hte hse, s.clash_comm, s.countWith_comm, lowAnchor_comm hs.anchor ht.anchor, Int.add_comm,
    Bool.or_comm s.nan, Bool.or_comm s.posInf, Bool.or_comm s.negInf]

/-- Where one state is exact the order is of no account; two ordered states are left out, whose sum is a rounded one. -/
theorem Acc.combine_comm {s t : Acc} (hs : s.Fits) (ht : t.Fits) (h : (s.exact || t.exact) = true) : s.combine t = t.combine s := by
  cases hse : s.exact <;> cases hte : t.exact
  · simp [hse, hte] at h
  · exact Acc.combine_ordered_exact hse hte
  · exact (Acc.combine_ordered_exact hte hse).symm
  · exact Acc.combine_exact_comm hs ht hse hte

/-- Does the combination of three exact states escape: two of them are apart, or the count of all three saturates? -/
def Acc.clashThree (a b c : Acc) : Bool :=
  a.apart b || b.apart c || decide (min (a.count + b.count + c.count) 0xFFFFFFFF = 0xFFFFFFFF)

/-- The combination of three exact states, in one piece: what both trees over them give (`Acc.combine_combine`). -/
def Acc.combineThree (a b c : Acc) : Acc :=
  { value := if a.clashThree b c then 0 else wrapTo 200 (a.int + b.int + c.int), anchor := lowAnchor (lowAnchor a.anchor b.anchor) c.anchor, exact := true,
    escape := a.clashThree b c, nan := a.nan || b.nan || c.nan, posInf := a.posInf || b.posInf || c.posInf, negInf := a.negInf || b.negInf || c.negInf,
    resv := 0, count := min (a.count + b.count + c.count) 0xFFFFFFFF }

theorem Acc.clashThree_reverse (a b c : Acc) : a.clashThree b c = c.clashThree b a := by
  rw [Acc.clashThree, Acc.clashThree, a.apart_comm b, b.apart_comm c, Bool.or_comm (b.apart a),
    show a.count + b.count + c.count = c.count + b.count + a.count by omega]

theorem Acc.combineThree_reverse {a b c : Acc} (ha : a.Fits) (hb : b.Fits) (hc : c.Fits) : a.combineThree b c = c.combineThree b a := by
  have hanchor : lowAnchor (lowAnchor a.anchor b.anchor) c.anchor = lowAnchor (lowAnchor c.anchor b.anchor) a.anchor := by
    rw [lowAnchor_assoc ha.anchor hb.anchor hc.anchor, lowAnchor_comm hb.anchor hc.anchor,
      lowAnchor_comm ha.anchor (lowAnchor_lt hc.anchor hb.anchor)]
  have hflag : ∀ x y z : Bool, (x || y || z) = (z || y || x) := by decide
  have hcount : a.count + b.count + c.count = c.count + b.count + a.count := by omega
  have hsum : a.int + b.int + c.int = c.int + b.int + a.int := by omega
  rw [Acc.combineThree, Acc.combineThree, Acc.clashThree_reverse, hanchor, hsum, hcount, hflag a.nan, hflag a.posInf, hflag a.negInf]

/-- A pair that clashes makes all three clash. -/
theorem Acc.clashThree_of_clash {a b : Acc} (c : Acc) (h : a.clash b = true) : a.clashThree b c = true := by
  rcases Acc.clash_eq_true.mp h with hapart | hfull
  · simp [Acc.clashThree, hapart]
  · have : 0xFFFFFFFF ≤ a.count + b.count + c.count := by
      unfold Acc.countWith at hfull
      omega
    simp [Acc.clashThree, this]

/-- A combined pair clashes with a third state exactly where the three of them do. -/
theorem Acc.combine_clash {a b : Acc} (c : Acc) (ha : a.exact = true) (hb : b.exact = true) : (a.combine b).clash c = a.clashThree b c := by
  cases h : a.clash b with
  | true =>
    rw [Acc.clashThree_of_clash c h, Acc.combine_exact ha hb, h]
    rfl
  | false =>
    obtain ⟨hapart, hfull⟩ : a.apart b = false ∧ a.countWith b ≠ 0xFFFFFFFF := by simpa [Acc.clash] using h
    obtain ⟨-, hescape, hanchor⟩ := Acc.apart_eq_false.mp hapart
    have hcount : a.countWith b = a.count + b.count := by
      unfold Acc.countWith at *
      omega
    rw [Acc.combine_exact ha hb, h, hanchor, lowAnchor_self, hcount, Acc.clashThree, hapart]
    simp [Acc.clash, Acc.apart, hescape, Acc.countWith]

/-- Three exact states from the left. -/
theorem Acc.combine_combine {a b c : Acc} (ha : a.exact = true) (hb : b.exact = true) (hc : c.exact = true) :
    (a.combine b).combine c = a.combineThree b c := by
  have hab : (a.combine b).exact = true := by rw [Acc.combine_exact ha hb]
  have hvalue : a.clashThree b c = false → wrapTo 200 ((a.combine b).int + c.int) = wrapTo 200 (a.int + b.int + c.int) := by
    intro hthree
    have hclash : a.clash b = false := Bool.eq_false_iff.mpr fun h => by simp [Acc.clashThree_of_clash c h] at hthree
    rw [Acc.combine_exact ha hb, hclash]
    exact wrapTo_signedOf_wrapTo_add 200 (a.int + b.int) c.int
  have hcount : (a.combine b).countWith c = min (a.count + b.count + c.count) 0xFFFFFFFF := by
    rw [Acc.countWith, Acc.combine_count, Acc.countWith]
    omega
  rw [Acc.combine_exact hab hc, Acc.combine_clash c ha hb, hcount, Acc.combineThree]
  cases hthree : a.clashThree b c
  · rw [hvalue hthree, Acc.combine_exact ha hb]
  · rw [Acc.combine_exact ha hb]
    rfl

theorem Acc.combine_assoc {a b c : Acc} (ha : a.Fits) (hb : b.Fits) (hc : c.Fits) (hae : a.exact = true) (hbe : b.exact = true) (hce : c.exact = true) :
    (a.combine b).combine c = a.combine (b.combine c) := by
  have hbc : (b.combine c).exact = true := by rw [Acc.combine_exact hbe hce]
  calc (a.combine b).combine c
      = a.combineThree b c := Acc.combine_combine hae hbe hce
    _ = c.combineThree b a := Acc.combineThree_reverse ha hb hc
    _ = (c.combine b).combine a := (Acc.combine_combine hce hbe hae).symm
    _ = (b.combine c).combine a := by rw [Acc.combine_exact_comm hc hb hce hbe]
    _ = a.combine (b.combine c) := Acc.combine_exact_comm (hb.combine hc) ha hbc hae

end Sys2Proof.Machine

namespace Sys2Proof
open Sys2Proof.Machine

/-- Settles O11: the rows of R80's table from the closed forms of `Acc.combine`, the algebra from `Acc.combine_comm` and `Acc.combine_assoc`. -/
theorem accumulatorsCombine : Obligations.AccumulatorsCombine := by
  refine ⟨fun a b => ?table, fun a b h => ?comm, fun a b c ha hb hc => ?assoc⟩
  case comm => exact congrArg Acc.toNat (Acc.combine_comm (Acc.ofNat_fits a) (Acc.ofNat_fits b) h)
  case assoc =>
    rw [combineWords, ofNat_combineWords, combineWords, ofNat_combineWords]
    exact congrArg Acc.toNat (Acc.combine_assoc (Acc.ofNat_fits a) (Acc.ofNat_fits b) (Acc.ofNat_fits c) ha hb hc)
  case table =>
    rw [ofNat_combineWords]
    generalize Acc.ofNat a = s, Acc.ofNat b = t
    refine ⟨s.combine_resv t, s.combine_count t, fun hs ht => ?flags, fun hs ht => Acc.combine_row_sum hs ht, fun hs ht => Acc.combine_row_escape hs ht,
      ?mixed, fun hs ht => ?ordered, Acc.combine_saturated⟩
    case flags =>
      rw [Acc.combine_exact hs ht]
      exact ⟨rfl, rfl, rfl, rfl⟩
    case mixed =>
      rintro e (⟨hs, ht, rfl⟩ | ⟨hs, ht, rfl⟩)
      · rw [Acc.combine_exact_ordered hs ht]
        exact ⟨hs, rfl, rfl, rfl, rfl, rfl, rfl⟩
      · rw [Acc.combine_ordered_exact hs ht, Acc.combine_exact_ordered ht hs]
        exact ⟨ht, rfl, rfl, rfl, rfl, rfl, rfl⟩
    case ordered =>
      rw [Acc.combine_ordered hs ht]
      exact ⟨rfl, rfl, rfl, rfl, rfl, rfl, signedOf_lowAnchor _ _⟩

end Sys2Proof
end

section
/-!
SUPPORT. What most operations of the engine leave alone: the part, the queue, the time, and every setting that `State.Follows` speaks of. `State.rules`
gathers these; one lemma per operation says that it keeps them, in the order in which the model defines the operations.
-/
namespace Sys2Proof.Machine
/-- All that `State.Follows` speaks of. -/
def State.rules (s : State) :=
  (s.part, s.pending, s.clock, s.pwr.rules, s.odp.rules, s.relend.rules, s.defects.rules, s.clk.rules, s.flash.rules)

/-- A state written out field by field keeps it where its queue, time and part are those of the other and its settings agree. (The lemmas `rules_eq` below
are proved by `simp only`, as `simp` discharges the hypotheses of this one with them.) -/
@[simp] theorem State.rules_mk {s : State} {fi ce ro rc dm ep fp ov fa pa ft lr fw re hc co mu ri lo hu bo me bd rd et}
    {pw : PowerState} {od : OdpState} {rl : RelendState} {de : DefectState} {ck : ClockState} {fl : FlashState}
    (hw : pw.rules = s.pwr.rules) (ho : od.rules = s.odp.rules) (hr : rl.rules = s.relend.rules) (hd : de.rules = s.defects.rules)
    (hk : ck.rules = s.clk.rules) (hf : fl.rules = s.flash.rules) :
    State.rules
      { pending := s.pending, clock := s.clock, freeIdx := fi, part := s.part, cells := ce, routers := ro, receivers := rc, dma := dm, epoch := ep,
        flipPending := fp,
        oldValid := ov, flipAt := fa, pendingAt := pa, flipTriggers := ft, lostRoutes := lr, flipWaiting := fw, regions := re, hcp := hc,
        completions := co, musters := mu, rings := ri, loft := lo, relend := rl, hubs := hu, defects := de, boot := bo, clk := ck, pwr := pw,
        meter := me, board := bd, odp := od, recd := rd, eth := et, flash := fl } = s.rules := by
  simp [State.rules, *]

@[simp] theorem PowerState.rules_eq (p : PowerState) : p.rules =
  [p.capW, p.windowS, p.priority, p.opFloor, p.raiseHold, p.westLimit, p.eastLimit, p.tThrottle, p.droopLimit, p.skewNs] := by
  simp only [PowerState.rules]

@[simp] theorem OdpState.rules_eq (o : OdpState) : o.rules =
  [o.attemptUs, o.resends, o.completionUs, o.marks, o.stages.length, o.snapshots.length, o.sessions.length] := by simp only [OdpState.rules]

@[simp] theorem RelendState.rules_eq (r : RelendState) : r.rules = (r.engineId, r.paceGroup, r.routes) := by simp only [RelendState.rules]

@[simp] theorem DefectState.rules_eq (d : DefectState) :
    d.rules = [d.stepLimit, d.sessionLimit, d.headerLimit, d.uncorrLimit, d.corrLimit, d.portLimit] := by
  simp only [DefectState.rules]

@[simp] theorem HalfClock.rules_eq (h : HalfClock) : h.rules = (h.depth, h.rate) := by simp only [HalfClock.rules]

@[simp] theorem ClockState.rules_eq (c : ClockState) : c.rules = (c.west.rules, c.east.rules) := by simp only [ClockState.rules]

@[simp] theorem FlashState.rules_eq (f : FlashState) : f.rules = (f.keys, f.ownerRequired, f.vendorKeyMin) := by simp only [FlashState.rules]

theorem State.rules_defects (s : State) {d : DefectState} (h : d.rules = s.defects.rules) : ({ s with defects := d } : State).rules = s.rules :=
  State.rules_mk rfl rfl rfl h rfl rfl

/-- A fold of steps that each keep it. -/
theorem State.rules_foldl {α : Type} {f : State → α → State} (l : List α) (s : State) (h : ∀ t x, (f t x).rules = t.rules) :
    (l.foldl f s).rules = s.rules := by
  induction l generalizing s with
  | nil => rfl
  | cons a l ih => exact (ih _).trans (h s a)

/-- A fold that carries something beside the state. -/
theorem State.rules_foldl_snd {α β : Type} {f : β × State → α → β × State} (l : List α) (s : β × State)
    (h : ∀ t x, (f t x).2.rules = t.2.rules) :
    (l.foldl f s).2.rules = s.2.rules := by
  induction l generalizing s with
  | nil => rfl
  | cons a l ih => exact (ih _).trans (h s a)

theorem State.rules_ite {c : Prop} [Decidable c] {a b s : State} (ha : a.rules = s.rules) (hb : b.rules = s.rules) :
    (if c then a else b).rules = s.rules := by
  split <;> assumption

/-! ### The recorder -/

@[simp] theorem State.orSame_rules {s : State} {o : Option State} (h : ∀ t, o = some t → t.rules = s.rules) : (s.orSame o).rules = s.rules := by
  cases o with
  | none => rfl
  | some t => exact h t rfl

@[simp] theorem State.note_rules (s : State) (type : Nat) (code : Code) (region location : Nat) (detail : List Byte) :
    (s.note type code region location detail).rules = s.rules := by
  unfold State.note
  dsimp only
  (repeat' split) <;> simp

@[simp] theorem State.hubNote_rules (s : State) (f type : Nat) (code : Code) (region location : Nat) (detail : List Byte) :
    (s.hubNote f type code region location detail).rules = s.rules := by
  unfold State.hubNote
  dsimp only
  (repeat' split) <;> simp

@[simp] theorem State.flushRing_rules (s : State) (f : Nat) : (s.flushRing f).rules = s.rules := by
  have kept : ∀ l : List Record, (l.foldl FlashState.append s.flash).rules = s.flash.rules := fun l => FlashState.appendAll_rules l s.flash
  unfold State.flushRing
  dsimp only
  (repeat' split) <;> simp_all [State.rules_mk]

@[simp] theorem State.ringFlush_rules (s : State) (f : Nat) : (s.ringFlush f).rules = s.rules := by
  unfold State.ringFlush
  dsimp only
  (repeat' split) <;> simp

@[simp] theorem State.thaw_rules (s : State) : (s.thaw).rules = s.rules := by
  have kept : ∀ l : List Record, (l.foldl FlashState.append s.flash).rules = s.flash.rules := fun l => FlashState.appendAll_rules l s.flash
  unfold State.thaw
  dsimp only
  (repeat' split) <;> simp_all [State.rules_mk, State.rules_foldl]

@[simp] theorem State.freezeTo_rules (s : State) (v : Nat) : (s.freezeTo v).rules = s.rules := by
  unfold State.freezeTo
  dsimp only
  (repeat' split) <;> simp

@[simp] theorem State.agePass_rules (s : State) (d : Nat) : (s.agePass d).rules = s.rules := by simp [State.agePass]

/-! ### Report words of bring-up -/

@[simp] theorem State.stageReports_rules (s : State) (n result : Nat) (code : Code) (elapsed detail : Nat) :
    (s.stageReports n result code elapsed detail).rules = s.rules := by
  simp [State.stageReports]

@[simp] theorem State.stageFails_rules (s : State) (n : Nat) (code : Code) (elapsed detail : Nat) :
    (s.stageFails n code elapsed detail).rules = s.rules := by
  simp [State.stageFails]

/-! ### Cells and routers -/

@[simp] theorem State.setCell_rules (s : State) (c : Coord) (x : Cell) : (s.setCell c x).rules = s.rules := by simp [State.setCell]

@[simp] theorem State.mapCell_rules (s : State) (c : Coord) (f : Cell → Cell) : (s.mapCell c f).rules = s.rules := by simp [State.mapCell]

@[simp] theorem State.mapRouter_rules (s : State) (c : Coord) (f : Router → Router) : (s.mapRouter c f).rules = s.rules := by simp [State.mapRouter]

@[simp] theorem State.mapChannel_rules (s : State) (c : Coord) (ch : Nat) (f : DmaChannel → DmaChannel) :
    (s.mapChannel c ch f).rules = s.rules := by
  simp [State.mapChannel]

@[simp] theorem State.channelEnded_rules (s : State) (c : Coord) (e : Outstanding × Code × Payload) : (s.channelEnded c e).rules = s.rules := by
  unfold State.channelEnded
  dsimp only
  (repeat' split) <;> simp

@[simp] theorem State.absorbLocal_rules (s : State) (w : Work) : (s.absorbLocal w).rules = s.rules := by
  unfold State.absorbLocal
  dsimp only
  split <;> try rw [State.mapRouter_rules]
  all_goals
    rw [State.rules_foldl _ _ fun t e => by simp, State.rules_foldl _ _ fun t d => by simp, State.rules_foldl _ _ fun t p => by simp,
      State.rules_foldl _ _ fun t e => by split <;> simp]
    simp

@[simp] theorem State.inject_rules (s : State) (c : Coord) (p : Packet) : (s.inject c p).rules = s.rules := by
  unfold State.inject
  grind [State.absorbLocal_rules, State.mapRouter_rules, State.rules_mk]

@[simp] theorem State.stepEndPost_rules (s : State) (c : Coord) : (s.stepEndPost c).rules = s.rules := by
  unfold State.stepEndPost
  dsimp only
  (repeat' split) <;> simp

@[simp] theorem State.absorb_rules (s : State) (w : Work) : (s.absorb w).rules = s.rules := by simp [State.absorb, State.rules_foldl]

@[simp] theorem State.event_rules (s : State) (c : Coord) (f : Work → Work) : (s.event c f).rules = s.rules := by simp [State.event]

@[simp] theorem State.event?_rules (s : State) (c : Coord) (f : Work → Option Work) : (s.event? c f).rules = s.rules := by
  refine State.orSame_rules fun t h => ?_
  obtain ⟨w, -, rfl⟩ := Option.map_eq_some_iff.mp h
  simp

/-! ### Tokens and grants -/

@[simp] theorem State.tokenArrives_rules (s : State) (c : Coord) (p : Nat) (err : TokenErr) : (s.tokenArrives c p err).rules = s.rules := by
  unfold State.tokenArrives
  dsimp only
  split
  · rfl
  · split
    · rfl
    · split
      · exact (State.event_rules ..).trans ((State.rules_mk rfl rfl rfl (DefectState.countFabric_rules ..) rfl rfl).trans (State.setCell_rules ..))
      · simp

@[simp] theorem State.switchGrant_rules (s : State) (c : Coord) : (s.switchGrant c).rules = s.rules := by
  unfold State.switchGrant
  dsimp only
  repeat' split
  all_goals try rw [State.rules_foldl _ _ (fun t e => by (repeat' split) <;> simp)]
  all_goals simp

/-! ### Vaults of the loft -/

@[simp] theorem State.mapVault_rules (s : State) (pv : Nat) (f : Vault → Vault) : (s.mapVault pv f).rules = s.rules := by simp [State.mapVault]

@[simp] theorem State.noteRemap_rules (s : State) (lv pv st : Nat) : (s.noteRemap lv pv st).rules = s.rules := by simp [State.noteRemap]

@[simp] theorem State.dropQueue_rules (s : State) (pv : Nat) : (s.dropQueue pv).rules = s.rules := by
  unfold State.dropQueue
  rw [State.rules_foldl _ _ fun t e => by (repeat' split) <;> simp]
  simp

@[simp] theorem State.loseVault_rules (s : State) (pv : Nat) (cause : VaultCause) : (s.loseVault pv cause).rules = s.rules := by
  unfold State.loseVault
  dsimp only
  (repeat' split) <;> simp

@[simp] theorem State.chooseFor_rules (s : State) (lv : Nat) : (s.chooseFor lv).rules = s.rules := by
  unfold State.chooseFor
  split
  · simp only [State.rules_mk, State.mapVault_rules]
  · simp only [State.noteRemap_rules, State.rules_mk]

@[simp] theorem State.chooseSpares_rules (s : State) : (s.chooseSpares).rules = s.rules := by simp [State.chooseSpares, State.rules_foldl]

@[simp] theorem State.mapChanged_rules (s : State) : (s.mapChanged).rules = s.rules := by simp [State.mapChanged]

@[simp] theorem State.dropVault_rules (s : State) (pv : Nat) (cause : VaultCause) : (s.dropVault pv cause).rules = s.rules := by
  unfold State.dropVault
  split <;> simp

@[simp] theorem State.awaitVaults_rules (s : State) (vs : List Nat) : (s.awaitVaults vs).rules = s.rules := by
  unfold State.awaitVaults
  split <;> simp

@[simp] theorem State.vaultsSettled_rules (s : State) : (s.vaultsSettled).rules = s.rules := by simp [State.vaultsSettled]

@[simp] theorem State.sparesChosen_rules (s : State) : (s.sparesChosen).rules = s.rules := by simp [State.sparesChosen]

@[simp] theorem State.leftRunning_rules (s : State) (h : Nat) : (s.leftRunning h).rules = s.rules := by simp [State.leftRunning]

@[simp] theorem State.retireVault_rules (s : State) (pv : Nat) (cause : VaultCause) :
    (s.retireVault pv cause).rules = s.rules := by
  simp [State.retireVault]

@[simp] theorem State.failVault_rules (s : State) (pv : Nat) : (s.failVault pv).rules = s.rules := by
  unfold State.failVault
  dsimp only
  (repeat' split) <;> simp

@[simp] theorem State.spareDone_rules (s : State) (lv : Nat) : (s.spareDone lv).rules = s.rules := by
  unfold State.spareDone
  dsimp only
  (repeat' split) <;> simp

@[simp] theorem State.declareFailed_rules (s : State) (pv : Nat) : (s.declareFailed pv).rules = s.rules := by
  unfold State.declareFailed
  split <;> simp

/-! ### Regions and their messages -/

@[simp] theorem State.mapRegion_rules (s : State) (h : Nat) (f : Region → Region) : (s.mapRegion h f).rules = s.rules := by simp [State.mapRegion]

@[simp] theorem State.committedOf_rules (s : State) (h : Nat) : (s.committedOf h).2.rules = s.rules := by
  unfold State.committedOf
  grind [State.rules_mk]

@[simp] theorem State.finish_rules (s : State) (c : CmdRef) (h outcome : Nat) (status : Code) (count : Nat) :
    (s.finish c h outcome status count).rules = s.rules := by
  unfold State.finish
  dsimp only
  (repeat' split) <;> simp

@[simp] theorem State.refuse_rules (s : State) (c : CmdRef) (h : Nat) (status : Code) :
    (s.refuse c h status).rules = s.rules := by
  simp [State.refuse]

@[simp] theorem State.setModes_rules (s : State) (r : Region) (m : CellMode) :
    (s.setModes r m).rules = s.rules := by
  simp [State.setModes, State.rules_foldl]

@[simp] theorem State.creditsStart_rules (s : State) (r : Region) :
    (s.creditsStart r).rules = s.rules := by
  simp [State.creditsStart, State.rules_foldl]

@[simp] theorem State.startSweep_rules (s : State) (r : Region) : (s.startSweep r).rules = s.rules := by simp [State.startSweep, State.rules_foldl]

@[simp] theorem State.endSweep_rules (s : State) (r : Region) : (s.endSweep r).rules = s.rules := by simp [State.endSweep, State.rules_foldl]

@[simp] theorem State.abortDma_rules (s : State) (r : Region) (on : Bool) :
    (s.abortDma r on).rules = s.rules := by
  simp [State.abortDma, State.rules_foldl]

@[simp] theorem State.flipTrigger_rules (s : State) (n : Nat) : (s.flipTrigger n).rules = s.rules := by
  unfold State.flipTrigger
  grind [State.rules_mk]

@[simp] theorem State.cellLeaves_rules (s : State) (c : Coord) (mode : CellMode) (cause : Nat) : (s.cellLeaves c mode cause).rules = s.rules := by
  unfold State.cellLeaves
  dsimp only
  (repeat' split) <;> simp

@[simp] theorem State.dropSuspects_rules (s : State) : (s.dropSuspects).rules = s.rules := by simp [State.dropSuspects]

@[simp] theorem State.stopRings_rules (s : State) (h cause : Nat) (all : Bool) :
    (s.stopRings h cause all).rules = s.rules := by
  simp [State.stopRings]

@[simp] theorem State.force_rules (s : State) (h : Nat) (code : Code) (cell : Option Coord) : (s.force h code cell).rules = s.rules := by
  unfold State.force
  dsimp only
  (repeat' split) <;> simp [State.rules_foldl]

@[simp] theorem State.forceAll_rules (s : State) (p : Region → Bool) (code : Code) :
    (s.forceAll p code).rules = s.rules := by
  simp [State.forceAll, State.rules_foldl]

@[simp] theorem State.readyHalts_rules (s : State) (h : Nat) : (s.readyHalts h).rules = s.rules := by
  unfold State.readyHalts
  grind [State.setModes_rules, State.mapRegion_rules, State.rules_mk]

@[simp] theorem State.faultReported_rules (s : State) (c : Coord) (r : FaultReport) : (s.faultReported c r).rules = s.rules := by
  unfold State.faultReported
  dsimp only
  (repeat' split) <;> simp

@[simp] theorem State.hubReport_rules (s : State) (f : Nat) : (s.hubReport f).rules = s.rules := by
  unfold State.hubReport
  dsimp only
  (repeat' split) <;> simp

@[simp] theorem State.regionFault_rules (s : State) (h : Nat) (code : Code) : (s.regionFault h code).rules = s.rules := by simp [State.regionFault]

/-! ### Frames and tags of Relend -/

@[simp] theorem State.mapPort_rules (s : State) (p : Nat) (f : Port → Port) : (s.mapPort p f).rules = s.rules := by simp [State.mapPort]

@[simp] theorem State.sendFrame_rules (s : State) (f : Frame) : (s.sendFrame f).2.rules = s.rules := by
  unfold State.sendFrame
  dsimp only
  (repeat' split) <;> simp

@[simp] theorem State.sendReply_rules (s : State) (req : Frame) (kind : Nat) (hold : Bool) (status : Code) (poison : Bool) (payload : List Byte) :
    (s.sendReply req kind hold status poison payload).rules = s.rules := by
  simp [State.sendReply]

@[simp] theorem State.relendIssue_rules (s : State) (owner : RequestOwner) (kind addr len amount : Nat) (poison : Bool) (payload : List Byte) :
    (s.relendIssue owner kind addr len amount poison payload).2.rules = s.rules := by
  unfold State.relendIssue
  dsimp only
  (repeat' split) <;> simp

@[simp] theorem State.tagEnded_rules (s : State) (p t : Nat) : (s.tagEnded p t).rules = s.rules := by
  unfold State.tagEnded
  split <;> simp

@[simp] theorem State.tagResend_rules (s : State) (p t : Nat) (u : TagUse) : (s.tagResend p t u).2.rules = s.rules := by
  unfold State.tagResend
  dsimp only
  (repeat' split) <;> simp

theorem State.takeFrame_rules {s : State} {p : Nat} {test : Frame → Bool} {z : _ × State} (h : s.takeFrame p test = some z) :
    z.2.rules = s.rules := by
  simp only [State.takeFrame, Option.map_eq_some_iff] at h
  obtain ⟨e, -, rfl⟩ := h
  simp

@[simp] theorem State.freeRoom_rules (s : State) (p : Nat) (f : Frame) : (s.freeRoom p f).rules = s.rules := by
  unfold State.freeRoom
  split <;> simp

theorem State.heldKind_rules {s : State} {p kind : Nat} {z : _ × State} (h : s.heldKind p kind = some z) :
    z.2.rules = s.rules :=
  State.takeFrame_rules h

theorem State.takeKind_rules {s : State} {p kind : Nat} {z : _ × State} (h : s.takeKind p kind = some z) : z.2.rules = s.rules := by
  simp only [State.takeKind, Option.map_eq_some_iff] at h
  obtain ⟨e, h, rfl⟩ := h
  simpa using State.heldKind_rules h

/-! ### DMA channels -/

@[simp] theorem State.mapGate_rules (s : State) (g : Nat) (f : Gateway → Gateway) : (s.mapGate g f).rules = s.rules := by simp [State.mapGate]

@[simp] theorem State.settle_rules (s : State) (c : Coord) (ch : Nat) : (s.settle c ch).rules = s.rules := by simp [State.settle]

@[simp] theorem State.mapLine_rules (s : State) (c : Coord) (ch serial : Nat) (f : DmaLine → DmaLine) :
    (s.mapLine c ch serial f).rules = s.rules := by
  simp [State.mapLine]

@[simp] theorem State.lineRead_rules (s : State) (c : Coord) (ch serial : Nat) (status : Code) (data : Payload) :
    (s.lineRead c ch serial status data).rules = s.rules := by
  simp [State.lineRead]

@[simp] theorem State.lineDone_rules (s : State) (c : Coord) (ch serial : Nat) (status : Code) :
    (s.lineDone c ch serial status).rules = s.rules := by
  simp [State.lineDone]

theorem State.lineRequest_rules {s : State} {c : Coord} {ch serial type : Nat} {dst : Coord} {offset aux tally : Nat} {en : Bool} {flock : Nat}
    {payload : Payload} {z : State} (h : s.lineRequest c ch serial type dst offset aux tally en flock payload = some z) :
    z.rules = s.rules := by
  simp only [State.lineRequest, Option.map_eq_some_iff] at h
  obtain ⟨tag, -, rfl⟩ := h
  simp

theorem State.padTurn_rules {s : State} {c : Coord} {ch line : Nat} {a : PadAccess} {z : State} (h : s.padTurn c ch line a = some z) :
    z.rules = s.rules := by
  unfold State.padTurn at h
  grind [State.mapChannel_rules, State.setCell_rules, State.rules_mk]

@[simp] theorem State.padAsk_rules (s : State) (c : Coord) (ch line : Nat) (a : PadAccess) :
    (s.padAsk c ch line a).rules = s.rules := by
  simp [State.padAsk]

theorem State.startRead_rules {s : State} {c : Coord} {ch serial : Nat} {d : Desc} {k : Nat} {z : State} (h : s.startRead c ch serial d k = some z) :
    z.rules = s.rules := by
  unfold State.startRead at h
  grind [State.mapVault_rules, State.lineRequest_rules, State.absorb_rules, State.lineRead_rules, State.rules_mk]

theorem State.startWrite_rules {s : State} {c : Coord} {ch serial : Nat} {d : Desc} {k : Nat} {data : Payload} {z : State} (h : s.startWrite c ch
    serial d k data = some z) :
    z.rules = s.rules := by
  unfold State.startWrite at h
  grind [State.mapVault_rules, State.lineRequest_rules, State.setCell_rules, State.padAsk_rules, State.padTurn_rules, State.event_rules,
    State.lineDone_rules, State.mapLine_rules, State.rules_mk]

theorem State.pumpOne_rules {s : State} {c : Coord} {ch : Nat} {z : State} (h : s.pumpOne c ch = some z) : z.rules = s.rules := by
  unfold State.pumpOne at h
  grind [State.padAsk_rules, State.padTurn_rules, State.mapChannel_rules, State.startRead_rules, State.rules_mk]

@[simp] theorem State.pump_rules (s : State) (c : Coord) (ch : Nat) : (s.pump c ch).rules = s.rules := by
  unfold State.pump
  rw [State.rules_foldl, State.settle_rules]
  exact fun t _ => State.orSame_rules fun u h => State.pumpOne_rules h

@[simp] theorem State.pumpAll_rules (s : State) (c : Coord) : (s.pumpAll c).rules = s.rules := by
  unfold State.pumpAll
  split
  · exact State.rules_foldl _ _ fun t ch => t.pump_rules c ch
  · rfl

@[simp] theorem State.dmaStart_rules (s : State) (c : Coord) (ch : Nat) : (s.dmaStart c ch).rules = s.rules := by
  unfold State.dmaStart
  dsimp only
  (repeat' split) <;> simp

@[simp] theorem State.lineReadDone_rules (s : State) (c : Coord) (ch : Nat) : (s.lineReadDone c ch).rules = s.rules := by
  have begun : ∀ (t : State) (n : Nat) (d : Desc) (l : Nat) (b : Payload), (t.orSame (t.startWrite c ch n d l b)).rules = t.rules :=
    fun t n d l b => State.orSame_rules fun u h => State.startWrite_rules h
  unfold State.lineReadDone
  dsimp only
  (repeat' split) <;> simp [begun]

@[simp] theorem State.dmaComplete_rules (s : State) (c : Coord) (ch : Nat) : (s.dmaComplete c ch).rules = s.rules := by
  unfold State.dmaComplete
  grind [State.event_rules, State.pump_rules, State.padAsk_rules, State.padTurn_rules, State.mapChannel_rules, State.settle_rules, State.rules_mk]

@[simp] theorem State.padRetry_rules (s : State) (c : Coord) (ch : Nat) (wr : Bool) : (s.padRetry c ch wr).rules = s.rules := by
  unfold State.padRetry
  grind [State.dmaComplete_rules, State.lineReadDone_rules, State.pump_rules, State.rules_mk]

@[simp] theorem State.padRetries_rules (s : State) (c : Coord) (wr : Bool) :
    (s.padRetries c wr).rules = s.rules := by
  simp [State.padRetries, State.rules_foldl]

@[simp] theorem State.writePhase_rules (s : State) (c : Coord) : (s.writePhase c).rules = s.rules := by
  unfold State.writePhase
  split <;> simp

@[simp] theorem State.grants_rules (s : State) (c : Coord) : (s.grants c).rules = s.rules := by simp [State.grants]

/-! ### Loft requests -/

@[simp] theorem State.loftAnswer_rules (s : State) (pv : Nat) (q : LoftRequest) (data : Payload) (status : Code) :
    (s.loftAnswer pv q data status).rules = s.rules := by
  unfold State.loftAnswer
  dsimp only
  (repeat' split) <;> simp

@[simp] theorem State.loftComplete_rules (s : State) (pv bank bad : Nat) (errs : List LineErr) :
    (s.loftComplete pv bank bad errs).rules = s.rules := by
  unfold State.loftComplete
  dsimp only
  (repeat' split) <;> simp

@[simp] theorem State.bankServed_rules (s : State) (pv bank : Nat) :
    (s.bankServed pv bank).rules = s.rules := by
  simp [State.bankServed, State.rules_foldl]

@[simp] theorem State.engineTurn_rules (s : State) (pv line : Nat) : (s.engineTurn pv line).rules = s.rules := by
  unfold State.engineTurn
  dsimp only
  (repeat' split) <;> simp

@[simp] theorem State.loftRead_rules (s : State) (a : Nat) (x : LineTrouble) : (s.loftRead a x).2.2.rules = s.rules := by
  unfold State.loftRead
  dsimp only
  (repeat' split) <;> simp

@[simp] theorem State.loftWrite_rules (s : State) (a : Nat) (p : Payload) (x : LineTrouble) : (s.loftWrite a p x).2.rules = s.rules := by
  unfold State.loftWrite
  split <;> simp

/-! ### Gateways -/

@[simp] theorem State.mapRecord_rules (s : State) (g key : Nat) (f : StreamRecord → StreamRecord) :
    (s.mapRecord g key f).rules = s.rules := by
  simp [State.mapRecord]

@[simp] theorem State.streamStage_rules (s : State) (g key line : Nat) (write : Bool) (status : Code) (data : Payload) :
    (s.streamStage g key line write status data).rules = s.rules := by
  simp [State.streamStage]

@[simp] theorem State.gateEnded_rules (s : State) (g : Nat) (use : GateUse) (status : Code) (data : Payload) :
    (s.gateEnded g use status data).rules = s.rules := by
  unfold State.gateEnded
  split <;> simp

@[simp] theorem State.gateInject_rules (s : State) (g : Nat) (p : Packet) (use : GateUse) : (s.gateInject g p use).rules = s.rules := by
  unfold State.gateInject
  split <;> simp

theorem State.gateRequest_rules {s : State} {g : Nat} {use : GateUse} {type : Nat} {dst : Coord} {offset aux tally : Nat} {en : Bool} {flock : Nat}
    {payload : Payload} {z : State} (h : s.gateRequest g use type dst offset aux tally en flock payload = some z) :
    z.rules = s.rules := by
  simp only [State.gateRequest, Option.map_eq_some_iff] at h
  obtain ⟨tag, -, rfl⟩ := h
  simp

@[simp] theorem State.gateEvent_rules (s : State) (g : Nat) (f : Work → Work) : (s.gateEvent g f).rules = s.rules := by
  unfold State.gateEvent
  dsimp only
  rw [State.rules_foldl _ _ fun t p => by split <;> simp, State.rules_foldl _ _ fun t e => by split <;> simp]
  split <;> simp

/-- What comes of a line's try keeps the settings. -/
def LineTry.Keeps (s : State) : LineTry → Prop
  | .went t => t.rules = s.rules
  | .meshWait => True
  | .tagWait t => t.rules = s.rules

theorem LineTry.Keeps.ofMesh {s : State} {o : Option State} (h : ∀ t, o = some t → t.rules = s.rules) : LineTry.Keeps s (.ofMesh o) := by
  cases o with
  | none => trivial
  | some t => exact h t rfl

theorem LineTry.Keeps.went {s t : State} {l : LineTry} (h : LineTry.Keeps s l) (e : l = .went t) : t.rules = s.rules := by
  subst e
  exact h

theorem LineTry.Keeps.tagWait {s t : State} {l : LineTry} (h : LineTry.Keeps s l) (e : l = .tagWait t) : t.rules = s.rules := by
  subst e
  exact h

theorem LineTry.Keeps.then {s : State} {l : LineTry} {f g : State → State} (h : LineTry.Keeps s l) (hf : ∀ t, (f t).rules = t.rules)
    (hg : ∀ t, (g t).rules = t.rules) : (match l with | .went t => f t | .meshWait => s | .tagWait t => g t).rules = s.rules := by
  cases l with
  | went t => exact (hf t).trans h
  | meshWait => rfl
  | tagWait t => exact (hg t).trans h

theorem State.lineIssue_keeps (s : State) (g key k kind a : Nat) (write poison : Bool) (data : List Byte) :
    LineTry.Keeps s (s.lineIssue g key k kind a write poison data) := by
  have issued := s.relendIssue_rules (.stream g (key / 2) (key % 2) k) kind a 64 0 poison data
  unfold State.lineIssue
  split <;> simp_all [LineTry.Keeps]

theorem State.streamRead_keeps (s : State) (g key : Nat) (d : Desc) (k : Nat) : LineTry.Keeps s (s.streamRead g key d k) := by
  unfold State.streamRead
  dsimp only
  (repeat' split) <;>
    first
      | exact State.lineIssue_keeps ..
      | exact State.streamStage_rules ..
      | exact .ofMesh fun t h => State.gateRequest_rules h

theorem State.streamWrite_keeps (s : State) (g key : Nat) (word : Word256) (k : Nat) (data : Payload) :
    LineTry.Keeps s (s.streamWrite g key word k data) := by
  unfold State.streamWrite
  dsimp only
  (repeat' split) <;>
    first
      | exact State.lineIssue_keeps ..
      | exact State.streamStage_rules ..
      | exact .ofMesh fun t h => State.gateRequest_rules h

@[simp] theorem State.streamWrites_rules (s : State) (g key : Nat) : (s.streamWrites g key).rules = s.rules := by
  unfold State.streamWrites
  split
  · rfl
  · refine State.rules_foldl _ _ fun t l => ?_
    exact LineTry.Keeps.then (by
      (repeat' split) <;> first | exact State.streamWrite_keeps .. | exact State.streamStage_rules ..)
      (fun u => u.mapRecord_rules g key _) (fun u => u.mapRecord_rules g key _)

@[simp] theorem State.streamNext_rules (s : State) (g key : Nat) : (s.streamNext g key).rules = s.rules := by
  fun_cases State.streamNext
  next => rfl
  next => rfl
  next e => exact (State.mapRecord_rules ..).trans (((State.streamRead_keeps ..).went e).trans (State.mapRecord_rules ..))
  next => rfl
  next e => exact (State.mapRecord_rules ..).trans (((State.streamRead_keeps ..).tagWait e).trans (State.mapRecord_rules ..))

@[simp] theorem State.streamPump_rules (s : State) (g key : Nat) :
    (s.streamPump g key).rules = s.rules := by
  simp [State.streamPump, State.rules_foldl]

@[simp] theorem State.gateRespond_rules (s : State) (g : Nat) (p : Packet) (type : Nat) (status : Code) (aux : Nat) (data : Payload) :
    (s.gateRespond g p type status aux data).rules = s.rules := by
  unfold State.gateRespond
  split <;> simp

@[simp] theorem State.recordTaken_rules (s : State) (g key : Nat) (word : Word256) :
    (s.recordTaken g key word).rules = s.rules := by
  simp [State.recordTaken]

@[simp] theorem State.gatePut_rules (s : State) (g : Nat) (p : Packet) : (s.gatePut g p).rules = s.rules := by
  unfold State.gatePut
  dsimp only
  (repeat' split) <;> simp

@[simp] theorem State.pollReply_rules (s : State) (g key : Nat) (r : StreamRecord) (p : Packet) :
    (s.pollReply g key r p).rules = s.rules := by
  simp [State.pollReply]

@[simp] theorem State.gateGet_rules (s : State) (g : Nat) (p : Packet) : (s.gateGet g p).rules = s.rules := by
  unfold State.gateGet
  dsimp only
  (repeat' split) <;> simp

@[simp] theorem State.mapWindow_rules (s : State) (n : Nat) (f : Window → Window) : (s.mapWindow n f).rules = s.rules := by simp [State.mapWindow]

@[simp] theorem State.windowCheck_rules (s : State) (kind space off len : Nat) : (s.windowCheck kind space off len).2.rules = s.rules := by
  unfold State.windowCheck
  grind [State.mapWindow_rules, State.rules_mk]

theorem State.serveAccess_rules {s : State} {g : Nat} {i : Inbound} {z : State} (h : s.serveAccess g i = some z) : z.rules = s.rules := by
  unfold State.serveAccess at h
  grind [State.gateRequest_rules, State.gateEnded_rules, State.rules_mk]

theorem State.serveArrival_rules {s : State} {g : Nat} {i : Inbound} {z : State} (h : s.serveArrival g i = some z) : z.rules = s.rules := by
  unfold State.serveArrival at h
  grind [State.gateRequest_rules, State.rules_mk]

@[simp] theorem State.mapInbound_rules (s : State) (g id : Nat) (f : Inbound → Inbound) :
    (s.mapInbound g id f).rules = s.rules := by
  simp [State.mapInbound]

@[simp] theorem State.serveOne_rules (s : State) (g : Nat) (i : Inbound) : (s.serveOne g i).rules = s.rules := by
  unfold State.serveOne
  grind [State.serveArrival_rules, State.mapInbound_rules, State.freeRoom_rules, State.serveAccess_rules, State.rules_mk]

@[simp] theorem State.gatePump_rules (s : State) (g : Nat) : (s.gatePump g).rules = s.rules := by simp [State.gatePump, State.rules_foldl]

@[simp] theorem State.serve_rules (s : State) (p : Nat) (f : Frame) : (s.serve p f).rules = s.rules := by
  unfold State.serve
  grind [State.mapGate_rules, State.gatePump_rules, State.mapWindow_rules, State.windowCheck_rules, State.mapPort_rules, State.freeRoom_rules,
    State.sendReply_rules, State.rules_mk]

/-! ### Musters -/

@[simp] theorem State.mapMuster_rules (s : State) (m : Nat) (f : Muster → Muster) : (s.mapMuster m f).rules = s.rules := by simp [State.mapMuster]

@[simp] theorem State.treeRelease_rules (s : State) (m : Nat) (p flag : Bool) : (s.treeRelease m p flag).rules = s.rules := by
  unfold State.treeRelease
  dsimp only
  (repeat' split) <;> simp

@[simp] theorem State.sendArrive_rules (s : State) (m : Nat) (p flag : Bool) : (s.sendArrive m p flag).rules = s.rules := by simp [State.sendArrive]

@[simp] theorem State.sendRelease_rules (s : State) (m engine : Nat) (p flag : Bool) (slowest skew : Nat) :
    (s.sendRelease m engine p flag slowest skew).rules = s.rules := by
  simp [State.sendRelease]

@[simp] theorem State.memberRelease_rules (s : State) (m : Nat) (p flag : Bool) (slowest skew : Nat) :
    (s.memberRelease m p flag slowest skew).rules = s.rules := by
  unfold State.memberRelease
  dsimp only
  (repeat' split) <;> simp

@[simp] theorem State.collectiveForced_rules (s : State) (h cause : Nat) :
    (s.collectiveForced h cause).rules = s.rules := by
  simp [State.collectiveForced]

@[simp] theorem State.releaseReaches_rules (s : State) (m : Nat) (p flag : Bool) (slowest skew : Nat) :
    (s.releaseReaches m p flag slowest skew).rules = s.rules := by
  unfold State.releaseReaches
  dsimp only
  (repeat' split) <;> simp

@[simp] theorem State.skewStep_rules (s : State) (slowest skew : Nat) : (s.skewStep slowest skew).rules = s.rules := by
  unfold State.skewStep
  dsimp only
  (repeat' split) <;> simp

@[simp] theorem State.leaderRelease_rules (s : State) (m : Nat) (p flag : Bool) :
    (s.leaderRelease m p flag).rules = s.rules := by
  simp [State.leaderRelease, State.rules_foldl]

@[simp] theorem State.leaderTakes_rules (s : State) (m engine : Nat) (p flag : Bool) (stamp : Nat) :
    (s.leaderTakes m engine p flag stamp).rules = s.rules := by
  unfold State.leaderTakes
  dsimp only
  (repeat' split) <;> simp

@[simp] theorem State.leaderCount_rules (s : State) (m engine : Nat) (p flag : Bool) (stamp : Nat) :
    (s.leaderCount m engine p flag stamp).rules = s.rules := by
  unfold State.leaderCount
  dsimp only
  (repeat' split) <;> simp

@[simp] theorem State.linkedArrive_rules (s : State) (m : Nat) (p flag : Bool) : (s.linkedArrive m p flag).rules = s.rules := by
  unfold State.linkedArrive
  dsimp only
  (repeat' split) <;> simp

@[simp] theorem State.nodeCounts_rules (s : State) (m n : Nat) (p flag : Bool) : (s.nodeCounts m n p flag).rules = s.rules := by
  unfold State.nodeCounts
  dsimp only
  (repeat' split) <;> simp

@[simp] theorem State.nodeArrival_rules (s : State) (m : Nat) : (s.nodeArrival m).rules = s.rules := by
  unfold State.nodeArrival
  split <;> simp

@[simp] theorem State.releaseAtCell_rules (s : State) (m : Nat) (c : Coord) : (s.releaseAtCell m c).rules = s.rules := by
  unfold State.releaseAtCell
  split <;> simp

/-! ### Ring collectives -/

@[simp] theorem State.mapRing_rules (s : State) (k : Nat) (f : RingSlot → RingSlot) : (s.mapRing k f).rules = s.rules := by simp [State.mapRing]

@[simp] theorem State.ringFails_rules (s : State) (k j : Nat) (second : Bool) (code : Code) : (s.ringFails k j second code).rules = s.rules := by
  unfold State.ringFails
  dsimp only
  (repeat' split) <;> simp

@[simp] theorem State.ringCheck_rules (s : State) (k j : Nat) (second ok : Bool) : (s.ringCheck k j second ok).rules = s.rules := by
  unfold State.ringCheck
  split <;> simp

@[simp] theorem State.ringRead_rules (s : State) (k j : Nat) (second : Bool) (a : Nat) : (s.ringRead k j second a).2.rules = s.rules := by
  unfold State.ringRead
  dsimp only
  (repeat' split) <;> simp

@[simp] theorem State.ringWrite_rules (s : State) (k j : Nat) (second : Bool) (a : Nat) (p : Payload) :
    (s.ringWrite k j second a p).rules = s.rules := by
  unfold State.ringWrite
  dsimp only
  (repeat' split) <;> simp

@[simp] theorem State.ringLines_rules (s : State) (k j : Nat) (second : Bool) (base : Nat) (ls : List Nat) :
    (s.ringLines k j second base ls).2.rules = s.rules :=
  State.rules_foldl_snd _ _ fun t l => by simp

@[simp] theorem State.partialOf_rules (s : State) (k : Nat) (d : Collective) (j : Nat) :
    (s.partialOf k d j).2.rules = s.rules :=
  State.rules_foldl_snd _ _ fun t l => by
  simp only [State.ringCheck_rules]
  exact State.rules_foldl_snd _ _ fun u m => by simp

@[simp] theorem State.ringAbort_rules (s : State) (k cause : Nat) : (s.ringAbort k cause).rules = s.rules := by
  unfold State.ringAbort
  dsimp only
  (repeat' split) <;> simp

/-! ### Frames and tags of Relend -/

theorem State.relendIssue_rules_of_eq {s t : State} {owner : RequestOwner} {kind addr len amount : Nat} {poison : Bool} {payload : List Byte} {i :
    Issue}
    (h : s.relendIssue owner kind addr len amount poison payload = (i, t)) : t.rules = s.rules := by
  simpa [h] using s.relendIssue_rules owner kind addr len amount poison payload

/-! ### Ring collectives -/

@[simp] theorem State.ringSendOne_rules (s : State) (k : Nat) (d : Collective) (n : Nat) (q : RingSend) :
    (s.ringSendOne k d n q).2.rules = s.rules := by
  fun_cases State.ringSendOne
  · next h => rw [State.mapRing_rules]; exact State.relendIssue_rules_of_eq h
  · next h => exact State.relendIssue_rules_of_eq h
  · next h => rw [State.ringAbort_rules]; exact State.relendIssue_rules_of_eq h
  · next h => rw [State.mapRing_rules]; exact State.relendIssue_rules_of_eq h
  · next h => exact State.relendIssue_rules_of_eq h
  · next h => rw [State.ringAbort_rules]; exact State.relendIssue_rules_of_eq h
  · rfl

@[simp] theorem State.ringPump_rules (fuel : Nat) (s : State) (k : Nat) : (s.ringPump fuel k).rules = s.rules := by
  induction fuel generalizing s with
  | zero => rfl
  | succ fuel ih =>
    unfold State.ringPump
    dsimp only
    (repeat' split) <;> simp [ih]

@[simp] theorem State.ringSend_rules (s : State) (k : Nat) (d : Collective) (j : Nat) (second : Bool) (carried : Nat) (data : List Payload) :
    (s.ringSend k d j second carried data).rules = s.rules := by
  simp [State.ringSend]

@[simp] theorem State.ringTotal_rules (s : State) (k : Nat) (d : Collective) (n j : Nat) (expect : Option Nat) (total : List Payload) :
    (s.ringTotal k d n j expect total).rules = s.rules := by
  unfold State.ringTotal
  dsimp only
  (repeat' split) <;> simp [State.rules_foldl]

@[simp] theorem State.gatherRelease_rules (s : State) (k : Nat) : (s.gatherRelease k).rules = s.rules := by
  unfold State.gatherRelease
  dsimp only
  (repeat' split) <;> simp

@[simp] theorem State.phaseOne_rules (s : State) (k j : Nat) : (s.phaseOne k j).rules = s.rules := by
  unfold State.phaseOne
  dsimp only
  (repeat' split) <;> simp

@[simp] theorem State.phaseTwo_rules (s : State) (k j : Nat) : (s.phaseTwo k j).rules = s.rules := by
  unfold State.phaseTwo
  dsimp only
  (repeat' split) <;> simp

@[simp] theorem State.ringEnded_rules (s : State) (k j : Nat) (second : Bool) (status : Code) : (s.ringEnded k j second status).rules = s.rules := by
  unfold State.ringEnded
  dsimp only
  (repeat' split) <;> simp

@[simp] theorem State.ringPost_rules (s : State) (k : Nat) : (s.ringPost k).rules = s.rules := by
  unfold State.ringPost
  dsimp only
  (repeat' split) <;> simp

@[simp] theorem State.clearCheck_rules (s : State) (k : Nat) : (s.clearCheck k).rules = s.rules := by
  unfold State.clearCheck
  split
  · rfl
  · exact State.rules_foldl _ _ fun t l => by simp

@[simp] theorem State.ringsStart_rules (s : State) (h n : Nat) : (s.ringsStart h n).rules = s.rules := by simp [State.ringsStart]

/-! ### The mesh -/

@[simp] theorem State.crossTo_rules (s : State) (c : Coord) (d lane : Nat) (p : Packet) : (s.crossTo c d lane p).rules = s.rules := by
  unfold State.crossTo
  split <;> simp

@[simp] theorem State.routerSend_rules (s : State) (c : Coord) (p : Packet) : (s.routerSend c p).rules = s.rules := by simp [State.routerSend]

@[simp] theorem State.dropHead_rules (s : State) (c : Coord) (port lane n : Nat) :
    (s.dropHead c port lane n).rules = s.rules := by
  simp [State.dropHead]

@[simp] theorem State.deliver_rules (s : State) (c : Coord) (p : Packet) : (s.deliver c p).rules = s.rules := by
  unfold State.deliver
  grind [State.mapRouter_rules, State.rules_mk]

@[simp] theorem State.linkEnds_rules (s : State) (c : Coord) (d : Nat) : (s.linkEnds c d).rules = s.rules := by
  unfold State.linkEnds
  split <;> simp

@[simp] theorem State.edgeOut_rules (s : State) (c : Coord) (d : Nat) : (s.edgeOut c d).rules = s.rules := by simp [State.edgeOut]

@[simp] theorem State.meshLinkDown_rules (s : State) (c : Coord) (d : Nat) : (s.meshLinkDown c d).rules = s.rules := by
  unfold State.meshLinkDown
  split <;> simp

@[simp] theorem State.headerDrop_rules (s : State) (c : Coord) (port lane : Nat) : (s.headerDrop c port lane).rules = s.rules := by
  unfold State.headerDrop
  dsimp only
  (repeat' split) <;> simp

@[simp] theorem State.holdBack_rules (s : State) (c : Coord) (port lane : Nat) (p : Packet) :
    (s.holdBack c port lane p).rules = s.rules := by
  simp [State.holdBack]

@[simp] theorem State.injected_rules (s : State) (c : Coord) (port : Nat) (p : Packet) : (s.injected c port p).rules = s.rules := by
  unfold State.injected
  split <;> simp

@[simp] theorem State.sendDrop_rules (s : State) (c : Coord) (p : Packet) (kind : Nat) : (s.sendDrop c p kind).rules = s.rules := by
  unfold State.sendDrop
  split <;> simp

@[simp] theorem State.flockBranch_rules (s : State) (c : Coord) (p : Packet) (port : Nat) : (s.flockBranch c p port).2.rules = s.rules := by
  unfold State.flockBranch
  dsimp only
  (repeat' split) <;> simp

@[simp] theorem State.flockHop_rules (s : State) (c : Coord) (port lane : Nat) (p : Packet) : (s.flockHop c port lane p).rules = s.rules := by
  have branches : ∀ mask : Nat, ((List.range 5).foldl (fun (acc : Nat × State) d =>
      if bitAt mask d then
        let (gone, s) := acc.2.flockBranch c p d
        (if gone then acc.1 else acc.1 + 2 ^ d, s)
      else acc) (0, s)).2.rules = s.rules :=
    fun mask => State.rules_foldl_snd _ _ fun t d => by split <;> simp
  unfold State.flockHop
  dsimp only
  split <;> simp [branches]

@[simp] theorem State.replyHop_rules (s : State) (c : Coord) (port lane : Nat) (p : Packet) : (s.replyHop c port lane p).rules = s.rules := by
  have apart : ∀ (l : List Contributor) (t : State), (l.foldl (fun (s : State) e => s.deliver c (p.entryReply e)) t).rules = t.rules :=
    fun l t => State.rules_foldl l t fun u e => by simp
  unfold State.replyHop
  split
  · simp
  · dsimp only
    rw [State.mapRouter_rules, State.rules_foldl_snd _ _ fun t d => by (repeat' split) <;> simp]
    (repeat' split) <;> simp [apart]

@[simp] theorem State.plainHop_rules (s : State) (c : Coord) (port lane : Nat) (p : Packet) : (s.plainHop c port lane p).rules = s.rules := by
  unfold State.plainHop
  dsimp only
  (repeat' split) <;> simp

@[simp] theorem State.packetHop_rules (s : State) (c : Coord) (port lane : Nat) (err : HopErr) : (s.packetHop c port lane err).rules = s.rules := by
  unfold State.packetHop
  dsimp only
  (repeat' split) <;> simp

@[simp] theorem State.redCombine_rules (s : State) (c : Coord) (pa la pb lb : Nat) : (s.redCombine c pa la pb lb).rules = s.rules := by
  unfold State.redCombine
  dsimp only
  (repeat' split) <;> simp

@[simp] theorem State.treePath_rules (s : State) (flock : Nat) (dst : Coord) (fuel : Nat) (c : Coord) :
    (s.treePath flock dst fuel c).rules = s.rules := by
  induction fuel generalizing s c with
  | zero => rfl
  | succ fuel ih =>
    unfold State.treePath
    dsimp only
    (repeat' split) <;> simp [ih]

@[simp] theorem State.buildTree_rules (s : State) (flock : Nat) (root : Coord) (members : List Coord) :
    (s.buildTree flock root members).rules = s.rules := by
  simp [State.buildTree, State.rules_foldl]

@[simp] theorem State.clearFlock_rules (s : State) (flock : Nat) : (s.clearFlock flock).rules = s.rules := by simp [State.clearFlock]

@[simp] theorem State.clearMasks_rules (s : State) (flock : Nat) : (s.clearMasks flock).rules = s.rules := by simp [State.clearMasks]

@[simp] theorem State.buildTrees_rules (s : State) (r : Region) : (s.buildTrees r).rules = s.rules := by
  unfold State.buildTrees
  exact State.rules_foldl _ _ fun t e => by (repeat' split) <;> simp

@[simp] theorem State.buildFlocks_rules (s : State) (h : Nat) : (s.buildFlocks h).rules = s.rules := by
  unfold State.buildFlocks
  split
  · rfl
  · dsimp only
    rw [State.rules_foldl _ _ fun t c => State.rules_foldl _ _ fun u n => by split <;> simp, State.rules_foldl _ _ fun t f => by split <;> simp,
      State.buildTrees_rules]

@[simp] theorem State.writeVersion_rules (s : State) (version : Bool) (entries : List RouteEntry) :
    (s.writeVersion version entries).rules = s.rules := by
  simp [State.writeVersion, State.rules_foldl, apply_ite State.rules]

@[simp] theorem State.fenceUnreachable_rules (s : State) (version : Bool) :
    (s.fenceUnreachable version).rules = s.rules := by
  simp [State.fenceUnreachable, State.rules_foldl]

@[simp] theorem State.transferTree_rules (s : State) (f : Nat) (t : Transfer) :
    (s.transferTree f t).rules = s.rules := by
  simp [State.transferTree, State.rules_foldl]

@[simp] theorem State.clearField_rules (s : State) (f flock : Nat) :
    (s.clearField f flock).rules = s.rules := by
  simp [State.clearField, State.rules_foldl]

@[simp] theorem State.rebuildTrees_rules (s : State) :
    (s.rebuildTrees).rules = s.rules := by
  simp [State.rebuildTrees, State.rules_foldl, apply_ite State.rules]

/-! ### Packets that arrive -/

theorem State.takeInbox_rules {s : State} {c : Coord} {p : Packet → Bool} {z : _ × State} (h : s.takeInbox c p = some z) : z.2.rules = s.rules := by
  simp only [State.takeInbox, Option.map_eq_some_iff] at h
  obtain ⟨e, -, rfl⟩ := h
  simp

@[simp] theorem State.arrival_rules (s : State) (c : Coord) (test : Packet → Bool) (f : Work → Packet → Option Work) :
    (s.arrival c test f).rules = s.rules := by
  unfold State.arrival
  split
  · rfl
  · split
    · rfl
    · next h => have := State.takeInbox_rules h; split <;> simpa

theorem State.toGate_rules {s : State} {c : Coord} {type : Nat} {z : _ × _ × State} (h : s.toGate c type = some z) : z.2.2.rules = s.rules := by
  simp only [State.toGate, Option.bind_eq_some_iff] at h
  obtain ⟨e, he, h⟩ := h
  split at h
  · obtain ⟨g, -, rfl⟩ := Option.map_eq_some_iff.mp h
    exact State.takeInbox_rules he
  · cases h

@[simp] theorem State.flockUp_rules (s : State) (c : Coord) (p : Packet) : (s.flockUp c p).rules = s.rules := by
  unfold State.flockUp
  dsimp only
  (repeat' split) <;> simp

@[simp] theorem State.loftRdArrive_rules (s : State) (c : Coord) (p : Packet) : (s.loftRdArrive c p).rules = s.rules := by
  unfold State.loftRdArrive
  dsimp only
  (repeat' split) <;> simp

@[simp] theorem State.loftWrArrive_rules (s : State) (c : Coord) (p : Packet) (bad : Nat) : (s.loftWrArrive c p bad).rules = s.rules := by
  unfold State.loftWrArrive
  dsimp only
  (repeat' split) <;> simp

@[simp] theorem State.gateArrival_rules (s : State) (c : Coord) (type : Nat) (f : Work → Packet → Work) :
    (s.gateArrival c type f).rules = s.rules := by
  unfold State.gateArrival
  dsimp only
  (repeat' split) <;> simp

@[simp] theorem State.response_rules (s : State) (c : Coord) (type : Nat) (f : Work → Packet → Work) : (s.response c type f).rules = s.rules := by
  unfold State.response
  split
  · next h => simpa using State.takeInbox_rules h
  · simp

@[simp] theorem State.reply_rules (s : State) (c : Coord) : (s.reply c).rules = s.rules := by
  unfold State.reply
  split <;> simp

@[simp] theorem State.multiReply_rules (s : State) (c : Coord) : (s.multiReply c).rules = s.rules := by
  unfold State.multiReply
  split
  · rfl
  · next h =>
    have := State.takeInbox_rules h
    split
    · simpa
    · rw [State.pumpAll_rules, State.rules_foldl]
      · exact this
      · intro t e
        dsimp only
        (repeat' split) <;> simp

@[simp] theorem State.borderDown_rules (s : State) (p : Nat) :
    (s.borderDown p).rules = s.rules :=
  State.rules_foldl _ _ fun t c => State.rules_foldl _ _ fun u d => by
  (repeat' split) <;> first | rfl | simp

@[simp] theorem State.flipStart_rules (s : State) (links : List (Coord × Nat)) (paddocks : List Nat) :
    (s.flipStart links paddocks).rules = s.rules := by
  simp [State.flipStart, State.rules_foldl]

@[simp] theorem State.flipInstall_rules (s : State) (entries : List RouteEntry) : (s.flipInstall entries).rules = s.rules := by
  unfold State.flipInstall
  dsimp only
  (repeat' split) <;> simp

@[simp] theorem State.flipConfirm_rules (s : State) : (s.flipConfirm).rules = s.rules := by
  unfold State.flipConfirm
  split <;> simp

/-! ### Loft requests and spares -/

@[simp] theorem State.loftAccept_rules (s : State) (pv bad : Nat) : (s.loftAccept pv bad).rules = s.rules := by
  unfold State.loftAccept
  dsimp only
  (repeat' split) <;> simp

@[simp] theorem State.scrub_rules (s : State) (pv line : Nat) (errs : List LineErr) : (s.scrub pv line errs).rules = s.rules := by
  unfold State.scrub
  dsimp only
  (repeat' split) <;> simp

@[simp] theorem State.vaultLoss_rules (s : State) (pv : Nat) (cause : VaultCause) : (s.vaultLoss pv cause).rules = s.rules := by
  unfold State.vaultLoss
  dsimp only
  (repeat' split) <;> simp

/-! ### Broadcasts -/

@[simp] theorem State.mapHub_rules (s : State) (f : Nat) (g : Hub → Hub) : (s.mapHub f g).rules = s.rules := by simp [State.mapHub]

theorem State.transferBegin_rules {s : State} {f : Nat} {t : Transfer} {z : _ × State} (h : s.transferBegin f t = some z) : z.2.rules = s.rules := by
  unfold State.transferBegin at h
  split at h
  · cases h; rfl
  · obtain ⟨a, -, rfl⟩ := Option.map_eq_some_iff.mp h
    simp [State.rules_foldl]

@[simp] theorem State.hubInject_rules (s : State) (f : Nat) (p : Packet) : (s.hubInject f p).rules = s.rules := by
  unfold State.hubInject
  split <;> simp

@[simp] theorem State.broadcast_rules (s : State) (f : Nat) : (s.broadcast f).rules = s.rules := by
  unfold State.broadcast
  split
  · rfl
  · split
    · rfl
    · next h => simpa [State.rules_foldl] using State.transferBegin_rules h

@[simp] theorem State.firmwareChunk_rules (s : State) (c : Coord) (transfer seq : Nat) (bytes : List Byte) :
    (s.firmwareChunk c transfer seq bytes).rules = s.rules := by
  unfold State.firmwareChunk
  dsimp only
  (repeat' split) <;> simp

@[simp] theorem State.sectionChunk_rules (s : State) (c : Coord) (h n seq : Nat) (bytes : List Byte) :
    (s.sectionChunk c h n seq bytes).rules = s.rules := by
  unfold State.sectionChunk
  dsimp only
  (repeat' split) <;> simp

@[simp] theorem State.receive_rules (s : State) (c : Coord) (p : Packet) : (s.receive c p).rules = s.rules := by
  unfold State.receive
  dsimp only
  (repeat' split) <;> simp

@[simp] theorem State.fwMiss_rules (s : State) (f : Nat) (t : Transfer) (m : Nat × Nat) : (s.fwMiss f t m).rules = s.rules := by simp [State.fwMiss]

@[simp] theorem State.dropTransfers_rules (s : State) (h : Nat) : (s.dropTransfers h).rules = s.rules := by simp [State.dropTransfers]

/-! ### Loading and releasing -/

@[simp] theorem State.emptyRect_rules (s : State) (bx oy w h : Nat) :
    (s.emptyRect bx oy w h).rules = s.rules := by
  simp [State.emptyRect, State.rules_foldl]

@[simp] theorem State.holdMusters_rules (s : State) (h : Nat) (im : Image) :
    (s.holdMusters h im).rules = s.rules := by
  simp [State.holdMusters, State.rules_foldl]

@[simp] theorem State.setMusters_rules (s : State) (h : Nat) (im : Image) (b : List Byte) (bx oy : Nat) :
    (s.setMusters h im b bx oy).rules = s.rules := by
  simp [State.setMusters, State.rules_foldl]

@[simp] theorem State.holdRings_rules (s : State) (h : Nat) (im : Image) : (s.holdRings h im).rules = s.rules := by
  unfold State.holdRings
  rw [State.rules_foldl _ _ fun t e => by (repeat' split) <;> simp]
  simp

@[simp] theorem State.freeFlocks_rules (s : State) (r : Region) : (s.freeFlocks r).rules = s.rules := by simp [State.freeFlocks, State.rules_foldl]

@[simp] theorem State.release_rules (s : State) (h : Nat) : (s.release h).rules = s.rules := by
  unfold State.release
  dsimp only
  (repeat' split) <;> simp

@[simp] theorem State.tellReferrers_rules (s : State) (h : Nat) :
    (s.tellReferrers h).rules = s.rules := by
  simp [State.tellReferrers, State.rules_foldl]

@[simp] theorem State.untellReferrers_rules (s : State) (h : Nat) : (s.untellReferrers h).rules = s.rules := by simp [State.untellReferrers]

@[simp] theorem State.stage_rules (s : State) (h : Nat) (j : LoadJob) : (s.stage h j).rules = s.rules := by simp [State.stage, State.rules_foldl]

@[simp] theorem State.stageTry_rules (s : State) (h : Nat) : (s.stageTry h).rules = s.rules := by
  unfold State.stageTry
  dsimp only
  (repeat' split) <;> simp

@[simp] theorem State.installCell_rules (s : State) (h : Nat) (im : Image) (b : List Byte) (n bx oy : Nat) (c : Coord) :
    (s.installCell h im b n bx oy c).rules = s.rules := by
  unfold State.installCell
  dsimp only
  (repeat' split) <;> simp

@[simp] theorem State.settleRegion_rules (s : State) (h : Nat) : (s.settleRegion h).rules = s.rules := by
  unfold State.settleRegion
  split <;> simp

@[simp] theorem State.install_rules (s : State) (h : Nat) (j : LoadJob) : (s.install h j).rules = s.rules := by
  unfold State.install
  dsimp only
  (repeat' split) <;> simp [State.rules_foldl]

@[simp] theorem State.loadFails_rules (s : State) (h : Nat) (j : LoadJob) (code : Code) : (s.loadFails h j code).rules = s.rules := by
  unfold State.loadFails
  dsimp only
  (repeat' split) <;> simp

@[simp] theorem State.deliveredNow_rules (s : State) (h : Nat) : (s.deliveredNow h).rules = s.rules := by
  unfold State.deliveredNow
  grind [State.install_rules, State.loadFails_rules, State.rules_mk]

@[simp] theorem State.rewritePeers_rules (s : State) (k moved : Nat) : (s.rewritePeers k moved).rules = s.rules := by
  unfold State.rewritePeers
  dsimp only
  split
  · simp
  · split
    · simp
    · split
      · rw [State.buildFlocks_rules, State.mapRegion_rules, State.freeFlocks_rules, State.rules_foldl _ _ fun t f => by (repeat' split) <;> simp,
          State.mapRegion_rules]
      · rw [State.rules_foldl _ _ fun t f => by (repeat' split) <;> simp, State.mapRegion_rules]

@[simp] theorem State.relocateDone_rules (s : State) (h : Nat) : (s.relocateDone h).rules = s.rules := by
  unfold State.relocateDone
  dsimp only
  (repeat' split) <;> simp

@[simp] theorem State.peerRewrite_rules (s : State) (h : Nat) :
    (s.peerRewrite h).rules = s.rules := by
  simp [State.peerRewrite, State.rules_foldl, apply_ite State.rules]

@[simp] theorem State.loadSwept_rules (s : State) (h : Nat) (r : Region) (j : LoadJob) : (s.loadSwept h r j).rules = s.rules := by
  unfold State.loadSwept
  dsimp only
  (repeat' split) <;> simp

@[simp] theorem State.startSwept_rules (s : State) (h : Nat) (r : Region) (c : CmdRef) :
    (s.startSwept h r c).rules = s.rules := by
  simp [State.startSwept]

@[simp] theorem State.sweepClose_rules (s : State) (h : Nat) : (s.sweepClose h).rules = s.rules := by
  unfold State.sweepClose
  grind [State.startSwept_rules, State.loadSwept_rules, State.rules_mk]

/-! ### Commands of the host and step boundaries -/

@[simp] theorem State.noteUnit_rules (s : State) (kind logical physical st : Nat) :
    (s.noteUnit kind logical physical st).rules = s.rules := by
  simp [State.noteUnit]

@[simp] theorem State.unitFailed_rules (s : State) (kind number : Nat) : (s.unitFailed kind number).rules = s.rules := by simp [State.unitFailed]

@[simp] theorem State.moveGate_rules (s : State) (home : Nat) : (s.moveGate home).rules = s.rules := by
  unfold State.moveGate
  dsimp only
  (repeat' split) <;> simp

@[simp] theorem State.moveGates_rules (s : State) : (s.moveGates).rules = s.rules := by simp [State.moveGates, State.rules_foldl]

@[simp] theorem State.placeNode_rules (s : State) (n : Nat) : (s.placeNode n).rules = s.rules := by
  unfold State.placeNode
  dsimp only
  split
  · next h =>
    have := DefectState.takeNodeSpare_rules h
    simp_all [State.rules_mk]
  · simp

@[simp] theorem State.placeNodes_rules (s : State) (h : Nat) : (s.placeNodes h).rules = s.rules := by simp [State.placeNodes, State.rules_foldl]

@[simp] theorem State.dropLoad_rules (s : State) (src : Source) (seq : Nat) : (s.dropLoad src seq).rules = s.rules := by simp [State.dropLoad]

@[simp] theorem State.acceptLoad_rules (s : State) (m : HcpMsg) (e : Envelope) : (s.acceptLoad m e).rules = s.rules := by simp [State.acceptLoad]

@[simp] theorem State.loadTurn_rules (s : State) (m : HcpMsg) : (s.loadTurn m).rules = s.rules := by
  unfold State.loadTurn
  dsimp only
  (repeat' split) <;> simp

@[simp] theorem State.mustersAbandon_rules (s : State) (r : Region) :
    (s.mustersAbandon r).rules = s.rules := by
  simp [State.mustersAbandon, State.rules_foldl]

@[simp] theorem State.startCells_rules (s : State) (r : Region) : (s.startCells r).rules = s.rules := by simp [State.startCells, State.rules_foldl]

@[simp] theorem State.clearChecks_rules (s : State) (h : Nat) : (s.clearChecks h).rules = s.rules := by simp [State.clearChecks, State.rules_foldl]

@[simp] theorem State.startTurn_rules (s : State) (m : HcpMsg) : (s.startTurn m).rules = s.rules := by
  unfold State.startTurn
  dsimp only
  (repeat' split) <;> simp

@[simp] theorem State.patchStep_rules (s : State) (h : Nat) (r : Region) (n : Nat) : (s.patchStep h r n).rules = s.rules := by
  unfold State.patchStep
  refine State.rules_foldl _ _ fun t p => ?_
  dsimp only
  split
  · rfl
  · rw [State.rules_foldl _ _ fun u f => by split <;> simp, State.mapCell_rules]

@[simp] theorem State.stepNow_rules (s : State) (m : HcpMsg) : (s.stepNow m).rules = s.rules := by
  unfold State.stepNow
  dsimp only
  (repeat' split) <;> simp

@[simp] theorem State.stepTurn_rules (s : State) (m : HcpMsg) : (s.stepTurn m).rules = s.rules := by
  unfold State.stepTurn
  grind [State.stepNow_rules, State.mapRegion_rules, State.rules_mk]

@[simp] theorem State.runHeld_rules (s : State) : (s.runHeld).rules = s.rules := by
  unfold State.runHeld
  exact State.rules_foldl _ _ fun t e => by (repeat' split) <;> simp

@[simp] theorem State.relocateTurn_rules (s : State) (m : HcpMsg) : (s.relocateTurn m).rules = s.rules := by
  unfold State.relocateTurn
  dsimp only
  (repeat' split) <;> simp

@[simp] theorem State.commitTurn_rules (s : State) (m : HcpMsg) : (s.commitTurn m).rules = s.rules := by
  unfold State.commitTurn
  dsimp only
  (repeat' split) <;> simp

@[simp] theorem State.turn_rules (s : State) (m : HcpMsg) : (s.turn m).rules = s.rules := by
  unfold State.turn
  grind [State.commitTurn_rules, State.relocateTurn_rules, State.stepTurn_rules, State.startTurn_rules, State.loadTurn_rules, State.rules_mk]

@[simp] theorem State.runWaiting_rules (s : State) :
    (s.runWaiting).rules = s.rules := by
  simp [State.runWaiting, State.rules_foldl, apply_ite State.rules]

theorem State.hcpEnter_rules (s : State) (m : HcpMsg) (op : Nat) {act : State → State} (h : ∀ t, (act t).rules = t.rules) :
    (s.hcpEnter m op act).rules = s.rules := by
  unfold State.hcpEnter
  dsimp only
  (repeat' split) <;> simp [h]

@[simp] theorem State.queued_rules (s : State) (m : HcpMsg) : (s.queued m).rules = s.rules := by
  unfold State.queued
  split <;> simp

@[simp] theorem State.loadPiece_rules (s : State) (m : HcpMsg) : (s.loadPiece m).rules = s.rules := by
  unfold State.loadPiece
  dsimp only
  (repeat' split) <;> simp

@[simp] theorem State.haltNow_rules (s : State) (m : HcpMsg) : (s.haltNow m).rules = s.rules := by
  unfold State.haltNow
  dsimp only
  (repeat' split) <;> simp

@[simp] theorem State.releaseFree_rules (s : State) (h : Nat) : (s.releaseFree h).rules = s.rules := by
  unfold State.releaseFree
  (repeat' split) <;> simp [State.rules_foldl]

@[simp] theorem State.abortRelease_rules (s : State) (m : HcpMsg) (r : Region) :
    (s.abortRelease m r).rules = s.rules := by
  simp [State.abortRelease, State.rules_foldl, apply_ite State.rules]

@[simp] theorem State.endDoubt_rules (s : State) (h : Nat) (r : Region) : (s.endDoubt h r).rules = s.rules := by
  unfold State.endDoubt
  dsimp only
  (repeat' split) <;> simp

@[simp] theorem State.abortRunning_rules (s : State) (m : HcpMsg) (r : Region) : (s.abortRunning m r).rules = s.rules := by
  unfold State.abortRunning
  split <;> simp

@[simp] theorem State.abortNow_rules (s : State) (m : HcpMsg) : (s.abortNow m).rules = s.rules := by
  unfold State.abortNow
  dsimp only
  (repeat' split) <;> simp

@[simp] theorem State.stageAll_rules (s : State) : (s.stageAll).rules = s.rules := by simp [State.stageAll, State.rules_foldl]

@[simp] theorem State.mustersStart_rules (s : State) (r : Region) :
    (s.mustersStart r).rules = s.rules := by
  simp [State.mustersStart, State.rules_foldl]

@[simp] theorem State.edgesStart_rules (s : State) (r : Region) : (s.edgesStart r).rules = s.rules := by simp [State.edgesStart]

@[simp] theorem State.stepRelease_rules (s : State) (h : Nat) : (s.stepRelease h).rules = s.rules := by
  unfold State.stepRelease
  dsimp only
  (repeat' split) <;> simp [State.rules_foldl]

@[simp] theorem State.haltsDone_rules (s : State) (h : Nat) (r : Region) :
    (s.haltsDone h r).rules = s.rules := by
  simp [State.haltsDone, State.rules_foldl]

@[simp] theorem State.stepEnd_rules (s : State) (h : Nat) : (s.stepEnd h).rules = s.rules := by
  unfold State.stepEnd
  dsimp only
  (repeat' split) <;> simp

@[simp] theorem State.abortingDone_rules (s : State) (h : Nat) : (s.abortingDone h).rules = s.rules := by
  unfold State.abortingDone
  dsimp only
  (repeat' split) <;> simp [State.rules_foldl]

@[simp] theorem State.checkDone_rules (s : State) (c : Coord) (passed : Bool) : (s.checkDone c passed).rules = s.rules := by
  unfold State.checkDone
  dsimp only
  (repeat' split) <;> simp

/-! ### Ports and link units -/

@[simp] theorem State.linkGivesUp_rules (s : State) (p : Nat) : (s.linkGivesUp p).rules = s.rules := by simp [State.linkGivesUp]

@[simp] theorem State.portUp_rules (s : State) (p : Nat) : (s.portUp p).rules = s.rules := by
  unfold State.portUp
  split <;> simp

@[simp] theorem State.unitReceived_rules (s : State) (p : Nat) (u : LinkUnit) : (s.unitReceived p u).rules = s.rules := by
  unfold State.unitReceived
  dsimp only
  (repeat' split) <;> simp

@[simp] theorem State.swapLane_rules (s : State) (p : Nat) : (s.swapLane p).rules = s.rules := by
  unfold State.swapLane
  grind [State.mapPort_rules, State.noteUnit_rules, State.rules_mk]

@[simp] theorem State.laneFails_rules (s : State) (p lane : Nat) (cause : LaneCause) : (s.laneFails p lane cause).rules = s.rules := by
  unfold State.laneFails
  dsimp only
  (repeat' split) <;> simp

@[simp] theorem State.transit_rules (s : State) (p : Nat) : (s.transit p).rules = s.rules := by
  unfold State.transit
  split
  · rfl
  · next h =>
    have := State.takeFrame_rules h
    dsimp only
    (repeat' split) <;> simpa

/-! ### Streams and linked musters -/

@[simp] theorem State.mapDesc_rules (s : State) (c : Coord) (ch : Nat) (p : DmaDesc → Bool) (f : DmaDesc → DmaDesc) :
    (s.mapDesc c ch p f).rules = s.rules := by
  simp [State.mapDesc]

@[simp] theorem State.recordPut_rules (s : State) (c : Coord) (ch : Nat) : (s.recordPut c ch).rules = s.rules := by
  have placed : ∀ (t u : State) (o : Option State), u.rules = t.rules → (∀ v, o = some v → v.rules = u.rules) → (t.orSame o).rules = t.rules :=
    fun t u o hu hv => State.orSame_rules fun v h => (hv v h).trans hu
  unfold State.recordPut
  dsimp only
  (repeat' split) <;> try (first | rfl | exact State.mapDesc_rules ..)
  all_goals exact placed _ _ _ (by simp) fun v h => State.lineRequest_rules h

@[simp] theorem State.poll_rules (s : State) (c : Coord) (ch : Nat) : (s.poll c ch).rules = s.rules := by
  unfold State.poll
  grind [State.lineRequest_rules, State.orSame_rules, State.mapDesc_rules, State.rules_mk]

@[simp] theorem State.relendEnded_rules (s : State) (u : TagUse) (status : Code) (data : Payload) :
    (s.relendEnded u status data).rules = s.rules := by
  unfold State.relendEnded
  split <;> simp

@[simp] theorem State.requestEnds_rules (s : State) (p t : Nat) (u : TagUse) (status : Code) (data : Payload) :
    (s.requestEnds p t u status data).rules = s.rules := by
  simp [State.requestEnds]

theorem State.answered_rules (s : State) (p kind : Nat) {act : State → Frame → TagUse → State} (h : ∀ t f u, (act t f u).rules = t.rules) :
    (s.answered p kind act).rules = s.rules := by
  unfold State.answered
  split
  · rfl
  · next hk => have := State.takeKind_rules hk; split <;> simpa [h]

@[simp] theorem State.tagFree_rules (s : State) (p : Nat) :
    (s.tagFree p).rules = s.rules := by
  simp [State.tagFree, State.rules_foldl, apply_ite State.rules]

@[simp] theorem State.arriveReaches_rules (s : State) (p refCycles : Nat) : (s.arriveReaches p refCycles).rules = s.rules := by
  unfold State.arriveReaches
  split
  · rfl
  · next h => simpa using State.takeKind_rules h

/-! ### Units lost -/

@[simp] theorem State.cellOff_rules (s : State) (cause : Nat) (c : Coord) : (s.cellOff cause c).rules = s.rules := by
  unfold State.cellOff
  split <;> simp

@[simp] theorem State.loseGates_rules (s : State) (p : Nat) : (s.loseGates p).rules = s.rules := by simp [State.loseGates, State.rules_foldl]

@[simp] theorem State.mapPaddock_rules (s : State) (p : Nat) (f : PaddockRegs → PaddockRegs) :
    (s.mapPaddock p f).rules = s.rules := by
  simp [State.mapPaddock]

@[simp] theorem State.holdMap_rules (s old : State) (p : Nat) : (s.holdMap old p).rules = s.rules := by
  unfold State.holdMap
  split <;> simp

@[simp] theorem State.paddockOff_rules (s : State) (p : Nat) (mode : PaddockMode) (cellCause : Nat) (code : Code) :
    (s.paddockOff p mode cellCause code).rules = s.rules := by
  have cells : ∀ (l : List Coord) (n : Nat) (t : State), (l.foldl (fun (s : State) c => s.cellOff n c) t).rules = t.rules :=
    fun l n t => State.rules_foldl l t fun u c => by simp
  have vaults : ∀ (l : List Nat) (t : State), (l.foldl (fun (s : State) pv => s.dropVault pv .paddockTrip) t).rules = t.rules :=
    fun l t => State.rules_foldl l t fun u c => by simp
  unfold State.paddockOff
  split
  · rfl
  · dsimp only
    split <;> simp [cells, vaults, State.mapPaddock]

@[simp] theorem State.paddockGone_rules (s : State) (code : Code) (p : Nat) : (s.paddockGone code p).rules = s.rules := by
  unfold State.paddockGone
  dsimp only
  (repeat' split) <;> simp [State.rules_foldl]

@[simp] theorem State.fieldOff_rules (s : State) (f : Nat) (code : Code) :
    (s.fieldOff f code).rules = s.rules := by
  simp [State.fieldOff, State.rules_foldl]

@[simp] theorem State.forceRunning_rules (s : State) (p : Region → Bool) (code : Code) :
    (s.forceRunning p code).rules = s.rules := by
  simp [State.forceRunning]

@[simp] theorem State.clearRoot_rules (s : State) (f : Nat) : (s.clearRoot f).rules = s.rules := by simp [State.clearRoot]

@[simp] theorem State.hubFails_rules (s : State) (f : Nat) : (s.hubFails f).rules = s.rules := by
  unfold State.hubFails
  split
  · rfl
  · dsimp only
    split
    · next h =>
      rw [State.mapChanged_rules, State.clearRoot_rules, State.forceRunning_rules, State.noteUnit_rules]
      refine (State.rules_defects _ (DefectState.takeHubSpare_rules h)).trans ?_
      split <;> simp
    · split <;> simp

@[simp] theorem State.heartbeat_rules (s : State) (f : Nat) (answered : Bool) : (s.heartbeat f answered).rules = s.rules := by
  unfold State.heartbeat
  dsimp only
  (repeat' split) <;> simp

@[simp] theorem State.stageAndSend_rules (s : State) (f bad : Nat) : (s.stageAndSend f bad).rules = s.rules := by
  unfold State.stageAndSend
  grind [State.broadcast_rules, State.hubNote_rules, State.hubFails_rules, State.rules_mk]

@[simp] theorem State.rowFails_rules (s : State) (n : Nat) : (s.rowFails n).rules = s.rules := by
  unfold State.rowFails
  dsimp only
  (repeat' split) <;> simp

@[simp] theorem State.blockFails_rules (s : State) (f kx ky : Nat) :
    (s.blockFails f kx ky).rules = s.rules := by
  simp [State.blockFails, State.rules_foldl, apply_ite State.rules]

@[simp] theorem State.nodeFails_rules (s : State) (n : TreeNode) : (s.nodeFails n).rules = s.rules := by
  unfold State.nodeFails
  split <;> simp

/-! ### Clocks -/

@[simp] theorem State.mapRoots_rules (s : State) (east : Bool) {f : HalfClock → HalfClock} (h : ∀ c, (f c).rules = c.rules) :
    (s.mapRoots east f).rules = s.rules := by
  unfold State.mapRoots
  split
  · exact State.rules_mk rfl rfl rfl rfl (Prod.ext rfl (h _)) rfl
  · exact State.rules_mk rfl rfl rfl rfl (Prod.ext (h _) rfl) rfl

@[simp] theorem State.rampTo_rules (s : State) (east : Bool) (mhz : Nat) :
    (s.rampTo east mhz).rules = s.rules := by
  simp [State.rampTo, HalfClock.seen]

@[simp] theorem State.takeSource_rules (s : State) (d : Nat) (ref : Bool) : (s.takeSource d ref).rules = s.rules := by simp [State.takeSource]

@[simp] theorem State.sourceNow_rules (s : State) (f : Nat) : (s.sourceNow f).rules = s.rules := by simp [State.sourceNow, State.rules_foldl]

@[simp] theorem State.sourceAsk_rules (s : State) (d : Nat) (ref : Bool) : (s.sourceAsk d ref).rules = s.rules := by simp [State.sourceAsk]

@[simp] theorem HalfClock.lock_rules (now : Nat) (h : HalfClock) : (h.lock now).rules = h.rules := by
  unfold HalfClock.lock
  split <;> rfl

@[simp] theorem State.rootLocks_rules (s : State) (f : Nat) : (s.rootLocks f).rules = s.rules := by
  simp [State.rootLocks, -HalfClock.rules_eq]

@[simp] theorem State.fieldLost_rules (s : State) (f : Nat) : (s.fieldLost f).rules = s.rules := by
  unfold State.fieldLost
  dsimp only
  (repeat' split) <;> simp

@[simp] theorem State.rootUp_rules (s : State) (f : Nat) : (s.rootUp f).rules = s.rules := by
  unfold State.rootUp
  dsimp only
  (repeat' split) <;> simp [State.rules_foldl]

@[simp] theorem State.lockClears_rules (s : State) (f : Nat) : (s.lockClears f).rules = s.rules := by simp [State.lockClears]

@[simp] theorem State.lockLost_rules (s : State) (f : Nat) : (s.lockLost f).rules = s.rules := by
  unfold State.lockLost
  dsimp only
  (repeat' split) <;> simp

@[simp] theorem State.returned_rules (s : State) (f : Nat) : (s.returned f).rules = s.rules := by
  unfold State.returned
  split <;> simp

@[simp] theorem State.switchDone_rules (s : State) (f k : Nat) : (s.switchDone f k).rules = s.rules := by
  unfold State.switchDone
  dsimp only
  (repeat' split) <;> simp

/-! ### Power and temperature -/

@[simp] theorem State.mapDvfs_rules (s : State) (east : Bool) (f : HalfPower → HalfPower) : (s.mapDvfs east f).rules = s.rules := by
  unfold State.mapDvfs
  split <;> simp

@[simp] theorem State.sendPace_rules (s : State) (reason : Nat) : (s.sendPace reason).rules = s.rules := by simp [State.sendPace, State.rules_foldl]

@[simp] theorem State.paceChange_rules (s : State) (reason : Nat) : (s.paceChange reason).rules = s.rules := by
  unfold State.paceChange
  dsimp only
  (repeat' split) <;> simp

@[simp] theorem State.paceReaches_rules (s : State) (p : Nat) : (s.paceReaches p).rules = s.rules := by
  unfold State.paceReaches
  split
  · rfl
  · next h =>
    have := State.takeKind_rules h
    dsimp only
    (repeat' split) <;> simpa

@[simp] theorem State.releaseArrives_rules (s : State) (p : Nat) : (s.releaseArrives p).rules = s.rules := by
  unfold State.releaseArrives
  split
  · rfl
  · next h =>
    have := State.takeKind_rules h
    dsimp only
    (repeat' split) <;> simpa

@[simp] theorem State.writeTargets_rules (s : State) (east : Bool) (op : Nat) :
    (s.writeTargets east op).rules = s.rules := by
  simp [State.writeTargets, State.rules_foldl]

@[simp] theorem State.dvfsStart_rules (s : State) (east : Bool) : (s.dvfsStart east).rules = s.rules := by
  unfold State.dvfsStart
  dsimp only
  (repeat' split) <;> simp

@[simp] theorem State.dvfsTarget_rules (s : State) (east : Bool) (op : Nat) : (s.dvfsTarget east op).rules = s.rules := by
  unfold State.dvfsTarget
  dsimp only
  (repeat' split) <;> simp

@[simp] theorem State.rampDone_rules (s : State) (east : Bool) : (s.rampDone east).rules = s.rules := by
  unfold State.rampDone
  dsimp only
  (repeat' split) <;> simp

@[simp] theorem State.takeTarget_rules (s : State) (east : Bool) : (s.takeTarget east).rules = s.rules := by
  unfold State.takeTarget
  split <;> simp

@[simp] theorem State.noteHalves_rules (s : State) : (s.noteHalves).rules = s.rules := by
  unfold State.noteHalves
  split <;> simp

@[simp] theorem State.writeRoot_rules (s : State) (east : Bool) (mhz : Nat) : (s.writeRoot east mhz).rules = s.rules := by
  unfold State.writeRoot
  dsimp only
  (repeat' split) <;> simp

@[simp] theorem State.bankEnds_rules (s : State) : (s.bankEnds).rules = s.rules := by
  unfold State.bankEnds
  split <;> simp

@[simp] theorem State.paddocksSettle_rules (s : State) (east : Bool) : (s.paddocksSettle east).rules = s.rules := by
  unfold State.paddocksSettle
  dsimp only
  (repeat' split) <;> simp [State.rules_foldl]

@[simp] theorem State.holdToFloor_rules (s : State) (east : Bool) : (s.holdToFloor east).rules = s.rules := by simp [State.holdToFloor]

@[simp] theorem State.bankSteps_rules (s : State) : (s.bankSteps).rules = s.rules := by simp [State.bankSteps]

@[simp] theorem State.bankSample_rules (s : State) (west east : Nat) : (s.bankSample west east).rules = s.rules := by
  unfold State.bankSample
  dsimp only
  (repeat' split) <;> simp

@[simp] theorem State.avsStep_rules (s : State) (p : Nat) (slack : Slack) : (s.avsStep p slack).rules = s.rules := by
  unfold State.avsStep
  dsimp only
  (repeat' split) <;> simp

@[simp] theorem State.railAt_rules (s : State) (p quarterMv : Nat) : (s.railAt p quarterMv).rules = s.rules := by simp [State.railAt]

@[simp] theorem State.droopRate_rules (s : State) (p : Nat) : (s.droopRate p).rules = s.rules := by
  unfold State.droopRate
  split <;> simp

@[simp] theorem State.droops_rules (s : State) (p : Nat) : (s.droops p).rules = s.rules := by
  unfold State.droops
  split <;> simp

@[simp] theorem State.railSample_rules (s : State) (x : RailSample) : (s.railSample x).rules = s.rules := by
  unfold State.railSample
  grind [State.railAt_rules, State.droops_rules, State.rules_mk]

@[simp] theorem State.unstretch_rules (s : State) (f : Nat) : (s.unstretch f).rules = s.rules := by simp [State.unstretch, State.rules_foldl]

@[simp] theorem State.stretchEnds_rules (s : State) (x : FieldRails) :
    (s.stretchEnds x).rules = s.rules := by
  simp [State.stretchEnds, State.rules_foldl, apply_ite State.rules]

@[simp] theorem State.estimate_rules (s : State) (a : PaddockActivity) : (s.estimate a).rules = s.rules := by
  unfold State.estimate
  split <;> simp

@[simp] theorem State.addSample_rules (s : State) : (s.addSample).rules = s.rules := by simp [State.addSample]

@[simp] theorem State.meterEnergy_rules (s : State) (meterNj cycles : Nat) : (s.meterEnergy meterNj cycles).rules = s.rules := by
  unfold State.meterEnergy
  dsimp only
  (repeat' split) <;> simp

@[simp] theorem State.lower_rules (s : State) (k : Nat) : (s.lower k).rules = s.rules := by
  unfold State.lower
  split <;> simp

@[simp] theorem State.raise_rules (s : State) (k : Nat) : (s.raise k).rules = s.rules := by
  unfold State.raise
  split <;> simp

@[simp] theorem State.capDecide_rules (s : State) : (s.capDecide).rules = s.rules := by
  unfold State.capDecide
  dsimp only
  (repeat' split) <;> simp

@[simp] theorem State.flushOrWait_rules (s : State) (f : Nat) : (s.flushOrWait f).rules = s.rules := by
  unfold State.flushOrWait
  split <;> simp

@[simp] theorem State.flushAll_rules (s : State) : (s.flushAll).rules = s.rules := by simp [State.flushAll, State.rules_foldl]

@[simp] theorem State.overheats_rules (s : State) : (s.overheats).rules = s.rules := by
  have off : ∀ (l : List Nat) (t : State), (l.foldl (fun (s : State) p =>
      if s.paddockLive p then
        ({ (s.mapPaddock p PaddockRegs.off) with defects := { s.defects with paddocks := s.defects.paddocks.put p .off } } : State).mapChanged
      else s) t).rules = t.rules := fun l t => State.rules_foldl l t fun u p => by split <;> simp [State.mapPaddock]
  simp [State.overheats, State.rules_foldl, off]

@[simp] theorem State.throttles_rules (s : State) : (s.throttles).rules = s.rules := by simp [State.throttles]

@[simp] theorem State.unthrottle_rules (s : State) : (s.unthrottle).rules = s.rules := by simp [State.unthrottle]

@[simp] theorem PowerState.setHotAt_rules (p : PowerState) (east : Bool) (t : Option Nat) : (p.setHotAt east t).rules = p.rules := by
  unfold PowerState.setHotAt
  split <;> rfl

@[simp] theorem State.emergencySteps_rules (s : State) (east : Bool) :
    (s.emergencySteps east).rules = s.rules := by
  simp [State.emergencySteps, -PowerState.rules_eq]

@[simp] theorem State.emergency_rules (s : State) (east hot : Bool) : (s.emergency east hot).rules = s.rules := by
  unfold State.emergency
  split <;> simp [-PowerState.rules_eq]

@[simp] theorem State.sense_rules (s : State) (temps : List PaddockTemp) : (s.sense temps).rules = s.rules := by simp [State.sense, State.rules_foldl]

@[simp] theorem State.measured_rules (s : State) (west east : Coolant) : (s.measured west east).rules = s.rules := by
  unfold State.measured
  dsimp only
  (repeat' split) <;> simp

@[simp] theorem State.scan_rules (s : State) (temps : List PaddockTemp) (west east : Coolant) : (s.scan temps west east).rules = s.rules := by
  unfold State.scan
  dsimp only
  (repeat' split) <;> simp

@[simp] theorem State.measureStep_rules (s : State) (m : Nat) : (s.measureStep m).rules = s.rules := by
  unfold State.measureStep
  split <;> simp

/-! ### The meter -/

@[simp] theorem State.meterSeal_rules (s : State) (cause received : Nat) : (s.meterSeal cause received).rules = s.rules := by
  unfold State.meterSeal
  split <;> simp

@[simp] theorem State.saveUnread_rules (s : State) : (s.saveUnread).rules = s.rules := by simp [State.saveUnread]

@[simp] theorem State.meterFlags_rules (s : State) (b : List Byte) : (s.meterFlags b).rules = s.rules := by
  unfold State.meterFlags
  dsimp only
  (repeat' split) <;> simp

@[simp] theorem State.meterHeard_rules (s : State) : (s.meterHeard).rules = s.rules := by simp [State.meterHeard]

theorem State.meterFrame_rules (s : State) (kind len : Nat) (b : List Byte) {act : State → State} (h : ∀ t, (act t).rules = t.rules) :
    (s.meterFrame kind len b act).rules = s.rules := by
  unfold State.meterFrame
  (repeat' split) <;> simp [h]

@[simp] theorem State.meterStatus_rules (s : State) (b : List Byte) : (s.meterStatus b).rules = s.rules := by
  unfold State.meterStatus
  dsimp only
  (repeat' split) <;> simp

@[simp] theorem State.meterReading_rules (s : State) (b : List Byte) : (s.meterReading b).rules = s.rules := by
  unfold State.meterReading
  dsimp only
  (repeat' split) <;> simp

@[simp] theorem State.meterSignature_rules (s : State) (b : List Byte) : (s.meterSignature b).rules = s.rules := by
  unfold State.meterSignature
  dsimp only
  (repeat' split) <;> simp

/-! ### Bring-up -/

@[simp] theorem State.s8Leaves_rules (s : State) : (s.s8Leaves).rules = s.rules := by simp [State.s8Leaves]

@[simp] theorem State.stageBegins_rules (s : State) (n : Nat) : (s.stageBegins n).rules = s.rules := by
  unfold State.stageBegins
  dsimp only
  (repeat' split) <;> simp [State.rules_foldl]

@[simp] theorem State.stageEnds_rules (s : State) (n : Nat) (degraded : Bool) (elapsed detail : Nat) :
    (s.stageEnds n degraded elapsed detail).rules = s.rules := by
  simp [State.stageEnds]

@[simp] theorem State.resumeTime_rules (s : State) : (s.resumeTime).rules = s.rules := by simp [State.resumeTime, FlashState.scanned]

@[simp] theorem State.lossStep_rules (s : State) (n : Nat) : (s.lossStep n).rules = s.rules := by
  unfold State.lossStep
  dsimp only
  (repeat' split) <;> simp

@[simp] theorem State.holdUp_rules (s : State) (n : Nat) (torn : Option Nat) : (s.holdUp n torn).rules = s.rules := by
  unfold State.holdUp
  dsimp only
  (repeat' split) <;> simp [State.rules_foldl]

@[simp] theorem State.overrunDetail_rules (s : State) (n : Nat) : (s.overrunDetail n).2.rules = s.rules := by
  unfold State.overrunDetail
  split <;> simp

@[simp] theorem State.s0_rules (s : State) (westDv eastDv : Nat) (banksInRange : Bool) (elapsed : Nat) :
    (s.s0 westDv eastDv banksInRange elapsed).rules = s.rules := by
  unfold State.s0
  dsimp only
  (repeat' split) <;> simp

@[simp] theorem State.s1_rules (s : State) (elapsed : Nat) : (s.s1 elapsed).rules = s.rules := by
  unfold State.s1
  dsimp only
  split
  · exact State.stageFails_rules ..
  · rw [State.stageEnds_rules, State.rules_mk rfl rfl rfl rfl rfl rfl]

@[simp] theorem State.cellBarred_rules (s : State) (mode : CellMode) (cause : Nat) (c : Coord) : (s.cellBarred mode cause c).rules = s.rules := by
  unfold State.cellBarred
  split <;> simp [State.mapCell, State.setCell]

@[simp] theorem State.fieldBarred_rules (s : State) (f : Nat) : (s.fieldBarred f).rules = s.rules := by simp [State.fieldBarred, State.rules_foldl]

@[simp] theorem State.controllerBarred_rules (s : State) (f : Nat) : (s.controllerBarred f).rules = s.rules := by
  unfold State.controllerBarred
  split
  · rfl
  · dsimp only
    split
    · next h =>
      exact (State.noteUnit_rules ..).trans ((State.rules_defects _ (DefectState.takeHubSpare_rules h)).trans (State.unitFailed_rules ..))
    · simp

@[simp] theorem State.s2_rules (s : State) (notReady bad : List Nat) (elapsed : Nat) :
    (s.s2 notReady bad elapsed).rules = s.rules := by
  simp [State.s2, State.rules_foldl, apply_ite State.rules]

@[simp] theorem State.paddockOn_rules (s : State) (p : Nat) : (s.paddockOn p).rules = s.rules := by simp [State.paddockOn]

@[simp] theorem State.attemptFails_rules (s : State) (p : Nat) : (s.attemptFails p).rules = s.rules := by simp [State.attemptFails]

@[simp] theorem State.enableNext_rules (s : State) (east settled : Bool) : (s.enableNext east settled).rules = s.rules := by
  unfold State.enableNext
  dsimp only
  (repeat' split) <;> simp [State.rules_foldl]

@[simp] theorem State.gatesBarred_rules (s : State) : (s.gatesBarred).rules = s.rules := by simp [State.gatesBarred, State.rules_foldl]

@[simp] theorem State.nodeBarred_rules (s : State) (n : Nat) : (s.nodeBarred n).rules = s.rules := by
  unfold State.nodeBarred
  dsimp only
  split
  · next h =>
    exact (State.noteUnit_rules ..).trans ((State.rules_defects _ (DefectState.takeNodeSpare_rules h)).trans (State.unitFailed_rules ..))
  · simp

@[simp] theorem State.s4_rules (s : State) (cells : List Coord) (blocks : List (Nat × Nat × Nat)) (rows : List Nat) (apexBad : Bool) (elapsed : Nat) :
    (s.s4 cells blocks rows apexBad elapsed).rules = s.rules := by
  simp [State.s4, State.rules_foldl, apply_ite State.rules]

@[simp] theorem State.edgeTest_rules (s : State) (e : EdgeFail) : (s.edgeTest e).rules = s.rules := by
  unfold State.edgeTest
  dsimp only
  (repeat' split) <;> simp

@[simp] theorem State.firmwareTrees_rules (s : State) :
    (s.firmwareTrees).rules = s.rules :=
  State.rules_foldl _ _ fun t f => State.rules_foldl _ _ fun u x => by
  split <;> first | rfl | simp

@[simp] theorem State.s5_rules (s : State) (fails : List EdgeFail) (entries : List RouteEntry) (elapsed : Nat) :
    (s.s5 fails entries elapsed).rules = s.rules := by
  simp [State.s5, State.rules_foldl, apply_ite State.rules]

@[simp] theorem State.mapVaults_rules (s : State) : (s.mapVaults).rules = s.rules := State.rules_foldl _ _ fun t lv => by
  dsimp only
  (repeat' split) <;> rfl

@[simp] theorem State.vaultsTested_rules (s : State) (failed : List Nat) (listed : List HistoryUnit) :
    (s.vaultsTested failed listed).rules = s.rules := by
  simp [State.vaultsTested, State.rules_foldl]

theorem State.defects_rules_of_eq {s t : State} (h : t.rules = s.rules) : t.defects.rules = s.defects.rules :=
  congrArg (fun r => r.2.2.2.2.2.2.1) h

/-! ### Vaults of the loft -/

/-- S6 with the vaults mapped as in `t`, its map small enough. -/
theorem State.vaultsMapped_rules {s t : State} (short degraded : Bool) (elapsed : Nat) (h : t.rules = s.rules) :
    (({ t with defects := { t.defects with generation := 0, vaultsChanging := [], wasAway := [], unmapped := [], s6Short := short } } :
      State).stageEnds 6
      degraded elapsed (t.stageDetail 6)).rules = s.rules := by
  rw [State.stageEnds_rules, ← h]
  exact State.rules_defects t rfl

/-- S6 with the vaults mapped as in `t`, its map too large. -/
theorem State.vaultsUnmapped_rules {s t : State} (short : Bool) (elapsed : Nat) (h : t.rules = s.rules) :
    (({ s with defects := { t.defects with generation := 0, vaultsChanging := [], wasAway := [], unmapped := [], s6Short := short } } :
      State).stageFails 6
      Codes.loftLost elapsed (t.stageDetail 6)).rules = s.rules := by
  rw [State.stageFails_rules]
  exact State.rules_defects s (State.defects_rules_of_eq h)

/-! ### Bring-up -/

@[simp] theorem State.s6_rules (s : State) (failed : List Nat) (elapsed : Nat) : (s.s6 failed elapsed).rules = s.rules := by
  have tested := s.vaultsTested_rules failed s.recentHistory
  have kept := (s.vaultsTested failed s.recentHistory).mapVaults_rules
  unfold State.s6
  refine State.rules_ite ?_ ?_
  · exact (State.vaultsMapped_rules _ _ _ kept).trans tested
  · exact (State.vaultsUnmapped_rules _ _ kept).trans tested

@[simp] theorem State.s8_rules (s : State) (loopbackOk light : List Nat) :
    (s.s8 loopbackOk light).rules = s.rules := by
  simp [State.s8, State.rules_foldl, apply_ite State.rules]

/-! ### The dictionary's server -/

@[simp] theorem State.mapView_rules (s : State) : (s.mapView).rules = s.rules := by simp [State.mapView, State.rules_foldl]

@[simp] theorem State.mapPair_rules (s : State) (q : Nat) (f : QueuePair → QueuePair) : (s.mapPair q f).rules = s.rules := by simp [State.mapPair]

@[simp] theorem State.odpSend_rules (s : State) (m : OdpMsg) (r : OdpReply) : (s.odpSend m r).rules = s.rules := by simp [State.odpSend]

@[simp] theorem State.odpRefuse_rules (s : State) (m : OdpMsg) (e : Option OdpEntry) (code : Code) (why : Nat) :
    (s.odpRefuse m e code why).rules = s.rules := by
  simp [State.odpRefuse]

@[simp] theorem State.odpDone_rules (s : State) (m : OdpMsg) (index sub : Nat) : (s.odpDone m index sub).rules = s.rules := by simp [State.odpDone]

@[simp] theorem State.challenge_rules (s : State) (src : Source) : (s.challenge src).2.rules = s.rules := by simp [State.challenge]

@[simp] theorem State.snapRead_rules (s : State) (m : OdpMsg) (e : OdpEntry) : (s.snapRead m e).rules = s.rules := by
  unfold State.snapRead
  split <;> simp

@[simp] theorem State.stageFills_rules (s : State) (m : OdpMsg) : (s.stageFills m).rules = s.rules := by
  unfold State.stageFills
  dsimp only
  (repeat' split) <;> simp

@[simp] theorem State.sealCounted_rules (s : State) (n : Nat) : (s.sealCounted n).rules = s.rules := by simp [State.sealCounted]

@[simp] theorem State.reportSigned_rules (s : State) : (s.reportSigned).rules = s.rules := by
  unfold State.reportSigned
  dsimp only
  (repeat' split) <;> simp

@[simp] theorem State.imageWritten_rules (s : State) : (s.imageWritten).rules = s.rules := by
  unfold State.imageWritten
  split <;> simp

@[simp] theorem State.windowCloses_rules (s : State) (n : Nat) :
    (s.windowCloses n).rules = s.rules := by
  simp [State.windowCloses, State.rules_foldl, apply_ite State.rules]

@[simp] theorem State.pairResets_rules (s : State) (n : Nat) :
    (s.pairResets n).rules = s.rules := by
  simp [State.pairResets, State.rules_foldl, apply_ite State.rules]

/-! ### The host's ports -/

@[simp] theorem State.ethCount_rules (s : State) (n : Nat) : (s.ethCount n).rules = s.rules := by simp [State.ethCount]

@[simp] theorem State.rdmaSend_rules (s : State) (r : RdmaReply) : (s.rdmaSend r).rules = s.rules := by simp [State.rdmaSend]

@[simp] theorem State.rdmaNak_rules (s : State) (q psn kind : Nat) : (s.rdmaNak q psn kind).rules = s.rules := by
  unfold State.rdmaNak
  split <;> simp

@[simp] theorem State.rdmaNote_rules (s : State) (q : Nat) (code : Code) (window addr : Nat) :
    (s.rdmaNote q code window addr).rules = s.rules := by
  simp [State.rdmaNote]

@[simp] theorem State.rdmaArrival_rules (s : State) (q : Nat) (w : Window) : (s.rdmaArrival q w).2.rules = s.rules := by
  unfold State.rdmaArrival
  dsimp only
  (repeat' split) <;> simp

@[simp] theorem State.rdmaWriteLines_rules (s : State) (q : Nat) (j : RdmaJob) (data : List Byte) (t : List LineTrouble) :
    (s.rdmaWriteLines q j data t).2.rules = s.rules :=
  State.rules_foldl_snd _ _ fun t k => by dsimp only; split <;> simp

@[simp] theorem State.rdmaReadLines_rules (s : State) (j : RdmaJob) (lines : Nat) (t : List LineTrouble) :
    (s.rdmaReadLines j lines t).2.rules = s.rules :=
  State.rules_foldl_snd _ _ fun t k => by simp

@[simp] theorem State.rdmaResponses_rules (fuel : Nat) (s : State) (first : Bool) (q window psn addr : Nat) (lines : List (List Byte × Code)) :
    (State.rdmaResponses fuel s first q window psn addr lines).rules = s.rules := by
  induction fuel generalizing s first psn addr lines with
  | zero => rfl
  | succ fuel ih =>
    unfold State.rdmaResponses
    dsimp only
    (repeat' split) <;> simp [ih]

@[simp] theorem State.rdmaAnswer_rules (s : State) (q : Nat) (j : RdmaJob) (t : List LineTrouble) : (s.rdmaAnswer q j t).rules = s.rules := by
  unfold State.rdmaAnswer
  dsimp only
  (repeat' split) <;> simp

@[simp] theorem State.rdmaHeadEnds_rules (s : State) (q : Nat) (t : List LineTrouble) : (s.rdmaHeadEnds q t).rules = s.rules := by
  unfold State.rdmaHeadEnds
  dsimp only
  (repeat' split) <;> simp

@[simp] theorem State.rdmaSettle_rules (fuel : Nat) (s : State) (q : Nat) : (State.rdmaSettle fuel s q).rules = s.rules := by
  induction fuel generalizing s with
  | zero => rfl
  | succ fuel ih =>
    unfold State.rdmaSettle
    (repeat' split) <;> simp [ih]

@[simp] theorem State.rdmaQueue_rules (s : State) (q : Nat) (j : RdmaJob) : (s.rdmaQueue q j).rules = s.rules := by simp [State.rdmaQueue]

@[simp] theorem State.rdmaLines_rules (s : State) (q : Nat) (t : List LineTrouble) : (s.rdmaLines q t).rules = s.rules := by simp [State.rdmaLines]

@[simp] theorem State.rdmaFault_rules (s : State) (pkt : RdmaPkt) (kind : Nat) (code : Code) (rkey addr : Nat) :
    (s.rdmaFault pkt kind code rkey addr).rules = s.rules := by
  simp [State.rdmaFault]

@[simp] theorem State.rdmaCheck_rules (s : State) (n kind addr len : Nat) : (s.rdmaCheck n kind addr len).2.rules = s.rules := by
  unfold State.rdmaCheck
  dsimp only
  (repeat' split) <;> simp

@[simp] theorem State.rdmaTake_rules (s : State) (pkt : RdmaPkt) (kind : RdmaKind) (again : Bool) : (s.rdmaTake pkt kind again).rules = s.rules := by
  unfold State.rdmaTake
  grind [State.rdmaQueue_rules, State.rdmaCheck_rules, State.mapPair_rules, State.rdmaFault_rules, State.rules_mk]

@[simp] theorem State.rdmaMarked_rules (s : State) (q : Nat) (ce : Bool) : (s.rdmaMarked q ce).rules = s.rules := by
  unfold State.rdmaMarked
  dsimp only
  (repeat' split) <;> simp

@[simp] theorem State.rdmaPlace_rules (s : State) (pkt : RdmaPkt) (kind : RdmaKind) : (s.rdmaPlace pkt kind).rules = s.rules := by
  unfold State.rdmaPlace
  dsimp only
  (repeat' split) <;> simp

@[simp] theorem State.rdmaPacket_rules (s : State) (pkt : RdmaPkt) (kind : RdmaKind) : (s.rdmaPacket pkt kind).rules = s.rules := by
  unfold State.rdmaPacket
  split <;> simp

@[simp] theorem State.rdmaArrives_rules (s : State) (pkt : RdmaPkt) (kind : RdmaKind) : (s.rdmaArrives pkt kind).rules = s.rules := by
  unfold State.rdmaArrives
  split <;> simp

@[simp] theorem State.roceOther_rules (s : State) (b : List Byte) (ce : Bool) : (s.roceOther b ce).rules = s.rules := by
  unfold State.roceOther
  dsimp only
  (repeat' split) <;> simp

@[simp] theorem State.ethAnswer_rules (s : State) (f : EthFrame) : (s.ethAnswer f).rules = s.rules := by simp [State.ethAnswer]

@[simp] theorem State.odpShort_rules (s : State) (f : EthFrame) : (s.odpShort f).rules = s.rules := by
  unfold State.odpShort
  split <;> simp

@[simp] theorem State.datagram_rules (s : State) (f : EthFrame) : (s.datagram f).rules = s.rules := by
  unfold State.datagram
  dsimp only
  (repeat' split) <;> simp

@[simp] theorem State.hostFrame_rules (s : State) (f : EthFrame) :
    (s.hostFrame f).rules = s.rules := by
  simp [State.hostFrame, apply_ite State.rules]

@[simp] theorem State.fieldFrame_rules (s : State) (f : EthFrame) : (s.fieldFrame f).rules = s.rules := by
  unfold State.fieldFrame
  dsimp only
  (repeat' split) <;> simp

/-! ### Relend requests served -/

@[simp] theorem State.dictionaryRead_rules (s : State) (f : Frame) : (s.dictionaryRead f).rules = s.rules := by
  unfold State.dictionaryRead
  split <;> simp

@[simp] theorem State.inbound_rules (s : State) (p kind : Nat) : (s.inbound p kind).rules = s.rules := by
  unfold State.inbound
  split
  · rfl
  · next h => have := State.heldKind_rules h; split <;> simpa

@[simp] theorem State.respond_rules (s : State) (g : Nat) (i : Inbound) (status : Code) (data : Payload) :
    (s.respond g i status data).rules = s.rules := by
  unfold State.respond
  dsimp only
  (repeat' split) <;> simp

@[simp] theorem State.serveEnds_rules (s : State) (g : Nat) : (s.serveEnds g).rules = s.rules := by
  unfold State.serveEnds
  grind [State.respond_rules, State.rules_mk]

/-! ### Cycles of a cell -/

@[simp] theorem State.cycle_rules (s : State) (c : Coord) : (s.cycle c).rules = s.rules := by
  unfold State.cycle
  split <;> simp

@[simp] theorem State.issueCycle_rules (s : State) (c : Coord) (cls op : Nat) : (s.issueCycle c cls op).rules = s.rules := by
  unfold State.issueCycle
  dsimp only
  (repeat' split) <;> simp

@[simp] theorem State.portGrant_rules (s : State) (c : Coord) : (s.portGrant c).rules = s.rules := by
  unfold State.portGrant
  dsimp only
  (repeat' split) <;> simp
end Sys2Proof.Machine
end

section
/-!
SUPPORT. Operations in which time passes: the engine comes to a moment, and what happens then keeps the settings.
-/
namespace Sys2Proof.Machine
/-- What keeps all of it follows. -/
theorem State.Follows.keep {z s t : State} (h : z.Follows s) (e : t.rules = s.rules) : z.Follows t := by
  simp only [State.rules, Prod.mk.injEq] at e
  obtain ⟨hp, hq, hc, hw, ho, hr, hd, hk, hf⟩ := e
  exact h.same hp hq hc hw ho hr hd hk hf

/-- So does the same state at a later time. -/
theorem State.Follows.late {z s : State} (h : z.Follows s) {t : Nat} (n : s.clock ≤ t) : z.Follows { s with clock := t } :=
  h.trans ⟨rfl, rfl, n, Nat.le_refl _, fun l => ⟨l.cap, l.limits, l.timers, l.marks, l.room, l.relend, l.defects, l.spread, l.keys⟩⟩

@[simp] theorem State.agePass_clock (s : State) (d : Nat) : (s.agePass d).clock = s.clock := congrArg (fun e => e.2.2.1) (State.agePass_rules s d)

theorem State.Follows.advanceTo {z s : State} (h : z.Follows s) (t : Nat) : z.Follows (s.advanceTo t) := by
  have k : z.Follows { s.agePass (t - s.clock) with clock := max s.clock t } :=
    (h.keep (State.agePass_rules s (t - s.clock))).late (by simp)
  exact k.keep rfl

theorem State.linkDown_follows {z s : State} (h : z.Follows s) (p : Nat) : z.Follows (s.linkDown p) := by
  fun_cases State.linkDown
  next => exact (h.advanceTo _).keep (State.linkGivesUp_rules ..)
  next => exact h.keep (State.mapPort_rules ..)
  next => exact h

theorem State.ageExpiry_follows {z s : State} (h : z.Follows s) (c : Coord) (port lane : Nat) : z.Follows (s.ageExpiry c port lane) := by
  fun_cases State.ageExpiry
  · exact h
  · exact h.keep (by simp)
  · exact h.advanceTo _

theorem State.oldClear_follows {z s : State} (h : z.Follows s) : z.Follows s.oldClear := by
  fun_cases State.oldClear
  · exact (h.advanceTo _).keep (by simp +zetaDelta; rfl)
  · exact h

theorem State.resendExpiry_follows {z s : State} (h : z.Follows s) (c : Coord) (req tag : Nat) : z.Follows (s.resendExpiry c req tag) := by
  fun_cases State.resendExpiry
  all_goals first
    | exact h
    | exact (h.advanceTo _).keep (by simp +zetaDelta; rfl)

theorem State.restEnd_follows {z s : State} (h : z.Follows s) (c : Coord) (req tag : Nat) : z.Follows (s.restEnd c req tag) := by
  fun_cases State.restEnd
  all_goals first
    | exact h
    | exact (h.advanceTo _).keep (by simp +zetaDelta; rfl)

theorem State.tagResend_rules_of {s u : State} {p t : Nat} {x : TagUse} {r : Option Code} (e : s.tagResend p t x = (r, u)) : u.rules = s.rules := by
  have k := State.tagResend_rules s p t x
  rwa [e] at k

theorem State.attemptExpires_follows {z s : State} (h : z.Follows s) (p t : Nat) : z.Follows (s.attemptExpires p t) := by
  fun_cases State.attemptExpires
  next => exact h
  next => exact h
  next => exact (h.advanceTo _).keep (by simp; rfl)
  next r e => exact (h.advanceTo _).keep (State.tagResend_rules_of e)
  next r e => exact (h.advanceTo _).keep ((State.requestEnds_rules ..).trans (State.tagResend_rules_of e))

theorem State.completionExpires_follows {z s : State} (h : z.Follows s) (p t : Nat) : z.Follows (s.completionExpires p t) := by
  fun_cases State.completionExpires
  all_goals first
    | exact h
    | exact (h.advanceTo _).keep (by simp +zetaDelta; rfl)

theorem State.tagRested_follows {z s : State} (h : z.Follows s) (p t : Nat) : z.Follows (s.tagRested p t) := by
  fun_cases State.tagRested
  all_goals first
    | exact h
    | exact (h.advanceTo _).keep (by simp +zetaDelta; rfl)

theorem State.tell_follows {z s : State} (h : z.Follows s) (g : Nat) : z.Follows (s.tell g) := by
  fun_cases State.tell
  all_goals first
    | exact h
    | exact (h.advanceTo _).keep (by simp +zetaDelta; rfl)

theorem State.pollDue_follows {z s : State} (h : z.Follows s) (g slot : Nat) : z.Follows (s.pollDue g slot) := by
  fun_cases State.pollDue
  all_goals first
    | exact h
    | exact (h.advanceTo _).keep (by simp +zetaDelta; rfl)

theorem State.relockFails_follows {z s : State} (h : z.Follows s) (f : Nat) : z.Follows (s.relockFails f) := by
  fun_cases State.relockFails
  all_goals first
    | exact h
    | exact (h.advanceTo _).keep (by simp +zetaDelta; rfl)

@[simp] theorem HalfClock.seen_rules (h : HalfClock) (now : Nat) : (h.seen now).rules = h.rules := rfl
@[simp] theorem HalfClock.gateEnds_rules (h : HalfClock) (now : Nat) : (h.gateEnds now).rules = h.rules := rfl

theorem State.rampEnds_follows {z s : State} (h : z.Follows s) (east : Bool) : z.Follows (s.rampEnds east) := by
  fun_cases State.rampEnds
  · exact h.keep (by simp)
  · refine (h.advanceTo _).keep (((State.bankEnds_rules _).trans (State.rampDone_rules ..)).trans (State.mapRoots_rules _ _ fun c => ?_))
    rfl

theorem State.sweepTransfer_follows {z s t : State} (h : z.Follows s) {f : Nat} {silent : List Coord} {x : Transfer}
   (e : s.sweepTransfer f silent = some (x, t)) : z.Follows t := by
  have k := h.advanceTo (s.clock + 4)
  unfold State.sweepTransfer at e
  dsimp only at e
  (repeat' split at e) <;> cases e
  · exact k.keep (by simp)
  · exact k.keep (by simp [State.rules_foldl])
  · exact k.keep (by simp)

theorem State.statusSweep_follows {z s : State} (h : z.Follows s) (f : Nat) (silent : List Coord) : z.Follows (s.statusSweep f silent) := by
  fun_cases State.statusSweep
  next => exact h
  next e _ _ _ => exact (State.sweepTransfer_follows h e).keep (by simp)
  next e _ _ => exact State.sweepTransfer_follows h e

theorem State.arriveResend_follows {z s : State} (h : z.Follows s) (m : Nat) : z.Follows (s.arriveResend m) := by
  fun_cases State.arriveResend
  all_goals first
    | exact h
    | exact (h.advanceTo _).keep (by simp +zetaDelta; rfl)

theorem State.ringDeadline_follows {z s : State} (h : z.Follows s) (k : Nat) : z.Follows (s.ringDeadline k) := by
  fun_cases State.ringDeadline
  all_goals first
    | exact h
    | exact (h.advanceTo _).keep (by simp +zetaDelta; rfl)

theorem State.stageCome_follows {z s : State} (h : z.Follows s) (n elapsed : Nat) {act : State → State} {late : State → Nat}
  (k : ∀ t, z.Follows t → z.Follows (act t)) : z.Follows (s.stageCome n elapsed act late) := by
  fun_cases State.stageCome
  all_goals first
    | exact h
    | exact (h.advanceTo _).keep (by simp +zetaDelta; rfl)
    | exact k _ (h.advanceTo _)

theorem State.gateDone_follows {z s : State} (h : z.Follows s) (counts : List (Nat × Nat)) : z.Follows (s.gateDone counts) := by
  refine (h.advanceTo (s.clk.gateAt + 1000)).keep ?_
  unfold State.gateDone
  exact State.rules_mk rfl rfl rfl rfl rfl rfl

theorem State.tripTime_follows {z s : State} (h : z.Follows s) (p : Nat) (cause : TripCause) : z.Follows (s.tripTime p cause) := by
  fun_cases State.tripTime
  · exact h.advanceTo _
  · exact h

theorem State.trip_follows {z s : State} (h : z.Follows s) (p : Nat) (cause : TripCause) : z.Follows (s.trip p cause) := by
  have k := State.tripTime_follows h p cause
  fun_cases State.trip
  next => exact h
  next => exact k.keep ((State.paddockOff_rules ..).trans ((State.rules_defects (State.mapPaddock ..) rfl).trans ((State.mapPaddock_rules ..).trans (State.hubNote_rules ..))))

theorem State.thermalSteps_follows {z s : State} (h : z.Follows s) : z.Follows s.thermalSteps := by
  fun_cases State.thermalSteps
  · exact h
  · exact (h.advanceTo _).keep (State.rules_foldl _ _ fun t e => by simp)

/-- A port that still trains at the end of S8 is DOWN. -/
theorem State.trainingOver_rules (s : State) (l : List Nat) :
    (l.foldl (fun (s : State) p =>
      match (s.port p).mode with
      | .training => s.mapPort p fun x => x.drop .down
      | _ => s) s).rules = s.rules := State.rules_foldl _ _ fun t e => by split <;> simp

theorem State.s8Ends_follows {z s : State} (h : z.Follows s) (left : Nat) : z.Follows (s.s8Ends left) := by
  have e := State.trainingOver_rules (s.advanceTo (left + 500000)) (List.range 64)
  refine (h.advanceTo (left + 500000)).keep ?_
  unfold State.s8Ends
  generalize List.range 64 = l at e ⊢
  dsimp only
  refine (State.rules_mk rfl rfl rfl rfl rfl ?_).trans ((State.stageReports_rules ..).trans e)
  rfl

theorem State.tick_follows {z s : State} (h : z.Follows s) : z.Follows s.tick := (h.advanceTo _).keep rfl
end Sys2Proof.Machine
end

section
/-!
SUPPORT. Sessions and starts: a fresh state has the defaults, and keys and counters stay in flash.
-/
namespace Sys2Proof.Machine
/-- The settings of a fresh state are the defaults; what flash holds is what it was given. -/
theorem State.fresh_legal {part : Part} {flash : FlashState} {board : MeterBoard} {history : List (Nat × HistoryUnit)} {clock freeIdx : Nat}
    {pending : List Instr} (k : flash.vendorKeyMin ≤ 3 ∧ (flash.ownerRequired = true → flash.keys ≠ [])) :
    (State.fresh part flash board history clock freeIdx pending).Legal where
  cap := by cases part <;> simp [State.fresh, PowerState.zero, Part.cap, Part.highest]
  limits := by simp [State.fresh, PowerState.zero]
  timers := by simp only [State.fresh]; decide
  marks := by simp only [State.fresh]; decide
  room := by simp [State.fresh, OdpState.reset]
  relend := by simp [State.fresh, RelendState.reset]
  defects := by simp [State.fresh, DefectState.reset]
  spread := by simp [State.fresh, ClockState.zero, HalfClock.zero]
  keys := k

theorem State.flashLeft_rules (s : State) : s.flashLeft.rules = s.flash.rules := by
  unfold State.flashLeft
  split <;> rfl

theorem State.Follows.blank {z s : State} (h : z.Follows s) : z.Follows s.blank := by
  have e := State.flashLeft_rules s
  simp only [FlashState.rules, Prod.mk.injEq] at e
  obtain ⟨keys, owner, vendor⟩ := e
  refine h.trans ⟨rfl, rfl, Nat.le_refl _, vendor.ge, fun l => State.fresh_legal ?_⟩
  rw [keys, owner, vendor]
  exact l.keys

theorem State.sessionOver_follows {z s : State} (h : z.Follows s) (powered refLost : Bool) : z.Follows (s.sessionOver powered refLost) :=
  h.blank.keep rfl

theorem State.again_follows {z s : State} (h : z.Follows s) : z.Follows s.again := h.blank.keep rfl

theorem State.coldStart_follows {z s : State} (h : z.Follows s) : z.Follows s.coldStart :=
  (State.again_follows h).keep ((State.stageBegins_rules ..).trans (State.resumeTime_rules _))

theorem State.minimalMode_follows {z s : State} (h : z.Follows s) : z.Follows s.minimalMode := (State.again_follows h).keep rfl

theorem State.refclkThere_follows {z s : State} (h : z.Follows s) : z.Follows s.refclkThere := by
  fun_cases State.refclkThere
  next => exact h
  next => exact State.minimalMode_follows (h.keep (by simp +zetaDelta [apply_ite State.rules]))
  next => exact h.keep (by simp +zetaDelta [apply_ite State.rules])

theorem State.powerLost_follows {z s : State} (h : z.Follows s) : z.Follows s.powerLost := by
  fun_cases State.powerLost
  next => exact h
  next => exact State.sessionOver_follows h _ _
  next => exact State.sessionOver_follows (h.keep (by simp)) _ _

theorem State.startFails_follows {z s : State} (h : z.Follows s) : z.Follows s.startFails := by
  fun_cases State.startFails
  next => exact h
  next => exact h
  next n _ _ code t _ _ =>
    have k : z.Follows t := h.keep rfl
    refine State.Follows.keep (s := if 3 ≤ t.flash.failedStarts then (t.note recFault Codes.startLimit 0 noPlace []).minimalMode else t.coldStart) ?_ rfl
    split
    · exact State.minimalMode_follows (k.keep (by simp))
    · exact State.coldStart_follows k

end Sys2Proof.Machine
end

section
/-!
SUPPORT. Settings that are written: whatever a write brings, the settings stay legal.
-/
namespace Sys2Proof.Machine
variable {z s : State}

/-! ### Power and clocks -/

theorem State.writeCap_follows (h : z.Follows s) (sub v : Nat) : (s.writeCap sub v).Follows z := by
  fun_cases State.writeCap
  all_goals
    refine State.ranged_follows h fun e => h.power fun l => ?_
    have ⟨c1, c2, c3, c4, c5, c6, c7, c8, c9⟩ := l.cap
    have e := of_decide_eq_true e
    exact { l with cap := by simp [*] }

theorem State.writeLimits_follows (h : z.Follows s) (index sub v : Nat) : (s.writeLimits index sub v).Follows z := by
  fun_cases State.writeLimits
  next =>
    refine State.ranged_follows h fun e => h.power fun l => ?_
    have ⟨w0, w1, e0, e1, rest⟩ := l.limits
    obtain ⟨v0, v1⟩ := of_decide_eq_true e
    split
    · exact { l with cap := l.cap, limits := ⟨v0, v1, e0, e1, rest⟩ }
    · exact { l with cap := l.cap, limits := ⟨w0, w1, v0, v1, rest⟩ }
  all_goals
    refine State.ranged_follows h fun e => h.power fun l => ?_
    have ⟨w0, w1, e0, e1, t0, t1, d, k0, k1⟩ := l.limits
    have e := of_decide_eq_true e
    exact { l with cap := l.cap, limits := by simp [*] }

theorem State.writeCoeff_follows (h : z.Follows s) (sub v : Nat) : (s.writeCoeff sub v).Follows z :=
  State.ranged_follows h fun _ => h.keep rfl

theorem State.writeLeak_follows (h : z.Follows s) (b : List Byte) : (s.writeLeak b).Follows z :=
  State.ranged_follows h fun _ => h.keep rfl

/-- A half's roots change, its spread settings within their range. -/
theorem State.mapRoots_follows (h : z.Follows s) (east : Bool) {f : HalfClock → HalfClock}
    (k : ∀ c : HalfClock, c.depth ≤ 10 ∧ 300 ≤ c.rate ∧ c.rate ≤ 330 → (f c).depth ≤ 10 ∧ 300 ≤ (f c).rate ∧ (f c).rate ≤ 330) :
    z.Follows (s.mapRoots east f) := by
  have legal : s.Legal → (s.mapRoots east f).Legal := fun l => by
    obtain ⟨wd, ed, w0, w1, e0, e1⟩ := l.spread
    obtain ⟨wd', w0', w1'⟩ := k s.clk.west ⟨wd, w0, w1⟩
    obtain ⟨ed', e0', e1'⟩ := k s.clk.east ⟨ed, e0, e1⟩
    cases east
    · exact { l with spread := ⟨wd', ed, w0', w1', e0, e1⟩ }
    · exact { l with spread := ⟨wd, ed', w0, w1, e0', e1'⟩ }
  cases east <;> exact h.trans ⟨rfl, rfl, Nat.le_refl _, Nat.le_refl _, legal⟩

theorem State.writeSpread_follows (h : z.Follows s) (sub v : Nat) : (s.writeSpread sub v).Follows z := by
  fun_cases State.writeSpread
  next => exact State.deny_follows h
  next =>
    refine State.ranged_follows h fun e => State.mapRoots_follows h _ fun c k => ?_
    exact ⟨of_decide_eq_true e, k.2⟩
  next =>
    refine State.ranged_follows h fun e => State.mapRoots_follows h _ fun c k => ?_
    exact ⟨k.1, of_decide_eq_true e⟩

theorem State.writeFieldSource_follows (h : z.Follows s) (f v : Nat) : (s.writeFieldSource f v).Follows z := by
  fun_cases State.writeFieldSource
  next => exact State.deny_follows h
  next => exact State.deny_follows h
  next => exact Applied.refused_follows (h.keep (by simp))
  next => exact inForce_follows (h.keep (State.rules_foldl _ _ fun t k => by simp))

/-! ### Relend -/

theorem State.writeEngineId_follows (h : z.Follows s) (v : Nat) : (s.writeEngineId v).Follows z := by
  fun_cases State.writeEngineId
  next => exact State.deny_follows h
  next => exact State.deny_follows h
  next ok t =>
    have k : z.Follows t := h.links fun l => { l with relend := ⟨by simp; omega, l.relend.2⟩ }
    refine inForce_follows (k.keep ?_)
    simp [apply_ite State.rules]

theorem SMap.mem_set {α : Type} [DecidableEq α] {d v : α} {m : SMap α} {k : Nat} {e : Nat × α} (h : e ∈ m.set d k v) : e ∈ m ∨ e = (k, v) := by
  unfold SMap.set at h
  split at h
  · exact .inl (SMap.mem_erase h)
  · exact SMap.mem_insert h

/-- What a table holds that was filled by a fold. -/
theorem SMap.mem_fill {α : Type} [DecidableEq α] {d : α} {f : Nat → α} {l : List Nat} {m : SMap α} {e : Nat × α}
    (h : e ∈ l.foldl (fun m k => m.set d k (f k)) m) : e ∈ m ∨ ∃ k ∈ l, e = (k, f k) := by
  induction l generalizing m with
  | nil => exact .inl h
  | cons a l ih =>
    obtain old | ⟨k, hk, rfl⟩ := ih h
    · obtain old | rfl := SMap.mem_set old
      · exact .inl old
      · exact .inr ⟨a, by simp, rfl⟩
    · exact .inr ⟨k, by simp [hk], rfl⟩

theorem State.writeRoutes_follows (h : z.Follows s) {b : List Byte} {a : Applied} (e : s.writeRoutes b = a) : a.Follows z := by
  subst e
  unfold State.writeRoutes
  generalize List.range 4096 = l
  refine State.ranged_follows h fun ok => h.links fun l => { l with relend := ⟨l.relend.1, l.relend.2.1, fun e he => ?_⟩ }
  obtain none | ⟨k, hk, rfl⟩ := SMap.mem_fill he
  · cases none
  · have value : (BitVec.ofNat 32 (numAt b (4 * k) 4)).toNat = numAt b (4 * k) 4 := Nat.mod_eq_of_lt (numAt_lt ..)
    exact value ▸ List.all_eq_true.mp ok k hk

theorem State.writePaceGroup_follows (h : z.Follows s) (b : List Byte) : (s.writePaceGroup b).Follows z := by
  refine State.ranged_follows h fun ok => h.links fun l => { l with relend := ⟨l.relend.1, fun e he => ?_, l.relend.2.2⟩ }
  exact of_decide_eq_true (List.all_eq_true.mp ok e he)

theorem State.writeWindow_follows (h : z.Follows s) (n : Nat) (b : List Byte) : (s.writeWindow n b).Follows z := by
  fun_cases State.writeWindow
  next => exact State.deny_follows h
  next => exact inForce_follows (h.keep (by simp))

theorem State.windowCommand_follows (h : z.Follows s) (m : OdpMsg) (v : Nat) : (s.windowCommand m v).Follows z := by
  unfold State.windowCommand State.openWindow State.closeWindow
  dsimp only
  repeat' split
  all_goals first
    | exact State.deny_follows h
    | exact State.ranged_follows h fun _ => h.keep (by simp)
    | exact h
    | exact inForce_follows (h.keep (by simp))

/-! ### Recovery, defects and bring-up -/

theorem State.writeTimers_follows (h : z.Follows s) (sub v : Nat) : (s.writeTimers sub v).Follows z := by
  fun_cases State.writeTimers
  next => exact State.deny_follows h
  next => exact State.deny_follows h
  next new _ ranges layered =>
    have same : new.marks = s.odp.marks ∧ new.stages = s.odp.stages ∧ new.snapshots = s.odp.snapshots ∧ new.sessions = s.odp.sessions := by
      show (s.odp.timers sub v).marks = _ ∧ (s.odp.timers sub v).stages = _ ∧ (s.odp.timers sub v).snapshots = _ ∧ (s.odp.timers sub v).sessions = _
      unfold OdpState.timers
      split <;> simp
    obtain ⟨marks, stages, snapshots, sessions⟩ := same
    refine inForce_follows (h.dictionary fun l => { l with timers := ?_, marks := marks ▸ l.marks, room := ?_ })
    · simp only [Bool.or_eq_true, decide_eq_true_eq, not_or, not_lt] at ranges
      obtain ⟨⟨r1, r2⟩, r3⟩ := ranges
      refine ⟨r1, r2, r3, ?_⟩
      simp only [OdpState.layered, Bool.and_eq_true] at layered
      simp [OdpState.layered, layered]
    · rw [stages, snapshots, sessions]
      exact l.room
  next => exact State.deny_follows h

theorem State.writeDefectLimit_follows (h : z.Follows s) (index sub v : Nat) : (s.writeDefectLimit index sub v).Follows z := by
  unfold State.writeDefectLimit
  refine State.ranged_follows h fun ok => h.faults fun l => ?_
  simp only [Bool.and_eq_true, decide_eq_true_eq] at ok
  obtain ⟨pos, le⟩ := ok
  obtain ⟨d1, d2, d3, d4, d5, d6⟩ := l.defects
  refine { l with defects := ?_ }
  split at le <;> simp_all

theorem State.writeFallow_follows (h : z.Follows s) (n v : Nat) : (s.writeFallow n v).Follows z :=
  State.ranged_follows h fun _ => h.keep rfl

theorem State.clearHistory_follows (h : z.Follows s) (v : Nat) : (s.clearHistory v).Follows z :=
  State.ranged_follows h fun _ => h.keep rfl

theorem State.writeRestart_follows (h : z.Follows s) (v : Nat) : (s.writeRestart v).Follows z := by
  fun_cases State.writeRestart
  next => exact State.deny_follows h
  next => exact State.deny_follows h
  next => exact inForce_follows (h.keep rfl)

theorem State.writeImage_follows (h : z.Follows s) (m : OdpMsg) (b : List Byte) : (s.writeImage m b).Follows z := by
  fun_cases State.writeImage
  next => exact State.deny_follows h
  next => exact Applied.refused_follows h
  next => exact Applied.later_follows (h.keep rfl)

/-! ### The host's ports -/

theorem State.writeAddress_follows {t : State} (h : z.Follows s) (k : z.Follows t) : (s.writeAddress t).Follows z := by
  fun_cases State.writeAddress
  · exact State.deny_follows h
  · exact inForce_follows k

theorem State.writePair_follows (h : z.Follows s) (m : OdpMsg) (n : Nat) (b : List Byte) : (s.writePair m n b).Follows z := by
  fun_cases State.writePair
  next => exact inForce_follows (h.keep (by simp))
  next => exact State.ranged_follows h fun _ => h.keep (by simp)
  next => exact State.deny_follows h
  next => exact State.deny_follows h
  next => exact inForce_follows (h.keep (by simp))
  next => exact Applied.later_follows (h.keep (by simp))

/-! ### Keys and sessions -/

theorem State.writeOperatorKey_follows (h : z.Follows s) (slot : Nat) (b : List Byte) : (s.writeOperatorKey slot b).Follows z :=
  inForce_follows (h.kept (Nat.le_refl _) fun l => { l with keys := ⟨l.keys.1, fun _ => SMap.put_ne_nil s.flash.keys slot b⟩ })

theorem State.clearKey_follows (h : z.Follows s) (slot v : Nat) : (s.clearKey slot v).Follows z := by
  fun_cases State.clearKey
  next => exact State.deny_follows h
  next => exact State.deny_follows h
  next keys _ kept =>
    have k : z.Follows { s with flash := { s.flash with keys } } := h.kept (Nat.le_refl _) fun l =>
      { l with keys := ⟨l.keys.1, fun owner none => kept (by simp_all)⟩ }
    exact inForce_follows (k.served (o := { s.odp with sessions := _ }) rfl rfl rfl rfl id id (Nat.le_trans (List.length_filter_le ..)))

theorem State.revokeVendor_follows (h : z.Follows s) (v : Nat) : (s.revokeVendor v).Follows z := by
  fun_cases State.revokeVendor
  next => exact State.deny_follows h
  next => exact State.deny_follows h
  next range _ =>
    push Not at range
    exact inForce_follows (h.kept range.1.le fun l => { l with keys := ⟨range.2, l.keys.2⟩ })

theorem State.writeOwner_follows (h : z.Follows s) (v : Nat) : (s.writeOwner v).Follows z := by
  fun_cases State.writeOwner
  next => exact State.deny_follows h
  next => exact State.deny_follows h
  next _ enrolled =>
    refine inForce_follows (h.kept (Nat.le_refl _) fun l => { l with keys := ⟨l.keys.1, fun owner none => enrolled ?_⟩ })
    exact ⟨of_decide_eq_true owner, by simpa [State.unenrolled] using none⟩

theorem State.openSession_follows (h : z.Follows s) (m : OdpMsg) (b : List Byte) : (s.openSession m b).Follows z := by
  fun_cases State.openSession
  next => exact State.deny_follows h
  next => exact State.deny_follows h
  next => exact Applied.refused_follows h
  next => exact State.deny_follows h
  next =>
    have k : z.Follows { s with freeIdx := s.freeIdx + 1 } := h.keep rfl
    refine Applied.done_follows (k.served rfl rfl rfl rfl id id fun _ => ?_)
    simp
    omega

theorem State.closeSession_follows (h : z.Follows s) (m : OdpMsg) (v : Nat) : (s.closeSession m v).Follows z :=
  State.ranged_follows h fun _ => h.served rfl rfl rfl rfl id id (Nat.le_trans (List.length_filter_le ..))

theorem State.writeNonce_follows (h : z.Follows s) (m : OdpMsg) (b : List Byte) : (s.writeNonce m b).Follows z :=
  Applied.later_follows (h.keep rfl)

/-! ### Queries and marks -/

theorem State.writeMarks_follows (h : z.Follows s) (v : Nat) : (s.writeMarks v).Follows z := by
  refine State.ranged_follows h fun ok => ?_
  have k : z.Follows { s with routers := s.routers.mapVals .reset fun _ r => r.throttle v } := h.keep rfl
  exact k.dictionary fun l => { l with marks := of_decide_eq_true ok }

theorem State.queryTally_follows (h : z.Follows s) (v : Nat) : (s.queryTally v).Follows z :=
  State.ranged_follows h fun _ => h.keep rfl

theorem State.writeFreeze_follows (h : z.Follows s) (v : Nat) : (s.writeFreeze v).Follows z := by
  fun_cases State.writeFreeze
  next => exact State.deny_follows h
  next => exact State.deny_follows h
  next => exact inForce_follows (h.keep (by simp))

/-! ### A value written through the dictionary (R431) -/

theorem State.applyNumber_follows (h : z.Follows s) (m : OdpMsg) (index sub v : Nat) : (s.applyNumber m index sub v).Follows z := by
  fun_cases State.applyNumber
  next => exact State.writeRestart_follows h ..
  next => exact State.writeSpread_follows h ..
  next => exact State.writeFieldSource_follows h ..
  next => exact State.writeCap_follows h ..
  iterate 3 next => exact State.writeLimits_follows h ..
  next => exact State.writeCoeff_follows h ..
  next => exact State.writeEngineId_follows h ..
  next => exact State.writeTimers_follows h ..
  next => exact State.windowCommand_follows h ..
  next => exact State.writeAddress_follows h (h.keep rfl)
  iterate 2 next => exact State.writeDefectLimit_follows h ..
  next => exact State.writeFallow_follows h ..
  next => exact State.clearHistory_follows h ..
  next => exact State.writeFreeze_follows h ..
  next => exact State.revokeVendor_follows h ..
  next => exact State.writeOwner_follows h ..
  next => exact State.closeSession_follows h ..
  next => exact State.clearKey_follows h ..
  next => exact inForce_follows (h.keep rfl)
  next => exact State.writeMarks_follows h ..
  next => exact State.queryTally_follows h ..
  next => exact State.deny_follows h

theorem State.applyDomain_follows (h : z.Follows s) (m : OdpMsg) (index sub : Nat) (b : List Byte) : (s.applyDomain m index sub b).Follows z := by
  unfold State.applyDomain
  split
  next => exact State.writeImage_follows h ..
  next => exact State.writeLeak_follows h b
  next =>
    generalize e : s.writeRoutes b = a
    exact State.writeRoutes_follows h e
  next => exact State.writePaceGroup_follows h ..
  next => exact State.writeAddress_follows h (h.keep rfl)
  next => exact State.writePair_follows h ..
  next => exact State.writeNonce_follows h ..
  next => exact State.openSession_follows h ..
  next => exact State.writeOperatorKey_follows h ..
  next =>
    split
    · exact State.writeWindow_follows h ..
    · exact State.deny_follows h

theorem State.applyValue_follows (h : z.Follows s) (m : OdpMsg) (index sub : Nat) (e : OdpEntry) (b : List Byte) :
    (s.applyValue m index sub e b).Follows z := by
  fun_cases State.applyValue
  · exact State.applyDomain_follows h ..
  · exact State.applyNumber_follows h ..

end Sys2Proof.Machine
end

section
/-!
SUPPORT. Requests of the object dictionary: stages, snapshots and sessions stay within their room.
-/
namespace Sys2Proof.Machine
variable {z s : State}

theorem Applied.answer_follows {a : Applied} (h : a.Follows z) (m : OdpMsg) (e : OdpEntry) : z.Follows (a.answer m e) := by
  cases a with
  | done t n => exact State.Follows.keep (s := t) h (by simp [Applied.answer])
  | refused t code why => exact State.Follows.keep (s := t) h (by simp [Applied.answer])
  | later t => exact h

/-- One more snapshot where there is room for it. -/
theorem State.snapshotAdded_follows {t : State} (h : z.Follows t) (room : t.odp.snapshots.length < 16) (x : Snapshot) (n : Nat) :
    z.Follows { t with freeIdx := n, odp := { t.odp with snapshots := t.odp.snapshots ++ [x] } } := by
  have k : z.Follows { t with freeIdx := n } := h.keep rfl
  refine k.served rfl rfl rfl rfl id (fun _ => ?_) id
  simp
  omega

theorem State.snapTake_follows (h : z.Follows s) (m : OdpMsg) (e : OdpEntry) : z.Follows (s.snapTake m e) := by
  unfold State.snapTake
  split
  next => exact h.keep (State.odpRefuse_rules ..)
  next room =>
    dsimp only
    split
    next =>
      refine (State.snapshotAdded_follows ?_ ?_ _ _).keep (State.odpSend_rules ..)
      · exact h.keep (State.challenge_rules ..)
      · simpa [State.challenge] using room
    next =>
      refine (State.snapshotAdded_follows (t := { s with freeIdx := s.freeIdx + readFree }) (h.keep rfl) ?_ _ _).keep (State.odpSend_rules ..)
      simpa using room

theorem State.odpRead_follows (h : z.Follows s) (m : OdpMsg) (e : OdpEntry) : z.Follows (s.odpRead m e) := by
  fun_cases State.odpRead
  all_goals first
    | exact h.keep (by simp)
    | exact h.keep (State.odpRefuse_rules ..)
    | exact State.snapTake_follows h ..

theorem State.odpWrite_follows (h : z.Follows s) (m : OdpMsg) (e : OdpEntry) : z.Follows (s.odpWrite m e) := by
  fun_cases State.odpWrite
  next => exact h.keep (State.odpRefuse_rules ..)
  next => exact h.keep (State.odpRefuse_rules ..)
  next => exact Applied.answer_follows (State.applyValue_follows h ..) ..

/-- One more stage where there is room for it. -/
theorem State.stageAdded_follows (h : z.Follows s) (room : s.odp.stages.length < 16) (x : Stage) (n : Nat) :
    z.Follows { s with freeIdx := n, odp := { s.odp with stages := s.odp.stages ++ [x] } } := by
  have k : z.Follows { s with freeIdx := n } := h.keep rfl
  refine k.served rfl rfl rfl rfl (fun _ => ?_) id id
  simp
  omega

theorem State.stageOpens_follows (h : z.Follows s) (m : OdpMsg) (e : OdpEntry) : z.Follows (s.stageOpens m e) := by
  fun_cases State.stageOpens
  iterate 4 next => exact h.keep (State.odpRefuse_rules ..)
  next room _ _ _ =>
    push Not at room
    exact (State.stageAdded_follows h room.1 _ _).keep (State.odpSend_rules ..)

theorem State.stageFreed_follows (h : z.Follows s) (n : Nat) : z.Follows (s.stageFreed n) :=
  h.served rfl rfl rfl rfl (Nat.le_trans (List.length_filter_le ..)) id id

theorem State.stageCancels_follows (h : z.Follows s) (m : OdpMsg) : z.Follows (s.stageCancels m) := by
  fun_cases State.stageCancels
  next => exact h.keep (by simp)
  next => exact (State.stageFreed_follows h m.handle).keep (by simp)

theorem State.sealCounted_follows (h : z.Follows s) (n : Nat) : z.Follows (s.sealCounted n) :=
  h.served rfl rfl rfl rfl id id (by simp)

theorem State.commitSealed_follows (h : z.Follows s) (m : OdpMsg) (x : Stage) (e : OdpEntry) (b : List Byte) : z.Follows (s.commitSealed m x e b) := by
  fun_cases State.commitSealed
  next => exact Applied.answer_follows (State.applyValue_follows h ..) ..
  next => exact h.keep (by simp)
  next => exact h.keep (by simp)
  next => exact h.keep (by simp)
  next => exact h.keep (by simp)
  next => exact Applied.answer_follows (State.applyValue_follows (State.sealCounted_follows h _) ..) ..

theorem State.stageCommits_follows (h : z.Follows s) (m : OdpMsg) : z.Follows (s.stageCommits m) := by
  have k := State.stageFreed_follows h m.handle
  fun_cases State.stageCommits
  next => exact h.keep (State.odpRefuse_rules ..)
  next => exact k.keep (State.odpRefuse_rules ..)
  next => exact k.keep (State.odpRefuse_rules ..)
  next => exact State.commitSealed_follows k ..
  next => exact Applied.answer_follows (State.applyValue_follows k ..) ..

theorem State.odpAct_follows (h : z.Follows s) (m : OdpMsg) : z.Follows (s.odpAct m) := by
  unfold State.odpAct
  dsimp only
  (repeat' split)
  all_goals first
    | exact h.keep (by simp)
    | exact State.odpRead_follows h ..
    | exact State.odpWrite_follows h ..
    | exact State.stageOpens_follows h ..
    | exact State.stageCommits_follows h ..
    | exact State.stageCancels_follows h ..

theorem State.pruned_follows (h : z.Follows s) (now : Nat) : z.Follows { s with odp := s.odp.prune now } :=
  h.served rfl rfl rfl rfl (Nat.le_trans (List.length_filter_le ..)) (Nat.le_trans (List.length_filter_le ..)) (Nat.le_trans (List.length_filter_le ..))

theorem State.remembered_follows (h : z.Follows s) (m : OdpMsg) : z.Follows { s with odp := s.odp.remember m } := h.keep rfl

theorem State.odpRequest_follows (h : z.Follows s) (m : OdpMsg) : z.Follows (s.odpRequest m) := by
  have k := State.pruned_follows h s.clock
  fun_cases State.odpRequest
  next => exact h
  next => exact k.keep rfl
  next => exact k.keep rfl
  next => exact k
  next => exact State.odpAct_follows (State.remembered_follows k m) m

theorem State.odpOp_follows (h : z.Follows s) (m : OdpMsg) (test : Bool) : z.Follows (s.odpOp m test) := by
  fun_cases State.odpOp
  · exact State.odpRequest_follows h m
  · exact h

theorem State.odpWriteOf_follows (h : z.Follows s) (m : OdpMsg) (test : Nat → Nat → Nat → Bool) : z.Follows (s.odpWriteOf m test) := by
  fun_cases State.odpWriteOf
  · exact State.odpRequest_follows h m
  · exact h
  · exact h

theorem State.odpDue_follows (h : z.Follows s) (t : Option Nat) : z.Follows (s.odpDue t) := by
  fun_cases State.odpDue
  · exact State.pruned_follows (h.advanceTo _) _
  · exact h

end Sys2Proof.Machine
end

section
/-!
Settles O59 and O60: whatever a command makes of a state follows from it.
-/
namespace Sys2Proof.Machine
variable {z s : State}

theorem State.orSame_map_rules {α : Type} {s : State} {o : Option α} {f : α → State} (h : ∀ x, (f x).rules = s.rules) :
    (s.orSame (o.map f)).rules = s.rules := by
  cases o with
  | none => rfl
  | some x => exact h x

theorem State.overrunDetail_rules_of {s t : State} {n d : Nat} (e : s.overrunDetail n = (d, t)) : t.rules = s.rules := by
  have k := State.overrunDetail_rules s n
  rwa [e] at k

/-- Where an answer is a next state, it follows. -/
def Answer.Follows (z : State) (a : Answer) : Prop := ∀ t, a = .next t → z.Follows t

theorem next_follows {t : State} (h : z.Follows t) : Answer.Follows z (.next t) := fun _ e => Host.Outcome.next.inj e ▸ h

theorem answerIf_follows {ok : Bool} {t : State} (h : z.Follows t) : Answer.Follows z (answerIf ok t) := by
  unfold answerIf
  split
  · exact next_follows h
  · exact fun _ e => by cases e

theorem atCell_follows {c : Coord} {t : State} (h : z.Follows t) : Answer.Follows z (atCell c t) := answerIf_follows h

/-- Whatever a command makes of a state follows from it. -/
theorem exec_follows (i : Instr) (s : State) : Answer.Follows s (exec i s) := by
  have h := State.Follows.refl s
  cases i with
  | sequencerCycle | iterationCommit | seqWriteSlotGrant | scratchpadBankGrant | meshPortAccess | creditReturn | switchGrantCycle | cellCheckDone |
    flockDownArrival | redArrival | ackArrival | nackArrival | replyArrival | multiReplyArrival | fanoutArrival | dropArrival =>
    exact atCell_follows (h.keep (by simp))
  | nop | fence | predPop | predSet | agReset | musterEnter | copy | convert | zero | mac | accOut | accSpill | accFill | anchorSet | vectorAdd |
    vectorSub | vectorMul | vectorMax | vectorMin | vectorAnd | vectorOr | vectorXor | cmpLt | cmpEq | exp2 | exp | log2 | log | recip | sqrt | rsqrt
    | tanh | sigmoid | sin | cos | sort | topk | lookup | cas32 | cas64 | fadd32 | fadd64 | ccount | dmaIssue | put | get | tallyAdd | flockPut |
    redPut | tallyClassAdd | cmpClear =>
    exact atCell_follows (h.keep (State.issueCycle_rules ..))
  | sheepdog =>
    exact atCell_follows (by
      dsimp only
      split
      · exact (h.advanceTo _).keep (State.event_rules ..)
      · exact h)
  | stepStartRelease | sweepWindowClose | stepEndCompletion | abortingComplete | dmaChannelsIdle | peerFixupRewrite | peerReleaseFree | epochInstall |
    epochConfirm | mgmtImageFlashDone | paddocksSettled | attestReportSigned =>
    exact next_follows (h.keep (by simp))
  | tokenArrival | steerTimeout | musterNodeArrival | musterReleaseAtCell | hubFaultReport | broadcastTransfer | packetHop | redCombine |
    epochFlipTrigger | dmaDescriptorStart | dmaLineReadDone | dmaDescriptorComplete | vaultRequestAccept | vaultLineComplete | loftScrub | vaultLost |
    spareWriteDone | streamRecordPut | streamPoll | linkUnitReceive | portTrainingDone | laneFailure | laneSwap | frameTransit | relendRead |
    relendWrite | relendInc | relendServeComplete | tagAvailable | musterArrive | musterRelease | pace | collectiveGatherRelease | phase1Record |
    phase2Record | ringArrivalPost | hubHeartbeat | nodeLost | lockDrop | sourceSwitchDone | droopDetect | stretchEnd | temperatureScan |
    windowCloseComplete | qpResetDone | ringFlush | rdmaWriteFirst | rdmaWriteMiddle | rdmaWriteLast | rdmaWriteOnly | rdmaReadRequest | rdmaLinesDone
    | hubInternalParityFault =>
    exact answerIf_follows (h.keep (by simp))
  | steerFire | junctionFire =>
    exact answerIf_follows (h.keep (State.orSame_map_rules fun x => by simp))
  | load =>
    exact next_follows (h.keep (State.hcpEnter_rules _ _ _ fun t => by dsimp only; split <;> simp))
  | loadData | paddockEnable | stageS8 | mgmtWatchdogReset | setPointWrite | bankCurrentSample | dvfsTarget | capDecision | opTimeSave |
    ethFrameReceive | hostLinkDown | osfpModuleInserted =>
    exact next_follows (h.keep (by (repeat' split) <;> simp))
  | loadTimeout =>
    exact next_follows (by
      (repeat' split) <;> first
        | exact h
        | exact (h.advanceTo _).keep (by simp; rfl))
  | start | step | relocate | commit =>
    exact next_follows (h.keep (State.hcpEnter_rules _ _ _ fun t => State.queued_rules ..))
  | halt =>
    exact next_follows (h.keep (State.hcpEnter_rules _ _ _ fun t => State.haltNow_rules ..))
  | abort =>
    exact next_follows (h.keep (State.hcpEnter_rules _ _ _ fun t => State.abortNow_rules ..))
  | broadcastPacketReceive | tallyAddArrival | flockUpArrival | loftRdArrival | loftWrArrival =>
    exact atCell_follows (by
      split
      next e => exact h.keep ((by simp : _ = _).trans (State.takeInbox_rules e))
      next => exact h)
  | statusSweep =>
    exact answerIf_follows (State.statusSweep_follows h ..)
  | packetAgeExpiry =>
    exact answerIf_follows (State.ageExpiry_follows h ..)
  | putArrival | getArrival =>
    exact atCell_follows (by
      split
      next e => exact h.keep ((by simp : _ = _).trans (State.toGate_rules e))
      next => exact h.keep (by simp))
  | resendTimerExpiry =>
    exact answerIf_follows (State.resendExpiry_follows h ..)
  | tagRestEnd =>
    exact answerIf_follows (State.restEnd_follows h ..)
  | mergeWindowClose =>
    exact atCell_follows (h.keep (by (repeat' split) <;> simp))
  | oldValidClear =>
    exact next_follows ((State.oldClear_follows h).keep (State.stageAll_rules _))
  | loftRefresh | rootReady | lightArrival =>
    exact answerIf_follows (h.keep (by (repeat' split) <;> simp))
  | streamPollDeferred =>
    exact answerIf_follows (State.pollDue_follows h ..)
  | linkDown =>
    exact answerIf_follows (State.linkDown_follows h ..)
  | relendResponse | accept | relendNack =>
    exact answerIf_follows (h.keep (State.answered_rules _ _ _ fun t f u => by simp))
  | attemptTimerExpiry =>
    exact answerIf_follows (State.attemptExpires_follows h ..)
  | completionTimerExpiry =>
    exact answerIf_follows (State.completionExpires_follows h ..)
  | acceptTimer =>
    exact answerIf_follows (State.tell_follows h ..)
  | tagRestingEnd =>
    exact answerIf_follows (State.tagRested_follows h ..)
  | musterArriveResend =>
    exact answerIf_follows (State.arriveResend_follows h ..)
  | paceResend =>
    exact next_follows (by
      split
      · exact (h.advanceTo _).keep (State.sendPace_rules ..)
      · exact h)
  | paceTimeout =>
    exact answerIf_follows (by
      split
      · exact h.advanceTo _
      · exact h)
  | collectiveDeadline =>
    exact answerIf_follows (State.ringDeadline_follows h ..)
  | paddockTrip =>
    exact answerIf_follows ((State.trip_follows h ..).keep (State.runWaiting_rules _))
  | powerOn =>
    exact next_follows (by
      split
      · exact h
      · exact (State.sessionOver_follows h true false).keep rfl)
  | refclkPresent =>
    exact next_follows (State.refclkThere_follows h)
  | stageS0 | stageS1 | stageS2 =>
    exact next_follows (State.stageCome_follows h _ _ fun t k => k.keep (by simp))
  | stageS3 | stageS7 =>
    exact next_follows (by
      split
      · exact State.stageCome_follows h _ _ fun t k => k.keep (by simp)
      · exact h)
  | stageS4 | stageS5 | stageS6 =>
    exact answerIf_follows (State.stageCome_follows h _ _ fun t k => k.keep (by simp))
  | s8PortTimeout =>
    exact next_follows (by
      split
      · split
        · apply State.s8Ends_follows h
        · exact h
      · exact h)
  | stageTimeout =>
    exact next_follows (by
      (repeat' split) <;> first
        | exact h
        | exact ((h.keep (State.overrunDetail_rules_of ‹_›)).advanceTo _).keep (State.stageFails_rules ..))
  | failedStart =>
    exact next_follows (State.startFails_follows h)
  | engineId | restart | mgmtImage | spreadWrite | fieldSource | sessionOpen | sessionClose | operatorKey | keyClear | vendorKeyRevoke | ownerRequired
    | historyClear | attestNonce | routeTable | windowRecordWrite | windowOpen | windowClose | musterQuery | tallyQuery | routerMarks | qpArm |
    qpReset | freeze | thaw =>
    exact next_follows (State.odpWriteOf_follows h ..)
  | refclkLoss =>
    exact next_follows (by
      split
      · exact (State.sessionOver_follows h true true).keep rfl
      · exact h)
  | rootRelockTimeout =>
    exact answerIf_follows (State.relockFails_follows h ..)
  | rampEnd =>
    exact next_follows (State.rampEnds_follows h ..)
  | freqCounterGate =>
    exact next_follows (by
      split
      · exact State.gateDone_follows h _
      · exact h)
  | inputLoss =>
    exact next_follows (State.powerLost_follows h)
  | avsLoop =>
    exact answerIf_follows (h.keep (State.rules_foldl _ _ fun t e => by simp))
  | droopMarginLoop =>
    exact answerIf_follows (h.keep (State.rules_foldl _ _ fun t e => by split <;> simp))
  | powerEstimate =>
    exact answerIf_follows ((h.advanceTo _).keep ((State.addSample_rules _).trans (State.rules_foldl _ _ fun t a => State.estimate_rules t a)))
  | thermalStep =>
    exact next_follows (State.thermalSteps_follows h)
  | meterStatusFrame | reading | signature =>
    exact next_follows (h.keep (State.meterFrame_rules _ _ _ _ fun t => by simp))
  | key =>
    exact next_follows (h.keep (State.meterFrame_rules _ _ _ _ fun t => rfl))
  | meterSilence =>
    exact next_follows (by
      split
      · exact h
      · exact (h.advanceTo _).keep ((State.meterSeal_rules ..).trans rfl))
  | odpRead | odpWrite | stageBegin | stageData | stageCommit | stageCancel | sessionChallenge =>
    exact next_follows (State.odpOp_follows h ..)
  | stageExpiry | snapshotExpiry | challengeExpiry | sessionTimeout =>
    exact next_follows (State.odpDue_follows h _)
  | freezeTimeout =>
    exact next_follows (by
      split
      · exact (h.advanceTo _).keep (State.thaw_rules _)
      · exact h)
  | coldBringUpStart =>
    exact next_follows (by
      split
      · exact h
      · exact State.coldStart_follows ((h.advanceTo _).keep rfl))

/-- What a step makes of a state follows from the state without the command that it took. -/
theorem step_follows {s t : State} (e : step s = .next t) : ({ s with pending := s.pending.tail } : State).Follows t := by
  unfold step at e
  split at e
  next none =>
    cases e
    have same : ({ s with pending := s.pending.tail } : State).Follows s := (State.Follows.refl _).same rfl (by simp [none]) rfl rfl rfl rfl rfl rfl rfl
    exact State.tick_follows same
  next c rest some => exact some ▸ exec_follows c _ t e

/-- Legal settings do not depend on the queue. -/
theorem State.Legal.queue {s : State} (h : s.Legal) (q : List Instr) : ({ s with pending := q } : State).Legal :=
  ⟨h.cap, h.limits, h.timers, h.marks, h.room, h.relend, h.defects, h.spread, h.keys⟩

end Sys2Proof.Machine

namespace Sys2Proof
open Sys2Proof.Machine

/-- Settles O59: whatever a step makes of a state follows from it, and with that keeps its settings legal. -/
theorem settingsStayLegal : Obligations.SettingsStayLegal := fun _ _ legal e => (step_follows e).legal (legal.queue _)

/-- Settles O60, from the same. -/
theorem timeAndFuses : Obligations.TimeAndFuses := fun _ _ e =>
  ⟨(step_follows e).clock, (step_follows e).vendor, (step_follows e).part, (step_follows e).pending⟩

end Sys2Proof
end

section
/-!
Settles O14: what a write to a scratchpad leaves.
-/
namespace Sys2Proof.Machine

/-! ### Writes to a scratchpad (R125) -/

theorem SMap.wf_fill {α : Type} [DecidableEq α] {d : α} (addr : Nat) : ∀ (l : List (α × Nat)) {m : SMap α}, m.wf d = true →
    (l.foldl (fun m e => m.set d (addr + e.2) e.1) m).wf d = true
  | [], _, h => h
  | _ :: l, _, h => SMap.wf_fill addr l (SMap.wf_set h _ _)

theorem SMap.get_fill_other {α : Type} [DecidableEq α] {d : α} (addr a : Nat) : ∀ (l : List (α × Nat)) (m : SMap α), (∀ e ∈ l, a ≠ addr + e.2) →
    (l.foldl (fun m e => m.set d (addr + e.2) e.1) m).get d a = m.get d a
  | [], _, _ => rfl
  | e :: l, m, h => by
    rw [List.foldl_cons, SMap.get_fill_other addr a l _ fun x hx => h x (List.mem_cons_of_mem _ hx)]
    exact SMap.get_set_other _ (h e List.mem_cons_self)

theorem SMap.get_fill_same {α : Type} [DecidableEq α] {d : α} (addr : Nat) {v : α} {k : Nat} : ∀ (l : List (α × Nat)) (m : SMap α), m.wf d = true →
    (l.map (·.2)).Nodup → (v, k) ∈ l → (l.foldl (fun m e => m.set d (addr + e.2) e.1) m).get d (addr + k) = v
  | e :: l, m, h, nodup, mem => by
    simp only [List.map_cons, List.nodup_cons] at nodup
    obtain rfl | mem := List.mem_cons.mp mem
    · rw [List.foldl_cons, SMap.get_fill_other]
      · exact SMap.get_set_same _ _ (.inl h)
      · rintro x hx eq
        refine nodup.1 (List.mem_map.mpr ⟨x, hx, ?_⟩)
        simp at eq ⊢
        omega
    · exact SMap.get_fill_same addr l _ (SMap.wf_set h _ _) nodup.2 mem

theorem padWrite_wf {mem : Memory} (h : mem.wf PByte.zero = true) (addr : Nat) (data : Payload) : (padWrite mem addr data).wf PByte.zero = true :=
  SMap.wf_fill addr _ h

theorem padWrite_get_same {mem : Memory} (h : mem.wf PByte.zero = true) (addr : Nat) {data : Payload} {i : Nat} (hi : i < data.length) :
    (padWrite mem addr data).get PByte.zero (addr + i) = data[i] := by
  refine SMap.get_fill_same addr _ _ h ?_ ?_
  · rw [List.map_snd_zip (by simp)]
    exact List.nodup_range
  · refine List.mem_iff_getElem.mpr ⟨i, by simpa using hi, by simp⟩

theorem padWrite_get_other (mem : Memory) {addr a : Nat} {data : Payload} (h : a < addr ∨ addr + data.length ≤ a) :
    (padWrite mem addr data).get PByte.zero a = mem.get PByte.zero a := by
  refine SMap.get_fill_other addr a _ _ fun e he => ?_
  have := List.mem_range.mp (List.of_mem_zip he).2
  omega

end Sys2Proof.Machine

namespace Sys2Proof
open Sys2Proof.Machine

/-- Settles O14: the bytes of a write go to different places. -/
theorem scratchpadReadAfterWrite : Obligations.ScratchpadReadAfterWrite := fun mem addr _ h =>
  ⟨padWrite_wf h addr _, fun _ hi => padWrite_get_same h addr hi, fun _ ha => padWrite_get_other mem ha⟩

end Sys2Proof
end

section
/-!
Settles O57: commands to units that exist.
-/
namespace Sys2Proof.Machine

/-- A command to a unit that exists has a next state. -/
theorem answerIf_next {ok : Bool} {u : State} (h : ok = true) : ∃ t, answerIf ok u = .next t := ⟨u, by rw [answerIf, if_pos h]⟩

theorem exec_next (i : Instr) (s : State) (h : i.wf = true) : ∃ t, exec i s = .next t := by
  cases i with
  | sequencerCycle | nop | fence | predPop | predSet | agReset | musterEnter | copy | convert | zero | mac | accOut | accSpill | accFill | anchorSet |
    vectorAdd | vectorSub | vectorMul | vectorMax | vectorMin | vectorAnd | vectorOr | vectorXor | cmpLt | cmpEq | exp2 | exp | log2 | log | recip |
    sqrt | rsqrt | tanh | sigmoid | sin | cos | sort | topk | lookup | cas32 | cas64 | fadd32 | fadd64 | ccount | dmaIssue | put | get | tallyAdd |
    flockPut | redPut | tallyClassAdd | cmpClear | iterationCommit | seqWriteSlotGrant | scratchpadBankGrant | meshPortAccess | sheepdog |
    creditReturn | switchGrantCycle | steerFire | junctionFire | steerTimeout | musterNodeArrival | musterReleaseAtCell | hubFaultReport |
    cellCheckDone | broadcastTransfer | broadcastPacketReceive | packetHop | redCombine | packetAgeExpiry | putArrival | getArrival | tallyAddArrival
    | flockUpArrival | flockDownArrival | redArrival | loftRdArrival | ackArrival | nackArrival | replyArrival | multiReplyArrival | fanoutArrival |
    dropArrival | resendTimerExpiry | tagRestEnd | dmaDescriptorStart | dmaLineReadDone | dmaDescriptorComplete | loftRefresh | vaultLost |
    spareWriteDone | streamRecordPut | streamPoll | linkDown | portTrainingDone | laneSwap | frameTransit | relendRead | relendWrite | relendInc |
    relendServeComplete | relendResponse | accept | relendNack | acceptTimer | tagAvailable | musterRelease | musterArriveResend | pace | paceTimeout
    | collectiveGatherRelease | ringArrivalPost | collectiveDeadline | hubHeartbeat | nodeLost | paddockTrip | stageS4 | stageS5 | stageS6 | rootReady
    | lockDrop | rootRelockTimeout | avsLoop | droopDetect | droopMarginLoop | temperatureScan | windowCloseComplete | qpResetDone | ringFlush |
    lightArrival | hubInternalParityFault =>
    exact answerIf_next h
  | stepStartRelease | sweepWindowClose | stepEndCompletion | abortingComplete | load | loadData | loadTimeout | dmaChannelsIdle | start | step | halt
    | abort | relocate | peerFixupRewrite | peerReleaseFree | commit | epochInstall | epochConfirm | oldValidClear | paceResend | powerOn |
    refclkPresent | stageS0 | stageS1 | stageS2 | stageS3 | paddockEnable | stageS7 | stageS8 | s8PortTimeout | stageTimeout | mgmtWatchdogReset |
    failedStart | engineId | restart | mgmtImage | mgmtImageFlashDone | refclkLoss | setPointWrite | rampEnd | spreadWrite | fieldSource |
    freqCounterGate | inputLoss | bankCurrentSample | dvfsTarget | paddocksSettled | capDecision | thermalStep | meterStatusFrame | reading |
    signature | key | meterSilence | odpRead | odpWrite | stageBegin | stageData | stageCommit | stageCancel | stageExpiry | snapshotExpiry |
    sessionChallenge | challengeExpiry | sessionOpen | sessionClose | sessionTimeout | operatorKey | keyClear | vendorKeyRevoke | ownerRequired |
    historyClear | attestNonce | routeTable | windowRecordWrite | windowOpen | windowClose | musterQuery | tallyQuery | routerMarks | qpArm | qpReset
    | freeze | thaw | freezeTimeout | opTimeSave | ethFrameReceive | coldBringUpStart | attestReportSigned | hostLinkDown | osfpModuleInserted =>
    exact ⟨_, rfl⟩
  | tokenArrival | statusSweep | vaultRequestAccept | vaultLineComplete | loftScrub | streamPollDeferred | linkUnitReceive | laneFailure |
    attemptTimerExpiry | completionTimerExpiry | tagRestingEnd | musterArrive | phase1Record | phase2Record | sourceSwitchDone | stretchEnd |
    powerEstimate | rdmaWriteFirst | rdmaWriteMiddle | rdmaWriteLast | rdmaWriteOnly | rdmaReadRequest | rdmaLinesDone =>
    exact answerIf_next (by simp_all [Instr.wf, portOk, tagOk, slotOk, physicalVaults, vaultLines, RdmaPkt.wf, PaddockActivity.wf])
  | loftWrArrival | mergeWindowClose | epochFlipTrigger =>
    exact answerIf_next (Bool.and_eq_true_iff.mp h).1

end Sys2Proof.Machine

namespace Sys2Proof
open Sys2Proof.Machine

/-- Settles O57: the fields of a command that fit their widths name units that exist. -/
theorem unitsThatExist : Obligations.UnitsThatExist := exec_next

end Sys2Proof
end

section
/-!
Settles O13 and O16: effects that are committed, and increments of tallies.
-/
namespace Sys2Proof.Machine

/-! ### Faults -/

@[simp] theorem Work.raise_fault (w : Work) (code : Code) (f e i d : Nat) :
    (w.raise code f e i d).cell.fault = w.cell.fault.raise { code, fold := f, entry := e, iter := i, detail := d } := rfl

@[simp] theorem Work.raise_accs (w : Work) (code : Code) (f e i d : Nat) : (w.raise code f e i d).cell.accs = w.cell.accs := rfl

@[simp] theorem Work.raise_tallies (w : Work) (code : Code) (f e i d : Nat) : (w.raise code f e i d).cell.tallies = w.cell.tallies := rfl

@[simp] theorem Work.raise_pad (w : Work) (code : Code) (f e i d : Nat) : (w.raise code f e i d).cell.pad = w.cell.pad := rfl

@[simp] theorem Work.raise_fab (w : Work) (code : Code) (f e i d : Nat) : (w.raise code f e i d).cell.fab = w.cell.fab := rfl

@[simp] theorem Work.raise_regs (w : Work) (code : Code) (f e i d : Nat) : (w.raise code f e i d).cell.regs = w.cell.regs := rfl

/-! ### Accumulators -/

theorem Work.setAcc_accs (w : Work) (n : Nat) (new : Word256) (i : Inflight) : (w.setAcc n new i).cell.accs = w.cell.accs.set 0 n new := by
  unfold Work.setAcc
  dsimp only
  split <;> rfl

theorem Work.setAcc_tallies (w : Work) (n : Nat) (new : Word256) (i : Inflight) : (w.setAcc n new i).cell.tallies = w.cell.tallies := by
  unfold Work.setAcc
  dsimp only
  split <;> rfl

theorem Work.setAcc_pad (w : Work) (n : Nat) (new : Word256) (i : Inflight) : (w.setAcc n new i).cell.pad = w.cell.pad := by
  unfold Work.setAcc
  dsimp only
  split <;> rfl

theorem Work.setAcc_fab (w : Work) (n : Nat) (new : Word256) (i : Inflight) : (w.setAcc n new i).cell.fab = w.cell.fab := by
  unfold Work.setAcc
  dsimp only
  split <;> rfl

theorem SMap.get_upd_same {α : Type} [DecidableEq α] {d : α} {m : SMap α} (h : m.wf d = true) (k : Nat) (f : α → α) :
    (m.upd d k f).get d k = f (m.get d k) := SMap.get_set_same k _ (.inl h)

/-- A comparison that holds takes the value at the cycle's start off the tally. -/
theorem Work.cmpClear_met {w : Work} (i : Inflight) {t imm : Nat} (wf : w.cell.tallies.wf .zero = true) (h : w.cell.tallyAtStart t = imm) :
    (w.applyEffect i (.cmpClear t imm)).cell.tally t = w.cell.tally t - imm ∧ (w.applyEffect i (.cmpClear t imm)).cell.fault = w.cell.fault := by
  have e : w.applyEffect i (.cmpClear t imm) = w.clearTally t := by simp [Work.applyEffect, h]
  rw [e]
  refine ⟨?_, rfl⟩
  simp [Work.clearTally, Work.map, Cell.tally, SMap.get_upd_same wf, h]

/-- One that fails leaves the tallies and raises its fault. -/
theorem Work.cmpClear_failed {w : Work} (i : Inflight) {t imm : Nat} (h : w.cell.tallyAtStart t ≠ imm) :
    w.applyEffect i (.cmpClear t imm) =
      w.raise (if w.cell.tallyAtStart t < imm then Codes.tallyUnderflow else Codes.tallyOverflow) i.fold i.entry i.iter t := by
  simp [Work.applyEffect, h]

end Sys2Proof.Machine

namespace Sys2Proof
open Sys2Proof.Machine

/-- Settles O13: each effect writes one entry of one table. -/
theorem committedEffects : Obligations.CommittedEffects := by
  intro w i
  refine ⟨fun n fmt a b scale wf => ?mac, fun n word wf => ?anchor, fun v wf => ?pred, fun t imm wf => ⟨fun h => ?met, fun h => ?under, fun h => ?above⟩⟩
  case mac =>
    simp only [Work.applyEffect, Work.setAcc_accs, Work.setAcc_tallies, Work.setAcc_pad, Work.setAcc_fab]
    exact ⟨SMap.get_set_same _ _ (.inl wf), fun m ne => SMap.get_set_other _ ne, trivial, trivial, trivial⟩
  case anchor =>
    simp only [Work.applyEffect, Work.setAcc_accs, Work.setAcc_pad]
    exact ⟨SMap.get_set_same _ _ (.inl wf), fun m ne => SMap.get_set_other _ ne, trivial⟩
  case pred =>
    refine ⟨?_, fun f ne => ?_, rfl, rfl⟩
    · simp [Work.applyEffect, Work.mapSeq, SMap.get_upd_same wf]
    · simp [Work.applyEffect, Work.mapSeq, SMap.get_upd_other _ ne]
  case met => exact Work.cmpClear_met i wf h
  case under =>
    rw [Work.cmpClear_failed i (Nat.ne_of_lt h)]
    exact ⟨rfl, _, rfl, if_pos h⟩
  case above =>
    rw [Work.cmpClear_failed i (Nat.ne_of_gt h)]
    exact ⟨rfl, _, rfl, if_neg (Nat.not_lt_of_gt h)⟩

end Sys2Proof

namespace Sys2Proof.Machine

/-! ### Tallies -/

@[simp] theorem Cell.arrived_tallies (c : Cell) (t : Nat) (src : Option Coord) : (c.arrived t src).tallies = c.tallies := by
  unfold Cell.arrived; split <;> rfl

@[simp] theorem Cell.arrived_fault (c : Cell) (t : Nat) (src : Option Coord) : (c.arrived t src).fault = c.fault := by
  unfold Cell.arrived; split <;> rfl

@[simp] theorem Cell.arrived_pad (c : Cell) (t : Nat) (src : Option Coord) : (c.arrived t src).pad = c.pad := by
  unfold Cell.arrived; split <;> rfl

@[simp] theorem Cell.arrived_accs (c : Cell) (t : Nat) (src : Option Coord) : (c.arrived t src).accs = c.accs := by
  unfold Cell.arrived; split <;> rfl

@[simp] theorem Cell.arrived_regs (c : Cell) (t : Nat) (src : Option Coord) : (c.arrived t src).regs = c.regs := by
  unfold Cell.arrived; split <;> rfl

/-- What an increment leaves of the cell. -/
structure Cell.Tallied (c d : Cell) (t n : Nat) (src : Option Coord) : Prop where
  tallies : d.tallies = c.tallies.set .zero t { value := satAdd 0xFFFFFFFF (c.tally t) n, last := c.lastAfter t src }
  fits    : c.tally t + n ≤ 0xFFFFFFFF → d.fault = c.fault
  carries : 0xFFFFFFFF < c.tally t + n → ∃ r, r.code = Codes.tallyOverflow ∧ d.fault = c.fault.raise r
  pad     : d.pad = c.pad
  accs    : d.accs = c.accs
  regs    : d.regs = c.regs

theorem Work.addTallyBy_tallied (w : Work) {t n : Nat} (src : Option Coord) (f e i : Nat) (pos : 0 < n) :
    Cell.Tallied w.cell (w.addTallyBy t n src f e i).cell t n src := by
  unfold Work.addTallyBy
  rw [if_neg (Nat.ne_of_gt pos)]
  dsimp only
  split
  next carry =>
    refine ⟨?_, fun fits => absurd carry (Nat.not_lt.mpr fits),
      fun _ => ⟨{ code := Codes.tallyOverflow, fold := f, entry := e, iter := i, detail := t }, rfl, ?_⟩, ?_, ?_, ?_⟩ <;> simp [Work.map, Cell.tally]
  next fits =>
    refine ⟨?_, fun _ => ?_, fun carry => absurd carry fits, ?_, ?_, ?_⟩ <;> simp [Work.map, Cell.tally]

end Sys2Proof.Machine

namespace Sys2Proof
open Sys2Proof.Machine

/-- Settles O16. -/
theorem tallyIncrements : Obligations.TallyIncrements := by
  intro w t n src wf pos
  have k : Cell.Tallied w.cell (w.addTally t n src).cell t n src := w.addTallyBy_tallied src _ _ _ pos
  refine ⟨?_, ?_, ?_, fun j ne => ?_, k.fits, k.carries, ?_, k.pad, k.accs, k.regs⟩
  · rw [k.tallies]
    exact SMap.get_set_same _ _ (.inl wf)
  · rintro (some | other)
    · cases src <;> simp_all [Cell.lastAfter]
    · simp [Cell.lastAfter, other]
  · intro none came
    simp [Cell.lastAfter, none, came]
  · rw [k.tallies]
    exact SMap.get_set_other _ ne
  · rw [k.tallies]
    exact SMap.wf_set wf _ _

end Sys2Proof
end

section
/-!
Settles O15: writes and reads that the channels check.
-/
namespace Sys2Proof.Machine

/-! ### What the channels let through -/

@[simp] theorem Work.write_tallies (w : Work) (a : Nat) (d : Payload) : (w.write a d).cell.tallies = w.cell.tallies := by
  unfold Work.write; split <;> rfl

@[simp] theorem Work.write_accs (w : Work) (a : Nat) (d : Payload) : (w.write a d).cell.accs = w.cell.accs := by
  unfold Work.write; split <;> rfl

@[simp] theorem Work.write_regs (w : Work) (a : Nat) (d : Payload) : (w.write a d).cell.regs = w.cell.regs := by
  unfold Work.write; split <;> rfl

@[simp] theorem Work.write_reports (w : Work) (a : Nat) (d : Payload) : (w.write a d).cell.fault.reports = w.cell.fault.reports := by
  unfold Work.write; split <;> rfl

@[simp] theorem Work.write_bytes (w : Work) (a : Nat) (d : Payload) : (w.write a d).cell.pad.bytes = padWrite w.cell.pad.bytes a d := by
  unfold Work.write
  split
  · next none => rw [List.isEmpty_iff.mp none]; rfl
  · rfl

/-- A read that finds bad parity. -/
@[simp] theorem Work.paritySpad_pad (w : Work) (l f e i : Nat) : (w.paritySpad l f e i).cell.pad = w.cell.pad := by
  unfold Work.paritySpad; dsimp only; split <;> rfl

@[simp] theorem Work.paritySpad_tallies (w : Work) (l f e i : Nat) : (w.paritySpad l f e i).cell.tallies = w.cell.tallies := by
  unfold Work.paritySpad; dsimp only; split <;> rfl

@[simp] theorem Work.paritySpad_accs (w : Work) (l f e i : Nat) : (w.paritySpad l f e i).cell.accs = w.cell.accs := by
  unfold Work.paritySpad; dsimp only; split <;> rfl

@[simp] theorem Work.paritySpad_regs (w : Work) (l f e i : Nat) : (w.paritySpad l f e i).cell.regs = w.cell.regs := by
  unfold Work.paritySpad; dsimp only; split <;> rfl

theorem Work.paritySpad_reports (w : Work) (l f e i : Nat) : ∃ more, (w.paritySpad l f e i).cell.fault.reports =
    w.cell.fault.reports ++ { code := Codes.paritySpad, fold := f, entry := e, iter := i, detail := l } :: more := by
  unfold Work.paritySpad
  dsimp only
  split
  · exact ⟨_, List.append_assoc ..⟩
  · exact ⟨[], rfl⟩

/-- What a read leaves: the work as it was, but for the faults that it raised. -/
def Work.checkedRead (w v : Work) (addr len fold entry iter : Nat) : Work :=
  if (w.cell.stored addr len).parityError then v.paritySpad (addr / 64) fold entry iter else v

theorem Work.read_empty {w : Work} {addr : Nat} (h : w.cell.channelView addr = .empty) (len f e i : Nat) :
    w.read addr len f e i = (Payload.poison len, w.checkedRead (w.raise Codes.spadUnderflow f e i addr) addr len f e i) := by
  simp [Work.read, h, Work.checkedRead]

theorem Work.read_drifted {w : Work} {addr : Nat} (h : w.cell.channelView addr = .drifted) (len f e i : Nat) :
    w.read addr len f e i = (Payload.poison len, w.checkedRead w addr len f e i) := by
  simp [Work.read, h, Work.checkedRead]

theorem Work.read_stored {w : Work} {addr : Nat} (h : w.cell.channelView addr = .free ∨ w.cell.channelView addr = .full) (len f e i : Nat) :
    w.read addr len f e i =
      (if (w.cell.stored addr len).parityError then Payload.poison len else w.cell.stored addr len, w.checkedRead w addr len f e i) := by
  obtain h | h := h <;> simp [Work.read, h, Work.checkedRead]

/-- The tables that a read leaves alone. -/
theorem Work.checkedRead_tables (w v : Work) (addr len f e i : Nat) :
    let t := w.checkedRead v addr len f e i
    t.cell.pad = v.cell.pad ∧ t.cell.tallies = v.cell.tallies ∧ t.cell.accs = v.cell.accs ∧ t.cell.regs = v.cell.regs := by
  unfold Work.checkedRead
  split
  · simp
  · exact ⟨rfl, rfl, rfl, rfl⟩

theorem Work.checkedRead_reports (w v : Work) (addr len f e i : Nat) :
    ∃ more, (w.checkedRead v addr len f e i).cell.fault.reports = v.cell.fault.reports ++ more := by
  unfold Work.checkedRead
  split
  · obtain ⟨more, h⟩ := v.paritySpad_reports (addr / 64) f e i
    exact ⟨_, h⟩
  · exact ⟨[], (List.append_nil _).symm⟩

theorem Work.checkedRead_parity {w : Work} {addr len : Nat} (h : (w.cell.stored addr len).parityError = true) (v : Work) (f e i : Nat) :
    ∃ q ∈ (w.checkedRead v addr len f e i).cell.fault.reports, q.code = Codes.paritySpad := by
  obtain ⟨more, k⟩ := v.paritySpad_reports (addr / 64) f e i
  unfold Work.checkedRead
  rw [if_pos h, k]
  exact ⟨_, List.mem_append_right _ List.mem_cons_self, rfl⟩

theorem channelWriteRules : Claims.ChannelWriteRules := by
  intro w addr f e i data some
  have some : data.isEmpty = false := by cases data <;> simp_all
  unfold Work.writeChecked
  simp only [some, Bool.false_eq_true, if_false]
  refine ⟨fun full => ?_, fun drifted => ?_, fun lands => ?_, ?_⟩
  · simp [full, satAdd, Work.map, FaultState.raise]
  · simp [drifted]
  · obtain h | h := lands <;> simp [h]
  · cases w.cell.channelView addr <;> simp [Work.map]

theorem channelReadRules : Claims.ChannelReadRules := by
  intro w addr len f e i
  refine ⟨fun empty => ?_, fun drifted => ?_, fun parity => ?_, fun clean lands => ?_, ?_⟩
  · obtain ⟨more, h⟩ := w.checkedRead_reports (w.raise Codes.spadUnderflow f e i addr) addr len f e i
    rw [Work.read_empty empty]
    refine ⟨rfl, { code := Codes.spadUnderflow, fold := f, entry := e, iter := i, detail := addr }, ?_, rfl⟩
    rw [h]
    simp [FaultState.raise]
  · rw [Work.read_drifted drifted]
  · cases view : w.cell.channelView addr with
    | empty => rw [Work.read_empty view]; exact ⟨rfl, Work.checkedRead_parity parity ..⟩
    | drifted => rw [Work.read_drifted view]; exact ⟨rfl, Work.checkedRead_parity parity ..⟩
    | free => rw [Work.read_stored (.inl view)]; exact ⟨if_pos parity, Work.checkedRead_parity parity ..⟩
    | full => rw [Work.read_stored (.inr view)]; exact ⟨if_pos parity, Work.checkedRead_parity parity ..⟩
  · rw [Work.read_stored lands]
    simp [clean, Work.checkedRead]
  · cases view : w.cell.channelView addr with
    | empty => rw [Work.read_empty view]; exact w.checkedRead_tables (w.raise ..) ..
    | drifted => rw [Work.read_drifted view]; exact w.checkedRead_tables ..
    | free => rw [Work.read_stored (.inl view)]; exact w.checkedRead_tables ..
    | full => rw [Work.read_stored (.inr view)]; exact w.checkedRead_tables ..

end Sys2Proof.Machine

namespace Sys2Proof
open Sys2Proof.Machine

/-- Settles O15: the four views of a channel, for a write and for a read. -/
theorem channelRules : Obligations.ChannelRules := ⟨channelWriteRules, channelReadRules⟩

end Sys2Proof
end

section
/-!
Settles O22: a RED packet in the scratchpad.
-/
namespace Sys2Proof.Machine

/-! ### What a RED packet does beside its write -/

@[simp] theorem Work.takeSlot_pad (w : Work) (l : Nat) (wr : Bool) : (w.takeSlot l wr).cell.pad = w.cell.pad := by
  unfold Work.takeSlot; split <;> rfl

@[simp] theorem Work.takePort_pad (w : Work) (n : Nat) : (w.takePort n).cell.pad = w.cell.pad := by
  unfold Work.takePort; split <;> rfl

@[simp] theorem Work.takeSlots_pad (w : Work) (p : Packet) (a n : Nat) : (w.takeSlots p a n).cell.pad = w.cell.pad := by
  unfold Work.takeSlots
  dsimp only
  repeat' split
  all_goals simp

@[simp] theorem Work.addTally_pad (w : Work) (t n : Nat) (src : Option Coord) : (w.addTally t n src).cell.pad = w.cell.pad := by
  obtain rfl | pos := Nat.eq_zero_or_pos n
  · simp [Work.addTally, Work.addTallyBy]
  · exact (w.addTallyBy_tallied src _ _ _ pos).pad

@[simp] theorem Work.raiseHere_pad (w : Work) (code : Code) (d : Nat) : (w.raiseHere code d).cell.pad = w.cell.pad := rfl

@[simp] theorem Work.mapMesh_pad (w : Work) (f : MeshState → MeshState) : (w.mapMesh f).cell.pad = w.cell.pad := rfl

@[simp] theorem Work.answer_pad (w : Work) (p : Packet) (type : Nat) (status : Code) (aux : Nat) (data : Payload) :
    (w.answer p type status aux data).cell.pad = w.cell.pad := by
  unfold Work.answer; split <;> rfl

@[simp] theorem Work.ack_pad (w : Work) (p : Packet) : (w.ack p).cell.pad = w.cell.pad := w.answer_pad ..

theorem Work.foldl_pad {α : Type} {f : Work → α → Work} (h : ∀ w x, (f w x).cell.pad = w.cell.pad) :
    ∀ (l : List α) (w : Work), (l.foldl f w).cell.pad = w.cell.pad
  | [], _ => rfl
  | x :: l, w => (Work.foldl_pad h l (f w x)).trans (h w x)

theorem Cell.stored_congr {c d : Cell} (h : d.pad = c.pad) (a n : Nat) : d.stored a n = c.stored a n := by rw [Cell.stored, h]; rfl

theorem Cell.channelView_of_free {c : Cell} {a : Nat} (h : c.channelAt a = none) : c.channelView a = .free := by
  unfold Cell.channelView
  rw [h]

theorem Cell.channelAt_congr {c d : Cell} (h : d.pad = c.pad) (a : Nat) : d.channelAt a = c.channelAt a := by rw [Cell.channelAt, h]; rfl

/-- What a read outside every ring finds and leaves. -/
theorem Work.readHere_free {w : Work} {a : Nat} (h : w.cell.channelAt a = none) (n : Nat) :
    (w.readHere a n).1 = (if (w.cell.stored a n).parityError then Payload.poison n else w.cell.stored a n) ∧
    (w.readHere a n).2.cell.pad = w.cell.pad := by
  unfold Work.readHere
  dsimp only
  rw [Work.read_stored (.inl (Cell.channelView_of_free h))]
  exact ⟨rfl, (w.checkedRead_tables ..).1⟩

/-- The scratchpad after a RED packet: its 32 bytes written over with the reduction. -/
theorem Work.applyRed_bytes (w : Work) (p : Packet) (h : w.cell.channelAt p.offset = none) :
    (w.applyRed p).cell.pad.bytes = padWrite w.cell.pad.bytes p.offset (reducePayload (p.aux % 16)
      (if (w.cell.stored p.offset 32).parityError then Payload.poison 32 else w.cell.stored p.offset 32) p.cleanPayload) := by
  have pad := w.takeSlots_pad p p.offset 32
  obtain ⟨value, kept⟩ := Work.readHere_free ((Cell.channelAt_congr pad p.offset).trans h) 32
  rw [Cell.stored_congr pad] at value
  unfold Work.applyRed
  dsimp only
  rw [Work.foldl_pad fun w e => by simp]
  rw [value]
  repeat' split
  all_goals simp [kept]

end Sys2Proof.Machine

namespace Sys2Proof
open Sys2Proof.Machine

/-- Settles O22: past its turn at the port, a RED packet is one write of 32 bytes. -/
theorem redCombinesInMemory : Obligations.RedCombinesInMemory := by
  intro w p a wf free
  dsimp only
  rw [Work.applyRed_bytes w p free]
  exact ⟨fun out => padWrite_get_other _ out, fun i hi => padWrite_get_same wf _ hi⟩

end Sys2Proof
end

section
/-!
Settles O19: the grant pass of a switch.
-/
namespace Sys2Proof.Machine

/-! ### One token per track (R139) -/

/-- What a grant pass has sent: a token on each of some tracks, all of them taken. -/
structure GrantPass.Fair (g : GrantPass) : Prop where
  once  : (g.sent.map (·.1)).Nodup
  taken : ∀ o ∈ g.sent.map (·.1), o ∈ g.taken

theorem GrantPass.Fair.send {g : GrantPass} (h : g.Fair) {o : Nat} (new : o ∉ g.taken) (f : Nat) (t : Token) (reserved : Bool) :
    (g.send f o t reserved).Fair := by
  have fresh : o ∉ g.sent.map (·.1) := fun sent => new (h.taken o sent)
  have sent : (g.send f o t reserved).sent.map (·.1) = g.sent.map (·.1) ++ [o] := by simp [GrantPass.send]
  have taken : (g.send f o t reserved).taken = o :: g.taken := rfl
  constructor
  · rw [sent, List.nodup_append]
    exact ⟨h.once, by simp, fun a ha b hb eq => fresh (List.mem_singleton.mp hb ▸ eq ▸ ha)⟩
  · intro k hk
    rw [sent, List.mem_append, List.mem_singleton] at hk
    rw [taken, List.mem_cons]
    exact hk.elim (fun old => .inr (h.taken k old)) .inl

/-- A group of tracks is sent on as a whole. -/
theorem GrantPass.Fair.group {g : GrantPass} (h : g.Fair) (f : Nat) (t : Token) {l : List Nat} (nodup : l.Nodup) (free : ∀ o ∈ l, o ∉ g.taken) :
    (l.foldl (fun g o => g.send f o t false) g).Fair := by
  induction l generalizing g with
  | nil => exact h
  | cons o l ih =>
    obtain ⟨notin, nodup⟩ := List.nodup_cons.mp nodup
    refine ih (h.send (free o List.mem_cons_self) f t false) nodup fun k hk taken => ?_
    obtain rfl | taken := List.mem_cons.mp taken
    · exact notin hk
    · exact free k (List.mem_cons_of_mem _ hk) taken

theorem CellRegs.multicast_nodup (r : CellRegs) (f p : Nat) : (r.multicast f p).Nodup := List.nodup_range.filter _

theorem GrantPass.Fair.work {g : GrantPass} (h : g.Fair) (w : Work) : ({ g with work := w } : GrantPass).Fair := ⟨h.once, h.taken⟩

theorem GrantPass.Fair.track {g : GrantPass} (h : g.Fair) (f o : Nat) : (g.track f o).Fair := by
  fun_cases GrantPass.track
  case case2 free _ _ _ _ _ _ ready =>
    refine (h.work _).group f _ (CellRegs.multicast_nodup ..) fun k hk taken => ?_
    have := List.all_eq_true.mp ready k hk
    simp_all
  case case6 | case9 | case12 => exact GrantPass.Fair.send (h.work _) ‹_› ..
  all_goals exact h

theorem GrantPass.Fair.pass {g : GrantPass} (h : g.Fair) (order tracks : List Nat) :
    (order.foldl (fun (g : GrantPass) f => tracks.foldl (fun (g : GrantPass) o => g.track f o) g) g).Fair := by
  induction order generalizing g with
  | nil => exact h
  | cons f order ih =>
    refine ih ?_
    clear ih
    induction tracks generalizing g with
    | nil => exact h
    | cons o tracks ih => exact ih (h.track f o)

theorem oneTokenPerTrack : Claims.OneTokenPerTrack := fun w =>
  (GrantPass.Fair.pass (g := { work := w, taken := [], sent := [] }) ⟨by simp, by simp⟩ w.cell.passOrder (List.range 56)).once

theorem switchGrants : Claims.SwitchGrants := by
  intro s c here
  have answer : exec (.switchGrantCycle c) s = .next (s.switchGrant c) := if_pos here
  exact ⟨fun moves => ⟨s.absorb (s.work c).switchCycle.1, answer.trans (congrArg Host.Outcome.next (if_pos moves)), rfl⟩,
    fun notRunning notHalted => answer.trans (congrArg Host.Outcome.next (if_neg (by simp [notRunning, notHalted])))⟩

end Sys2Proof.Machine

namespace Sys2Proof
open Sys2Proof.Machine

/-- Settles O19: a pass sends on a track only while that track is not taken, and takes it. -/
theorem switchPass : Obligations.SwitchPass := ⟨switchGrants, oneTokenPerTrack⟩

end Sys2Proof
end

section
/-!
Settles O46: the recorder's rings.
-/
namespace Sys2Proof.Machine

/-! ### Records of a ring (R462) -/

theorem takeFirst_of_none {α : Type} {p : α → Bool} : ∀ {l : List α}, (∀ a ∈ l, p a = false) → takeFirst p l = none
  | [], _ => rfl
  | a :: l, h => by
    simp [takeFirst, h a List.mem_cons_self, takeFirst_of_none fun b hb => h b (List.mem_cons_of_mem _ hb)]

theorem takeFirst_of_first {α : Type} {p : α → Bool} {y : α} (hy : p y = true) (newer : List α) : ∀ {older : List α}, (∀ a ∈ older, p a = false) →
    takeFirst p (older ++ y :: newer) = some (y, older ++ newer)
  | [], _ => by simp [takeFirst, hy]
  | a :: older, h => by
    simp [takeFirst, h a List.mem_cons_self, takeFirst_of_first hy newer fun b hb => h b (List.mem_cons_of_mem _ hb)]

theorem takeFirst_length {α : Type} {p : α → Bool} : ∀ {l rest : List α} {y : α}, takeFirst p l = some (y, rest) → rest.length + 1 = l.length
  | a :: l, rest, y, h => by
    unfold takeFirst at h
    split at h
    · cases h; rfl
    · split at h
      · next e => cases h; exact congrArg (· + 1) (takeFirst_length e)
      · cases h

theorem Ring.put_of_room {r : Ring} (h : r.held.length < 1024) (x : Record) : r.put x = { r with held := r.held ++ [(x, false)] } := if_pos h

theorem Ring.put_of_full {r : Ring} (h : 1024 ≤ r.held.length) (x : Record) :
    r.put x = match takeFirst (fun (e : Record × Bool) => e.2) r.held with
      | some (_, rest) => { r with held := rest ++ [(x, false)] }
      | none => { r with dropped := satAdd 0xFFFF r.dropped 1 } := if_neg (Nat.not_lt.mpr h)

theorem Ring.put_length {r : Ring} (h : r.held.length ≤ 1024) (x : Record) : (r.put x).held.length ≤ 1024 := by
  obtain room | full := Nat.lt_or_ge r.held.length 1024
  · rw [Ring.put_of_room room]
    simpa using room
  · rw [Ring.put_of_full full]
    split
    · next e =>
      have := takeFirst_length e
      simp
      omega
    · exact h

theorem Ring.flushed_unflushed (r : Ring) : r.flushed.unflushed = 0 := by simp [Ring.flushed, Ring.unflushed]

theorem Ring.flushed_records (r : Ring) : r.flushed.held.map (·.1) = r.held.map (·.1) := by simp [Ring.flushed]

/-! ### A flush (R463, R465) -/

/-- The records that a flush moves to the module log. -/
def Ring.moved (r : Ring) : List Record := (r.held.filter fun e => e.2 = false).map (·.1)

theorem exec_ringFlush {s : State} {f : Nat} (here : f < fieldCount) (due : (s.hub f).ring.due = true) (open_ : s.logFrozen = false) :
    exec (.ringFlush f) s = .next (s.flushRing f) := by
  have due : (s.hubs.get .zero f).ring.due = true := due
  have e : exec (.ringFlush f) s = .next (s.ringFlush f) := if_pos (decide_eq_true here)
  rw [e, State.ringFlush]
  simp [due, open_]

/-- A record at a hub whose ring is frozen: the ring keeps what it holds, and the holding buffer takes the record where it has room. -/
theorem State.hubNote_frozen {s : State} {f : Nat} (wf : s.hubs.wf .zero = true) (frozen : s.ringFrozen f = true) (type : Nat) (code : Code)
    (region location : Nat) (detail : List Byte) :
    let t := s.hubNote f type code region location detail
    (t.hub f).ring = { (s.hub f).ring with seq := (s.hub f).ring.seq + 1 } ∧ t.flash = s.flash ∧
    ((s.hub f).holding.length < 256 → (t.hub f).holding = (s.hub f).holding ++
      [s.stamp (f + 1) (s.hub f).ring.seq type code.toNat region location detail]) := by
  unfold State.hubNote
  dsimp only
  rw [if_pos frozen]
  split
  next => exact ⟨by simp [State.hub, SMap.get_set_same _ _ (.inl wf)], rfl, fun _ => by simp [State.hub, SMap.get_set_same _ _ (.inl wf)]⟩
  next full => exact ⟨by simp [State.hub, SMap.get_set_same _ _ (.inl wf)], rfl, fun room => absurd room full⟩

theorem State.flushRing_none {s : State} {f : Nat} (none : (s.hub f).ring.dropped = 0) :
    s.flushRing f = { s with
      flash := (s.hub f).ring.moved.foldl FlashState.append s.flash
      hubs := s.hubs.set .zero f { (s.hub f) with ring := (s.hub f).ring.flushed } } := by
  have none : (s.hubs.get .zero f).ring.dropped = 0 := none
  simp [State.flushRing, none, State.hub, Ring.moved]

/-- The state in which a frozen ring's LOST record is taken. -/
def State.ringEmptied (s : State) (f : Nat) : State :=
  { s with
    flash := (s.hub f).ring.moved.foldl FlashState.append s.flash
    hubs := s.hubs.set .zero f { (s.hub f) with ring := { (s.hub f).ring.flushed with dropped := 0 } } }

theorem State.flushRing_frozen {s : State} {f : Nat} (some : (s.hub f).ring.dropped ≠ 0) (frozen : s.ringFrozen f = true) :
    s.flushRing f = (s.ringEmptied f).hubNote f recLost 1 0 noPlace (leBytes 4 (s.hub f).ring.dropped) := by
  have some : (s.hubs.get .zero f).ring.dropped ≠ 0 := some
  simp [State.flushRing, some, frozen, State.ringEmptied, State.hub, Ring.moved]

theorem State.flushRing_open {s : State} {f : Nat} (some : (s.hub f).ring.dropped ≠ 0) (open_ : s.ringFrozen f = false) :
    let r := (s.hub f).ring
    let lost := s.stamp (f + 1) r.seq recLost 1 0 noPlace (leBytes 4 r.dropped)
    s.flushRing f = { s with
      flash := (r.moved ++ [lost]).foldl FlashState.append s.flash
      hubs := s.hubs.set .zero f { (s.hub f) with ring := (({ r.flushed with dropped := 0, seq := r.seq + 1 } : Ring).put lost).flushed } } := by
  have some : (s.hubs.get .zero f).ring.dropped ≠ 0 := some
  simp [State.flushRing, some, open_, State.hub, Ring.moved, Ring.flushed]

/-- A ring whose records are all flushed drops none. -/
theorem Ring.put_dropped {r : Ring} (h : ∀ e ∈ r.held, e.2 = true) (x : Record) : (r.put x).dropped = r.dropped := by
  obtain room | full := Nat.lt_or_ge r.held.length 1024
  · rw [Ring.put_of_room room]
  · rw [Ring.put_of_full full]
    cases held : r.held with
    | nil => simp [held] at full
    | cons e rest =>
      have : e.2 = true := h e (held ▸ List.mem_cons_self)
      simp [takeFirst, this]

theorem Ring.flushed_all (r : Ring) : ∀ e ∈ r.flushed.held, e.2 = true := by simp [Ring.flushed]

end Sys2Proof.Machine

namespace Sys2Proof
open Sys2Proof.Machine

/-- Settles O46. -/
theorem ringsTakeRecords : Obligations.RingsTakeRecords := by
  refine ⟨fun r x => ⟨fun room => ?_, fun older newer y full held old => ?_, fun full new => ?_, fun le => Ring.put_length le x⟩,
    fun s f here wf due open_ => ⟨_, exec_ringFlush here due open_, ?_⟩⟩
  · rw [Ring.put_of_room room]
    exact ⟨rfl, rfl⟩
  · rw [Ring.put_of_full full, held, takeFirst_of_first rfl newer old]
    exact ⟨rfl, rfl⟩
  · rw [Ring.put_of_full full, takeFirst_of_none new]
    exact ⟨rfl, rfl⟩
  · have at_f (h : Hub) : (s.hubs.set .zero f h).get .zero f = h := SMap.get_set_same _ _ (.inl wf)
    by_cases none : (s.hub f).ring.dropped = 0
    · rw [State.flushRing_none none]
      simp only [State.hub, at_f]
      exact ⟨none, Ring.flushed_unflushed _, rfl, fun _ => ⟨Ring.flushed_records _, rfl⟩, fun some => absurd none some, fun some => absurd none some⟩
    by_cases frozen : s.ringFrozen f = true
    · obtain ⟨ring, flash, holding⟩ := State.hubNote_frozen (s := s.ringEmptied f) (SMap.wf_set wf _ _) frozen recLost 1 0 noPlace
        (leBytes 4 (s.hub f).ring.dropped)
      rw [State.flushRing_frozen none frozen]
      have emptied : (s.ringEmptied f).hub f = { (s.hub f) with ring := { (s.hub f).ring.flushed with dropped := 0 } } := at_f _
      rw [emptied] at ring holding
      rw [ring]
      refine ⟨rfl, Ring.flushed_unflushed _, rfl, fun zero => absurd zero none, fun _ _ room => ⟨flash, _, rfl, rfl, rfl, holding room⟩,
        fun _ not => ?_⟩
      rw [frozen] at not
      cases not
    · rw [Bool.not_eq_true] at frozen
      rw [State.flushRing_open none frozen]
      simp only [State.hub, at_f]
      refine ⟨?_, Ring.flushed_unflushed _, rfl, fun zero => absurd zero none, fun _ yes => ?_, fun _ _ => ⟨_, rfl, rfl, rfl, rfl⟩⟩
      · exact Ring.put_dropped (r := { (s.hubs.get .zero f).ring.flushed with dropped := 0, seq := _ }) (Ring.flushed_all _) _
      · rw [frozen] at yes
        cases yes

end Sys2Proof
end

section
/-!
Settles O4: MOVE operations that issue, and CTL and TALLY ones for O3.
-/
namespace Sys2Proof.Machine

variable {s : State} {c : Coord} {i : Iteration}

/-- What an iteration's operation does at its cell. -/
def Iteration.run (i : Iteration) : List Effect × Work := i.start.execute i.fold i.pos.entry i.pos.iter i.entry i.ok i.got

/-- An iteration that issues, once it is known what its operation does. -/
theorem Issues.next (h : Issues s c i) {cls op : Nat} (hc : i.entry.cls = cls) (ho : i.entry.op = op) {fx : List Effect} {w : Work}
    (e : i.run = (fx, w)) : atCell c (s.issueCycle c cls op) = i.next s fx w := by
  rw [h.issueCycle hc ho, ← Iteration.run, e]

/-- One whose operation gives a value to the entry's destination. -/
theorem Issues.gives (h : Issues s c i) {cls op : Nat} (hc : i.entry.cls = cls) (ho : i.entry.op = op) {v : Payload}
    (e : i.run = i.start.putResult i.entry i.kind i.ok i.fold i.pos.iter v) : atCell c (s.issueCycle c cls op) = i.gives s v :=
  h.next hc ho e

theorem controlOperations : Claims.ControlOperations := by
  intro s c i h hc
  refine ⟨fun ho => h.next hc ho ?_, fun ho => h.next hc ho ?_, fun ho => h.next hc ho ?_, fun ho => h.next hc ho ?_, fun ho => h.next hc ho ?_⟩
  all_goals simp only [Iteration.run, Work.execute, hc, ho]
  all_goals rfl

theorem tallyOperations : Claims.TallyOperations := by
  intro s c i h hc
  have kind : i.start.here.kind = i.kind := rfl
  refine ⟨fun t ho hd => h.next hc ho ?_, fun t ho hd => h.next hc ho ?_⟩
  all_goals
    simp only [Iteration.run, Work.execute, hc, ho, kind, hd]
    rfl

end Sys2Proof.Machine

namespace Sys2Proof
open Sys2Proof.Machine

/-- Settles O4. -/
theorem moveOperations : Obligations.MoveOperations := by
  intro s c i h hc
  refine ⟨fun ho => h.gives hc ho ?_, fun ho => h.gives hc ho ?_, fun ho => h.gives hc ho ?_⟩
  all_goals simp only [Iteration.run, Work.execute, hc, ho]
  · rfl
  · show i.start.putResult i.entry i.kind i.ok i.fold i.pos.iter (poisonOr (i.a.poisoned || _) i.width _) = _
    cases e : i.read .scale with
    | none => simp only [Iteration.read] at e; rw [e]; rfl
    | some v => simp only [Iteration.read] at e; rw [e]; rfl
  · rfl

end Sys2Proof
end

section
/-!
Settles O5, O6, O7 and O8: TENSOR, VECTOR, FUNC and MEM operations that issue.
-/
namespace Sys2Proof
open Sys2Proof.Machine

/-- Settles O5. -/
theorem tensorOperations : Obligations.TensorOperations := by
  intro s c i h hc
  have kind : i.start.here.kind = i.kind := rfl
  refine ⟨fun n ho hd => ?mac, fun n ho ha => h.next hc ho ?out, fun n ho ha => h.gives hc ho ?spill, fun n ho hd => h.next hc ho ?fill,
    fun n ho hd => h.next hc ho ?anchor⟩
  case mac =>
    split
    next misfit =>
      refine h.next hc ho ?_
      simp only [Iteration.run, Work.execute, hc, ho, kind, hd, misfit, if_true]
    next fits =>
      refine h.next hc ho ?_
      simp only [Iteration.run, Work.execute, hc, ho, kind, hd, fits]
      rfl
  case out =>
    simp only [Iteration.run, Work.execute, hc, ho, kind, ha]
    rfl
  case spill => simp only [Iteration.run, Work.execute, hc, ho, kind, ha]
  case fill =>
    simp only [Iteration.run, Work.execute, hc, ho, kind, hd]
    rfl
  case anchor =>
    simp only [Iteration.run, Work.execute, hc, ho, kind, hd]
    rfl

/-- Settles O6. -/
theorem vectorOperations : Obligations.VectorOperations := by
  intro s c i h hc
  have kind : i.start.here.kind = i.kind := rfl
  refine ⟨fun row mem ho => ?_, fun row mem ho => ?_⟩
  · simp only [List.mem_cons, List.not_mem_nil, or_false] at mem
    obtain rfl | rfl | rfl | rfl | rfl | rfl | rfl | rfl := mem
    all_goals
      refine h.gives hc ho ?_
      simp only [Iteration.run, Work.execute, hc, ho]
      rfl
  · simp only [List.mem_cons, List.not_mem_nil, or_false] at mem
    obtain rfl | rfl := mem
    all_goals
      dsimp only at ho ⊢
      split
      next hd =>
        refine h.next hc ho ?_
        simp only [Iteration.run, Work.execute, hc, ho, kind, hd]
        rfl
      next hd =>
        refine h.gives hc ho ?_
        simp only [Iteration.run, Work.execute, hc, ho, kind, beq_iff_eq, hd]
        rfl

/-- Settles O7. -/
theorem functionOperations : Obligations.FunctionOperations := by
  intro s c i h hc
  have kind : i.start.here.kind = i.kind := rfl
  refine ⟨fun row mem ho => ?_, fun ho => h.gives hc ho ?_, fun ho => h.gives hc ho ?_, fun ho => ⟨fun v found => h.next hc ho ?_, fun none => h.next hc ho ?_⟩⟩
  · simp only [List.mem_cons, List.not_mem_nil, or_false] at mem
    obtain rfl | rfl | rfl | rfl | rfl | rfl | rfl | rfl | rfl | rfl | rfl := mem
    all_goals
      refine h.gives hc ho ?_
      simp only [Iteration.run, Work.execute, hc, ho]
      rfl
  · simp only [Iteration.run, Work.execute, hc, ho]
    rfl
  · simp only [Iteration.run, Work.execute, hc, ho]
    rfl
  · simp only [Iteration.run, Work.execute, hc, ho, kind]
    simp only [Iteration.a, Iteration.read] at found ⊢
    generalize i.start.lookup _ _ _ _ _ = r at found ⊢
    obtain ⟨_, u⟩ := r
    cases found
    rfl
  · simp only [Iteration.run, Work.execute, hc, ho, kind]
    simp only [Iteration.a, Iteration.read] at none ⊢
    generalize i.start.lookup _ _ _ _ _ = r at none ⊢
    obtain ⟨_, u⟩ := r
    cases none
    cases i.entry.d i.kind <;> rfl

/-- Settles O8. -/
theorem memoryOperations : Obligations.MemoryOperations := by
  intro s c i h hc
  have kind : i.start.here.kind = i.kind := rfl
  refine ⟨fun row g mem ho hd hold ok free => ?_, fun row g o mem ho hd hold ok free ok' free' => ?_, fun ho => h.gives hc ho ?_, fun g ho ha => h.next hc ho ?_⟩
  · simp only [List.mem_cons, List.not_mem_nil, or_false] at mem
    obtain rfl | rfl | rfl | rfl := mem
    all_goals
      refine h.next hc ho ?_
      simp only [Iteration.run, Work.execute, hc, ho, kind, hd, hold, ok, free]
      rfl
  · simp only [List.mem_cons, List.not_mem_nil, or_false] at mem
    obtain rfl | rfl | rfl | rfl := mem
    all_goals
      refine h.next hc ho ?_
      simp only [Iteration.run, Work.execute, hc, ho, kind, hd, hold, ok, free, ok', free']
      rfl
  · simp only [Iteration.run, Work.execute, hc, ho]
    rfl
  · simp only [Iteration.run, Work.execute, hc, ho, kind, Iteration.a, Iteration.read, ha]

end Sys2Proof
end

section
/-!
Settles O9: MESH operations that issue.
-/
namespace Sys2Proof.Machine

variable {s : State} {c : Coord} {i : Iteration}

/-- What the reads of an iteration leave alone. -/
theorem Issues.still (h : Issues s c i) : (s.readied c).Still i.work := by
  have still := Work.grantReads_still i.fold i.pos.entry i.pos.iter (s.readied c).cell.seq.cycle
    (i.entry.reads (s.readied c).here.kind (s.readied c).cell.pointer) (s.readied c) [] [] []
  rwa [h.granted] at still

/-- A MESH operation that issues has a free tag (R41, R194). -/
theorem Issues.freeTag (h : Issues s c i) (hc : i.entry.cls = 6) : ∃ tag, i.start.cell.freeTag 0 i.start.now = some tag := by
  have same : i.start.cell.freeTag 0 i.start.now = (s.readied c).cell.freeTag 0 (s.readied c).now := by
    unfold Cell.freeTag
    rw [show i.start.cell.mesh = (s.readied c).cell.mesh from h.still.mesh, show i.start.now = (s.readied c).now from h.still.now]
  have fires := h.fires
  unfold Work.canFire at fires
  have moves : (i.entry.rep == 0) = false := by simpa using h.moves
  simp only [← h.atPos, ← h.atEntry, moves, Bool.false_or, Bool.and_eq_true] at fires
  have rest := fires.2
  unfold Work.restOk at rest
  simp only [Bool.and_eq_true, hc, Bool.not_eq_true'] at rest
  rw [same]
  cases e : (s.readied c).cell.freeTag 0 (s.readied c).now with
  | some tag => exact ⟨tag, rfl⟩
  | none => simp [e] at rest

/-- The number of the MESH_TARGET that a MESH operation's entry names: its destination, or its source where that names none (R37). -/
def Entry.targetNo (e : Entry) (k : CellKind) : Nat :=
  match e.a k, e.d k with
  | _, .mesh n => n
  | .mesh n, _ => n
  | _, _ => 0

theorem Entry.targetNo_eq {e : Entry} {k : CellKind} {n : Nat} (h : e.d k = .mesh n ∨ (e.a k = .mesh n ∧ ∀ m, e.d k ≠ .mesh m)) :
    e.targetNo k = n := by
  unfold Entry.targetNo
  obtain h | ⟨ha, hd⟩ := h
  · rw [h]
  · cases e : e.d k with
    | mesh m => exact absurd e (hd m)
    | _ => rw [ha]

/-- The request that a MESH operation with a free tag makes outstanding (R58, R188). -/
def Work.meshRequest (w : Work) (f : Nat) (e : Entry) (k : CellKind) (iter : Nat) (data : Payload) (tag : Nat) : Outstanding :=
  let t := w.cell.regs.targetOf (e.targetNo k)
  let seq := w.cell.mesh.seqBits.get false tag
  { pkt := {
      type := [1, 2, 3, 4].getD e.op 6, epoch := w.epoch, seq, attempt := 0, age := w.now % 4, dst := t.dst, src := w.here, req := 0, tag
      offset := if e.op = 2 then e.imm else (t.offset + iter * e.width k) % 2 ^ 24
      aux := if e.op = 2 then 0 else if e.op < 4 then e.width k else e.mod + 16
      tally := if e.op = 1 then 0 else t.tally, tallyEn := if e.op = 1 then false else t.tallyEn
      flock := if e.op = 3 then e.imm % 4096 else 0
      payload := if e.op = 1 ∨ e.op = 2 then [] else data
      entries := if e.op < 4 then [] else [{ at_ := w.here, req := 0, tag, seq, attempt := 0, byte := 0, len := 0 }]
      crc := 0, left := none }
    sentAt := w.now, resent := false
    local_ := match e.op, e.d k with | 1, .spad g => some (w.cell.pointer g) | _, _ => none
    arrival := if e.op = 1 ∧ t.tallyEn then some t.tally else none
    by_ := { fold := f, entry := (w.cell.seq.folds.get .zero f).entry, iter }
    line := 0, acks := 0, drops0 := 0, drops1 := 0, members := none }

theorem Work.meshIssue_eq {w : Work} {tag : Nat} (free : w.cell.freeTag 0 w.now = some tag) (f : Nat) (e : Entry) (k : CellKind) (iter : Nat)
    (data : Payload) :
    w.meshIssue f e k iter data = ([.send tag], w.mapMesh fun m => { m with
      out := m.out ++ [w.meshRequest f e k iter data tag], seqBits := m.seqBits.set false tag (!w.cell.mesh.seqBits.get false tag) }) := by
  unfold Work.meshIssue
  rw [free]
  simp only [Work.meshRequest]
  generalize e.op = op
  obtain _ | _ | _ | _ | op := op
  case succ.succ.succ.succ =>
    have red : ¬ op + 1 + 1 + 1 + 1 < 4 := by omega
    simp only [red]
    rfl
  all_goals rfl

end Sys2Proof.Machine

namespace Sys2Proof
open Sys2Proof.Machine

/-- Settles O9. -/
theorem meshOperations : Obligations.MeshOperations := by
  intro s c i h hc row mem ho
  obtain ⟨tag, free⟩ := h.freeTag hc
  have run : i.run = i.start.meshIssue i.fold i.entry i.kind i.pos.iter i.a := by
    unfold Iteration.run Work.execute
    rw [hc]
    rfl
  rw [Work.meshIssue_eq free] at run
  refine ⟨tag, i.start.meshRequest i.fold i.entry i.kind i.pos.iter i.a tag, free, ?_⟩
  simp only [List.mem_cons, List.not_mem_nil, or_false] at mem
  obtain rfl | rfl | rfl | rfl | rfl := mem
  all_goals
    refine ⟨h.next hc ho run, by simp [Work.meshRequest, ho], rfl, rfl, rfl, rfl, rfl, rfl, rfl, fun n target => ?_, ?_⟩
    · obtain rfl := Entry.targetNo_eq target
      simp [Work.meshRequest, ho, Iteration.width]
    · simp +contextual [Work.meshRequest, ho, Iteration.width]

end Sys2Proof
end

section
/-!
Settles O1, O3, O17 and O58: the queue's front, CTL operations, faults and the settings at reset.
-/
namespace Sys2Proof.Machine

/-- A round is entered: the arrival is posted and the signal pends (R256). -/
theorem musterEnter_holds : Claims.MusterEnter := by
  intro s c i h hc ho
  have run : i.run = ([], i.start.musterEnter i.fold i.pos.entry i.pos.iter i.entry) := by
    simp only [Iteration.run, Work.execute, hc, ho]
  refine ⟨fun room => ⟨_, h.next hc ho run, ?_⟩, fun full => ⟨_, h.next hc ho run, ?_⟩⟩
  · unfold Work.musterEnter
    dsimp only
    rw [if_pos room]
    refine ⟨rfl, SMap.get_set_same _ _ (.inr ?_), rfl, rfl⟩
    simp
  · unfold Work.musterEnter
    dsimp only
    rw [if_neg (Nat.not_lt.mpr full)]
    exact ⟨rfl, rfl, rfl, rfl⟩

end Sys2Proof.Machine

namespace Sys2Proof
open Sys2Proof.Machine

/-- Settles O3. -/
theorem sequencerControl : Obligations.SequencerControl := ⟨controlOperations, musterEnter_holds, tallyOperations⟩

/-- Settles O1. -/
theorem stepRunsTheFront : Obligations.StepRunsTheFront := by
  intro s c rest h
  unfold step
  rw [h]

/-- Settles O58: reset is a fresh state over an empty flash. -/
theorem resetIsLegal : Obligations.ResetIsLegal := State.fresh_legal (by decide)

/-- Settles O17. -/
theorem faultLatch : Obligations.FaultLatch := by
  intro w code f e i d
  refine ⟨fun some => ?_, fun none => ?_, rfl, ?_, rfl, rfl, rfl, rfl, rfl⟩
  · obtain ⟨r, h⟩ := Option.isSome_iff_exists.mp some
    simp [FaultState.raise, h]
  · simp [FaultState.raise, none]
  · unfold Work.raise
    dsimp only
    split
    next stops => simp [stops]
    next goes => simp [goes]

end Sys2Proof
end

section
/-!
Settles O2, O18 and O56: an idle step, tokens and credits that arrive, and what reset leaves.
-/
namespace Sys2Proof.Machine

/-! ### The tick (R370) -/

theorem SMap.get_mapVals {α : Type} [DecidableEq α] {d : α} {f : Nat → α → α} {k : Nat} (keep : f k d = d) :
    ∀ {m : SMap α} {lo : Nat}, m.rising lo = true → (m.mapVals d f).get d k = f k (m.get d k)
  | [], _, _ => keep.symm
  | (j, v) :: rest, lo, h => by
    simp only [SMap.rising, Bool.and_eq_true] at h
    have ih := SMap.get_mapVals keep h.2
    unfold SMap.mapVals
    by_cases same : j = k
    · subst same
      have below : SMap.get d rest j = d := SMap.get_below d h.2 (Nat.lt_succ_self j)
      by_cases gone : f j v = d
      · rw [if_pos gone, ih, below, keep, SMap.get, if_pos rfl, gone]
      · rw [if_neg gone, SMap.get, if_pos rfl, SMap.get, if_pos rfl]
    · by_cases gone : f j v = d
      · rw [if_pos gone, ih, SMap.get, if_neg same]
      · rw [if_neg gone, SMap.get, if_neg same, ih, SMap.get, if_neg same]

theorem SMap.rising_of_wf {α : Type} [DecidableEq α] {d : α} {m : SMap α} (h : m.wf d = true) : m.rising 0 = true := (Bool.and_eq_true_iff.mp h).1

theorem Coord.ofKey_key {c : Coord} (h : c.present = true) : Coord.ofKey c.key = c := by
  have range : c.x < 960 := by
    unfold Coord.present Coord.field? at h
    split at h
    next inside => exact inside.1
    next => cases h
  obtain ⟨x, y⟩ := c
  simp only [Coord.ofKey, Coord.key, Coord.mk.injEq] at range ⊢
  omega

/-- A cell once its port's age has run on. -/
def Cell.aged (now d : Nat) (x : Cell) : Cell := if x.portRunsOut now d then { x with mesh := { x.mesh with port := none } } else x

theorem State.advanceTo_cell {s : State} (wf : s.cells.wf .reset = true) (t : Nat) (c : Coord) :
    (s.advanceTo t).cell c = (s.cell c).aged s.clock (t - s.clock) :=
  SMap.get_mapVals (f := fun _ x => Cell.aged s.clock (t - s.clock) x) rfl (SMap.rising_of_wf wf)

theorem Cell.aged_tables (x : Cell) (now d : Nat) : let y := x.aged now d
    y.regs = x.regs ∧ y.pad = x.pad ∧ y.tallies = x.tallies ∧ y.fab = x.fab ∧ y.seq = x.seq ∧ y.mode = x.mode := by
  unfold Cell.aged
  split <;> exact ⟨rfl, rfl, rfl, rfl, rfl, rfl⟩

/-- A cell once its sheepdog has looked (R59). -/
def State.looked (s : State) (k : Nat) (x : Cell) : Cell :=
  if x.mode = .running ∧ !(s.work (Coord.ofKey k)).watched then { x with seq := { x.seq with stallFrom := s.clock, barked := false } } else x

theorem State.tick_cell {s : State} (wf : s.cells.wf .reset = true) (c : Coord) :
    s.tick.cell c = (s.advanceTo (s.clock + 1)).looked c.key ((s.advanceTo (s.clock + 1)).cell c) :=
  SMap.get_mapVals (f := (s.advanceTo (s.clock + 1)).looked) (by simp [State.looked, Cell.reset]) (SMap.rising_mapVals _ _ (SMap.rising_of_wf wf))

end Sys2Proof.Machine

namespace Sys2Proof
open Sys2Proof.Machine

/-- Settles O2. -/
theorem idleStepTicks : Obligations.IdleStepTicks := by
  intro s none wf u
  have answer : step s = .next s.tick := by
    unfold step
    rw [none]
  refine ⟨s.tick, answer, ?_, none, rfl, rfl, rfl, rfl, rfl, fun c here => ?_⟩
  · show max s.clock (s.clock + 1) = s.clock + 1
    omega
  have now : u.clock = s.clock + 1 := by
    show max s.clock (s.clock + 1) = s.clock + 1
    omega
  obtain ⟨regs, pad, tallies, fab, seq, mode⟩ := (s.cell c).aged_tables s.clock (s.clock + 1 - s.clock)
  rw [← State.advanceTo_cell wf] at regs pad tallies fab seq mode
  rw [State.tick_cell wf, ← regs, ← pad, ← tallies, ← fab, ← seq, ← mode, State.looked, Coord.ofKey_key here]
  split
  next stalls =>
    refine ⟨rfl, rfl, rfl, rfl, fun no => ?_, fun _ _ => ⟨now, rfl⟩⟩
    obtain no | no := no
    · exact absurd stalls.1 no
    · have free : ((s.advanceTo (s.clock + 1)).work c).watched = true := no
      simp [free] at stalls
  next other => exact ⟨rfl, rfl, rfl, rfl, fun _ => rfl, fun runs free => absurd ⟨runs, (Bool.not_eq_true' _).mpr free⟩ other⟩

/-- Settles O56. -/
theorem resetHolds : Obligations.ResetHolds := by
  refine ⟨rfl, rfl, rfl, rfl, rfl, rfl, rfl, fun c => ⟨rfl, rfl, rfl, rfl, rfl, rfl, rfl, fun k => ⟨rfl, rfl, rfl, rfl, rfl, rfl, rfl, rfl⟩⟩,
    fun east => ?_, rfl, rfl, rfl, rfl, rfl, rfl, rfl, rfl, rfl, rfl, rfl, rfl, fun p => ⟨rfl, rfl, rfl⟩, rfl, rfl, rfl, rfl, rfl,
    fun n => ⟨rfl, rfl⟩, rfl⟩
  cases east <;> exact ⟨rfl, rfl, rfl, rfl, rfl, rfl⟩

end Sys2Proof

namespace Sys2Proof.Machine

/-! ### Tokens and credits that arrive (R133, R141) -/

theorem Token.corrupt_none (t : Token) : t.corrupt { sideband := false, flips := [] } = t := by
  have same : (t.payload.zip (List.range t.payload.length)).map (fun b => b.1) = t.payload := List.map_fst_zip (by simp)
  simp [Token.corrupt, same]

theorem Token.corrupt_sideband {t : Token} (h : t.sideBad = false) : (t.corrupt { sideband := true, flips := [] }).sideBad = true := by
  simp [Token.corrupt, h]

theorem exec_tokenArrival {s : State} {c : Coord} {port : Nat} {err : TokenErr} (here : c.present = true) (in_ : port < 56) :
    exec (.tokenArrival c port err) s = .next (s.tokenArrives c port err) := if_pos (by simp [here, in_])

/-- A token whose sideband and payload are good. -/
structure Token.Good (t : Token) : Prop where
  side    : t.sideBad = false
  payload : t.payload.parityError = false
  ctl     : t.ctlBad = false

theorem Work.tokenArrive_good {t : Token} (h : t.Good) (w : Work) (p : Nat) :
    w.tokenArrive p t =
      if w.cell.fab.sweep && t.gen != w.cell.regs.gen then w.mapFab fun fb => { fb with stale := satAdd 0xFFFF fb.stale 1 }
      else if w.cell.regs.slice p t.tag = 0 then w.raiseHere Codes.foldPartition p
      else w.mapFab fun fb => { fb with slices := fb.slices.upd [] (8 * p + t.tag) (· ++ [t]) } := by
  simp [Work.tokenArrive, h.side, h.payload, h.ctl]

theorem Work.tokenArrive_sideBad {t : Token} (h : t.sideBad = true) (w : Work) (p : Nat) :
    w.tokenArrive p t = (w.mapFab fun fb => { fb with linkParity := satAdd 0xFFFF fb.linkParity 1 }).raiseHere Codes.parityLink p := by
  simp [Work.tokenArrive, h]

/-- A token of the current generation, or outside a sweep, is not stale (R155). -/
theorem Token.current {t : Token} {w : Work} (h : w.cell.fab.sweep = false ∨ t.gen = w.cell.regs.gen) :
    (w.cell.fab.sweep && t.gen != w.cell.regs.gen) = false := by
  obtain idle | same := h
  · exact Bool.and_eq_false_iff.mpr (.inl idle)
  · exact Bool.and_eq_false_iff.mpr (.inr (bne_eq_false_iff_eq.mpr same))

/-- The state with a token taken off its wire. -/
def State.tokenTaken (s : State) (c : Coord) (port : Nat) (rest : List Token) : State :=
  s.setCell c { s.cell c with fab := { (s.cell c).fab with wires := (s.cell c).fab.wires.set [] port rest } }

/-- What a token on the wire of a cell in service comes to. -/
theorem State.tokenArrives_eq {s : State} {c : Coord} {port : Nat} {t : Token} {rest : List Token} {err : TokenErr} (alive : (s.cell c).mode ≠ .dead)
    (kept : (s.cell c).mode ≠ .fenced) (wire : (s.cell c).fab.wires.get [] port = t :: rest) :
    s.tokenArrives c port err =
      (if (t.corrupt err).sideBad || (t.corrupt err).payload.parityError || (t.corrupt err).ctlBad then
        { s.tokenTaken c port rest with
          defects := (s.tokenTaken c port rest).defects.countFabric (edgeNetwork c (trackDir port) (networkOf port)) }
      else s.tokenTaken c port rest).event c fun w => w.tokenArrive port (t.corrupt err) := by
  unfold State.tokenArrives
  simp only [alive, kept, or_self, if_false, wire]
  rfl

theorem tokenArrivals : Claims.TokenArrivals := by
  intro s c port t rest here in_ alive kept wire
  refine ⟨fun side parity ctl => ?_, fun side => ?_⟩
  · have good : t.Good := ⟨side, parity, ctl⟩
    have come : s.tokenArrives c port { sideband := false, flips := [] } = (s.tokenTaken c port rest).event c fun w => w.tokenArrive port t := by
      rw [State.tokenArrives_eq alive kept wire, Token.corrupt_none, side, parity, ctl]
      rfl
    refine ⟨fun gen slice => ?_, fun sweep old => ?_, fun gen slice => ?_⟩
    all_goals rw [exec_tokenArrival here in_, come, State.event, Work.tokenArrive_good good]
    · have slice : ((s.tokenTaken c port rest).work c).cell.regs.slice port t.tag ≠ 0 := slice
      rw [Token.current (w := (s.tokenTaken c port rest).work c) gen, if_neg (by decide), if_neg slice]
      rfl
    · have stale : (((s.tokenTaken c port rest).work c).cell.fab.sweep && t.gen != ((s.tokenTaken c port rest).work c).cell.regs.gen) = true :=
        Bool.and_eq_true_iff.mpr ⟨sweep, bne_iff_ne.mpr old⟩
      rw [stale, if_pos rfl]
      rfl
    · have slice : ((s.tokenTaken c port rest).work c).cell.regs.slice port t.tag = 0 := slice
      rw [Token.current (w := (s.tokenTaken c port rest).work c) gen, if_neg (by decide), if_pos slice]
      rfl
  · have bad := Token.corrupt_sideband side
    rw [exec_tokenArrival here in_, State.tokenArrives_eq alive kept wire, bad, Bool.true_or, Bool.true_or, if_pos rfl, State.event,
      Work.tokenArrive_sideBad bad]
    rfl

theorem SMap.get_credits {m wire : SMap Nat} {k : Nat} : ∀ {lo : Nat}, m.wf 0 = true → wire.rising lo = true → wire.all (fun e => decide (e.2 ≠ 0)) = true →
    (wire.foldl (fun (m : SMap Nat) e => m.upd 0 e.1 fun n => min 16 (n + e.2)) m).get 0 k =
      if wire.get 0 k = 0 then m.get 0 k else min 16 (m.get 0 k + wire.get 0 k) := by
  induction wire generalizing m with
  | nil => intros; rfl
  | cons e wire ih =>
    intro lo wf rising nonzero
    simp only [SMap.rising, Bool.and_eq_true, List.all_cons, decide_eq_true_eq] at rising nonzero
    rw [List.foldl_cons, ih (SMap.wf_upd wf ..) rising.2 nonzero.2]
    obtain ⟨j, v⟩ := e
    by_cases same : j = k
    · subst same
      have below : SMap.get 0 wire j = 0 := SMap.get_below 0 rising.2 (Nat.lt_succ_self j)
      rw [if_pos below, SMap.get_upd_same wf, SMap.get, if_pos rfl, if_neg nonzero.1]
    · rw [SMap.get_upd_other _ (Ne.symm same), SMap.get, if_neg same]


theorem State.setCell_cell_same {s : State} (wf : s.cells.wf .reset = true) (c : Coord) (x : Cell) : (s.setCell c x).cell c = x :=
  SMap.get_set_same _ _ (.inl wf)

theorem State.setCell_cell_other {s : State} {c d : Coord} (h : d.key ≠ c.key) (x : Cell) : (s.setCell c x).cell d = s.cell d :=
  SMap.get_set_other _ h

theorem creditReturn : Claims.CreditReturn := by
  intro s c here wf credits wire
  refine ⟨s.mapCell c fun x => { x with fab := x.fab.creditsBack }, if_pos here, ?_⟩
  unfold State.mapCell
  rw [State.setCell_cell_same wf]
  obtain ⟨rising, nonzero⟩ := Bool.and_eq_true_iff.mp wire
  exact ⟨rfl, fun k => SMap.get_credits credits rising nonzero, rfl, rfl, rfl, rfl, fun d other => State.setCell_cell_other other _, rfl, rfl⟩

end Sys2Proof.Machine

namespace Sys2Proof
open Sys2Proof.Machine

/-- Settles O18. -/
theorem fabricLinks : Obligations.FabricLinks := ⟨tokenArrivals, creditReturn⟩

end Sys2Proof
end

section
/-!
Settles O12 and O20: commits, grants and the sheepdog of a cell, and the units that pair tokens.
-/
namespace Sys2Proof.Machine

/-! ### Pairing units (R148–R152) -/

/-- Heads that pair (R149, R152). -/
theorem PairUnit.pairs_one {q : PairUnit} {a ct : Token} {data ctrl : List Token} (hd : q.data = a :: data) (hc : q.ctrl = ct :: ctrl) (tag : a.tag = ct.tag)
    (gen : a.gen = ct.gen) : q.pairs 1 = true := by
  simp [PairUnit.pairs, hd, hc, tag, gen]

theorem PairUnit.pairs_two {q : PairUnit} {a b ct : Token} {data ctrl : List Token} (hd : q.data = a :: b :: data) (hc : q.ctrl = ct :: ctrl)
    (tag : a.tag = ct.tag) (gen : a.gen = ct.gen) (tag' : b.tag = ct.tag) (gen' : b.gen = ct.gen) : q.pairs 2 = true := by
  simp [PairUnit.pairs, hd, hc, tag, gen, tag', gen']

/-- A unit that fires is one change of its cell. -/
theorem exec_steerFire {s : State} {c : Coord} {u : Nat} {x : Cell} (here : c.present = true) (in_ : u < 4) (h : (s.cell c).steerFire u = some x) :
    exec (.steerFire c u) s = .next (s.setCell c x) := by
  have e : exec (.steerFire c u) s = .next (s.orSame (((s.cell c).steerFire u).map (s.setCell c))) := if_pos (by simp [here, in_])
  rw [e, h]
  rfl

theorem exec_junctionFire {s : State} {c : Coord} {j : Nat} {x : Cell} (here : c.present = true) (in_ : j < 2) (h : (s.cell c).junctionFire j = some x) :
    exec (.junctionFire c j) s = .next (s.setCell c x) := by
  have e : exec (.junctionFire c j) s = .next (s.orSame (((s.cell c).junctionFire j).map (s.setCell c))) := if_pos (by simp [here, in_])
  rw [e, h]
  rfl

theorem steeringFires : Claims.SteeringFires := by
  intro s c u f ct a ctrl rest here in_ fold x cfg q hctrl tag gen credit fired
  refine ⟨fun b pair hdata tag' gen' => exec_steerFire here in_ ?_, fun mask hdata => exec_steerFire here in_ ?_⟩
  · have pairs := PairUnit.pairs_two hdata hctrl tag gen tag' gen'
    simp only [cfg, q, x] at pair pairs credit hctrl hdata
    simp [Cell.steerFire, fold, pair, pairs, credit, hctrl, hdata, cfg, q, x]
  · have pairs := PairUnit.pairs_one hdata hctrl tag gen
    simp only [cfg, q, x] at mask pairs credit hctrl hdata
    simp [Cell.steerFire, fold, mask, pairs, credit, hctrl, hdata, cfg, q, x]

theorem junctionFires : Claims.JunctionFires := by
  intro s c j f a b data ctrl here in_ fold x q hdata hctrl tag gen credit new
  have pairs := PairUnit.pairs_one hdata hctrl tag gen
  refine exec_junctionFire here in_ ?_
  unfold Cell.junctionFire
  rw [fold]
  dsimp only
  rw [show (s.cell c).fab.junction.get .zero j = q from rfl, pairs, show (s.cell c).unitCredit f 4 j q.out.length = true from credit, hdata, hctrl]
  rfl

theorem steeringTimesOut : Claims.SteeringTimesOut := by
  intro s c u here in_ w q waits unpaired fresh new
  have e : exec (.steerTimeout c u) s = .next (s.event? c fun w => w.steerTimeout u) := if_pos (by simp [here, Nat.lt_of_lt_of_le in_ (by decide : 4 ≤ 6)])
  have out : w.steerTimeout u = some ((w.mapFab fun fb => { fb with steer := fb.steer.set .zero u new }).raiseHere Codes.steerTimeout u) := by
    unfold Work.steerTimeout
    simp only [in_, if_true]
    rw [show w.cell.fab.steer.get .zero u = q from rfl, waits, unpaired, fresh]
    rfl
  rw [e, State.event?, out]
  rfl

/-! ### Commits and grants (R44, R95, R113, R115) -/

/-- The iteration whose commit comes first is the oldest where none falls due before it. -/
theorem Inflight.first_of_le {i : Inflight} : ∀ {rest : List Inflight}, (∀ j ∈ rest, i.due ≤ j.due) →
    rest.foldl (fun (m : Inflight) j => if j.due < m.due then j else m) i = i
  | [], _ => rfl
  | j :: rest, h => by
    rw [List.foldl_cons, if_neg (Nat.not_lt.mpr (h j List.mem_cons_self))]
    exact Inflight.first_of_le fun k hk => h k (List.mem_cons_of_mem _ hk)

theorem exec_event? {s : State} {c : Coord} {f : Work → Option Work} {w : Work} (h : f (s.work c) = some w) : s.event? c f = s.absorb w := by
  rw [State.event?, h]
  rfl

theorem exec_iterationCommit {s : State} {c : Coord} {i : Inflight} {rest : List Inflight} (here : c.present = true)
    (flight : (s.work c).cell.seq.inflight = i :: rest) (first : ∀ j ∈ rest, i.due ≤ j.due) :
    let w := if (s.work c).cell.seq.cycle < i.due then (s.work c).intoCycle i.due else s.work c
    exec (.iterationCommit c) s = .next (s.absorb ((w.mapSeq fun q => { q with inflight := q.inflight.erase i }).commitOne i)) := by
  have e : exec (.iterationCommit c) s = .next (s.event? c Work.nextCommit) := if_pos here
  rw [e, exec_event?]
  unfold Work.nextCommit
  simp only [flight, Inflight.first_of_le first]

/-- An access that waits at the mesh port, and that can be made (R112, R114). -/
theorem State.portAccess_of {s : State} {c : Coord} {p : Packet} {since : Nat} {w : Work} (port : (s.work c).cell.mesh.port = some (p, since))
    (h : ({ ((s.work c).mapMesh fun m => { m with port := none }) with asked := since } : Work).access (s.dmaWait c) p = some w) :
    s.event? c (fun w => w.portAccess (s.dmaWait c)) = s.absorb { w with asked := (s.work c).asked } := by
  refine exec_event? ?_
  unfold Work.portAccess
  simp only [port, h]
  rfl

/-- A late write that its bank grants takes effect, with its iteration's signal. -/
theorem Work.finish_of_granted {w : Work} {i : Inflight} {addr : Nat} {data : Payload} {mem : Bool} (fx : i.effects = [.spad addr data mem])
    (grant : w.grants i.due 5 (addr / 64) true = true) : w.finish i = (w.applyEffect i (.spad addr data mem)).applySignal i := by
  simp [Work.finish, fx, Work.mayApply, grant]

/-- One that its bank does not grant waits on. -/
theorem Work.finish_of_refused {w : Work} {i : Inflight} {addr : Nat} {data : Payload} {mem : Bool} (fx : i.effects = [.spad addr data mem])
    (some : data ≠ []) (no : w.grants i.due 5 (addr / 64) true = false) : w.finish i = w.mapSeq fun q => { q with late := q.late ++ [i] } := by
  simp [Work.finish, fx, Work.mayApply, no, some, Effect.isPad]
  simp [← fx]

/-- What a cell's work is when its writes past their commit have been taken up and put back. -/
theorem Work.late_putBack {w : Work} {i : Inflight} (late : w.cell.seq.late = [i]) :
    ((w.mapSeq fun q => { q with late := [] }).mapSeq fun q => { q with late := q.late ++ [i] }) = w := by
  simp only [Work.mapSeq, List.nil_append, ← late]

theorem State.portGrant_of_write {s : State} {c : Coord} {p : Packet} {since : Nat} (port : (s.cell c).mesh.port = some (p, since)) (put : p.type ≠ tGet) :
    s.portGrant c = s.event? c fun w => w.portAccess (s.dmaWait c) := by
  unfold State.portGrant
  simp only [port, put, if_false]

theorem State.portGrant_of_get {s : State} {c : Coord} {p : Packet} {since : Nat} (port : (s.cell c).mesh.port = some (p, since)) (get : p.type = tGet) :
    s.portGrant c = (s.writePhase c).event? c fun w => w.portAccess ((s.writePhase c).dmaWait c) := by
  unfold State.portGrant
  simp only [port, get, if_true]

theorem commitsAndGrants : Claims.CommitsAndGrants := by
  intro s c here
  refine ⟨fun i rest flight first => exec_iterationCommit here flight first, fun i addr data mem late fx some => ?_, if_pos here,
    fun p since w port => ⟨fun v hv put arrive => ?_, fun u v hu port' hv get arrive => ?_⟩⟩
  · have e : exec (.seqWriteSlotGrant c) s = .next (s.absorb (((s.work c).mapSeq fun q => { q with late := [] }).finish i)) := by
      refine (if_pos here).trans ?_
      rw [State.event, Work.grantLate, late]
      rfl
    refine ⟨fun grant => ?_, fun no => ?_⟩
    · rw [e, Work.finish_of_granted fx grant]
    · rw [e, Work.finish_of_refused fx some no, Work.late_putBack late]
  · have e : exec (.meshPortAccess c) s = .next (s.portGrant c) := if_pos here
    rw [e, State.portGrant_of_write port (by rw [put]; decide), State.portAccess_of port (w := w)]
    rw [← hv, Work.access, put]
    exact arrive
  · have e : exec (.meshPortAccess c) s = .next (s.portGrant c) := if_pos here
    subst hu
    rw [e, State.portGrant_of_get port get, State.portAccess_of port' (w := w)]
    rw [← hv, Work.access, if_pos get]
    exact arrive

theorem sheepdogRaises : Claims.SheepdogRaises := by
  intro s c here watched fresh
  have e : exec (.sheepdog c) s = .next (if (s.work c).watched && !(s.cell c).seq.barked then _ else s) := if_pos here
  rw [e, if_pos (by simp [watched, fresh])]
  rfl

end Sys2Proof.Machine

namespace Sys2Proof
open Sys2Proof.Machine

/-- Settles O12. -/
theorem sequencerEvents : Obligations.SequencerEvents := ⟨commitsAndGrants, sheepdogRaises⟩

/-- Settles O20. -/
theorem pairingUnits : Obligations.PairingUnits := ⟨steeringFires, junctionFires, steeringTimesOut⟩

end Sys2Proof
end

section
/-!
Settles O21: requests that the mesh delivers to a cell.
-/
namespace Sys2Proof.Machine

/-! ### Delivered requests (R19, R188, R189, R193) -/

theorem takeFirst_passes {α : Type} {p : α → Bool} : ∀ {l rest : List α} {a : α}, takeFirst p l = some (a, rest) → p a = true
  | b :: l, rest, a, h => by
    unfold takeFirst at h
    split at h
    · next hb => cases h; exact hb
    · split at h
      · next e => cases h; exact takeFirst_passes e
      · cases h

/-- A delivered packet that a cell of a free mesh port answers to. -/
theorem State.arrival_of {s t : State} {c : Coord} {test : Packet → Bool} {p : Packet} {f : Work → Packet → Option Work} {w : Work}
    (d : s.Delivers c test p t) (free : (s.cell c).mesh.port = none) (h : f (t.work c) p = some w) : s.arrival c test f = t.absorb w := by
  rw [State.arrival, free, d.2]
  simp [h]

/-- One that must wait holds the mesh port. -/
theorem State.arrival_waits {s t : State} {c : Coord} {test : Packet → Bool} {p : Packet} {f : Work → Packet → Option Work}
    (d : s.Delivers c test p t) (free : (s.cell c).mesh.port = none) (h : f (t.work c) p = none) :
    s.arrival c test f = t.mapCell c fun x => { x with mesh := { x.mesh with port := some (p, x.askCycle p.slots.2) } } := by
  rw [State.arrival, free, d.2]
  simp [h]

/-- A request of a cell passes by its gateway. -/
theorem State.toGate_of_forCell {s t : State} {c : Coord} {type : Nat} {p : Packet} (d : s.Delivers c (isRequestOf type) p t) (own : p.forGate = false) :
    s.toGate c type = none := by
  simp [State.toGate, d.2, own]

theorem State.Delivers.passes {s t : State} {c : Coord} {test : Packet → Bool} {p : Packet} (d : s.Delivers c test p t) : test p = true := by
  obtain ⟨e, h, r⟩ := Option.map_eq_some_iff.mp d.2
  cases r
  exact takeFirst_passes h

theorem State.Delivers.unposted {s t : State} {c : Coord} {type : Nat} {p : Packet} (d : s.Delivers c (isRequestOf type) p t) :
    p.type = type ∧ p.posted = false := by
  simpa [isRequestOf] using d.passes

theorem exec_putRow {s t : State} {c : Coord} {p : Packet} {row : Instr × Nat} (hr : row ∈ [(.putArrival c, tPut), (.flockDownArrival c, tFlockDown)])
    (d : s.Delivers c (isRequestOf row.2) p t) (own : row.2 = tPut → p.forGate = false) :
    exec row.1 s = .next (s.arrival c (isRequestOf row.2) Work.putArrive) := by
  simp only [List.mem_cons, List.not_mem_nil, or_false] at hr
  obtain rfl | rfl := hr
  · refine (if_pos d.1).trans ?_
    rw [State.toGate_of_forCell d (own rfl)]
  · exact if_pos d.1

theorem putArrives : Claims.PutArrives := by
  intro s t c p row hr d own free w view
  have e := exec_putRow hr d own
  have req : (p.isRequest && !p.posted && !(p.type == tRed && decide (1 < p.entries.length))) = true := by
    obtain ⟨ht, hp⟩ := d.unposted
    simp only [List.mem_cons, List.not_mem_nil, or_false] at hr
    obtain rfl | rfl := hr <;> simp [Packet.isRequest, ht, hp, tPut, tFlockDown, tRed]
  refine ⟨fun good fresh pad ok go => ?_, fun good fresh pad ok wait => ?_, fun good dup => ?_, fun good unsure => ?_, fun bad => ?_⟩ <;> rw [e]
  · refine congrArg _ (State.arrival_of d free ?_)
    simp only [w, view] at fresh ok go
    simp [Work.putArrive, Work.filtered, Work.applyPut, good, fresh, pad, ok, go, w]
  · refine congrArg _ (State.arrival_waits d free ?_)
    simp only [w, view] at fresh ok wait
    simp [Work.putArrive, good, fresh, wait]
  · refine congrArg _ (State.arrival_of d free ?_)
    simp only [w, view] at dup
    simp [Work.putArrive, Work.filtered, good, dup, w]
  · refine congrArg _ (State.arrival_of d free ?_)
    simp only [w, view] at unsure
    simp [Work.putArrive, Work.filtered, good, unsure, w]
  · refine congrArg _ (State.arrival_of d free ?_)
    simp only [Work.putArrive, bad, Work.crcFail, req, w]
    rfl

theorem Work.takePort_still (w : Work) (n : Nat) : w.Still (w.takePort n) := by
  unfold Work.takePort
  split
  · exact ⟨rfl, rfl, rfl, rfl, rfl, rfl, rfl, rfl, rfl⟩
  · exact .refl w

theorem Work.Still.slotIf {w x : Work} (h : w.Still x) (b : Bool) (l : Nat) (wr : Bool) : w.Still (if b then x.takeSlot l wr else x) := by
  cases b
  · exact h
  · exact h.trans (Work.takeSlot_still ..)

theorem Work.takeSlots_still (w : Work) (p : Packet) (addr len : Nat) : w.Still (w.takeSlots p addr len) := by
  unfold Work.takeSlots
  split
  · exact .refl w
  · exact (((Work.Still.refl w).slotIf ..).slotIf ..).trans (Work.takePort_still ..)

/-- A read with its bank slots and the port's turn leaves the mesh side and the place (R113). -/
theorem Work.readTaken_still (w : Work) (p : Packet) (addr len : Nat) : w.Still ((w.readHere addr len).2.takeSlots p addr len) :=
  (w.read_still ..).trans (Work.takeSlots_still ..)

/-- With no merge window open a read of an M-cell opens one (R100). -/
theorem Work.serveGet_opens {w : Work} {p : Packet} (none_ : w.cell.mesh.windows = []) (m : w.here.kind = .m) :
    let v := (w.readHere p.offset p.len).2.takeSlots p p.offset p.len
    w.serveGet p = v.mapMesh fun m => { m with windows :=
      [{ line := p.offset / 64, data := v.cell.snapshot (p.offset / 64), since := v.cell.seq.cycle, reads := [p.asRead], closed := false }] } := by
  intro v
  have alone : w.merges p = none := by rw [Work.merges, none_]; rfl
  have still : w.Still v := w.readTaken_still p p.offset p.len
  have room : v.cell.mesh.makeRoom = v.cell.mesh := by
    unfold MeshState.makeRoom
    rw [still.mesh, none_]
    rfl
  have kind : v.here.kind = .m := by rw [still.here, m]
  have shut : v.cell.mesh.windows = [] := by rw [still.mesh, none_]
  unfold Work.serveGet
  simp only [alone]
  change (if v.here.kind = .m then _ else _) = _
  rw [if_pos kind, Work.mapMesh, Work.mapMesh]
  dsimp only
  rw [room, shut]
  rfl

/-- Outside M-cells a read is answered with the bytes it gives (R188). -/
theorem Work.serveGet_answers {w : Work} {p : Packet} (none_ : w.cell.mesh.windows = []) (m : w.here.kind ≠ .m) :
    w.serveGet p = ((w.readHere p.offset p.len).2.takeSlots p p.offset p.len).replyTo p (w.readHere p.offset p.len).1 := by
  have alone : w.merges p = none := by rw [Work.merges, none_]; rfl
  unfold Work.serveGet
  simp only [alone]
  rw [if_neg (by rw [(w.readTaken_still p p.offset p.len).here]; exact m)]

/-- A read that may be served now (R100, R188). -/
theorem Work.getArrive_serves {w : Work} {p : Packet} {waiting : List (Nat × Nat)} (good : p.crcOk = true) (pad : inPadWindow p.offset = true)
    (ok : padAccessOk w.here.kind p.offset p.len = true) (some_ : 0 < p.len) (go : w.getWaits p = false) :
    w.getArrive waiting p = some (w.serveGet p) := by
  simp [Work.getArrive, good, pad, ok, go, Nat.ne_of_gt some_]

theorem getArrives : Claims.GetArrives := by
  intro s t c p d own free good w
  have e : exec (.getArrival c) s = .next (s.arrival c (isRequestOf tGet) fun w p => w.getArrive (s.dmaWait c) p) := by
    refine (if_pos d.1).trans ?_
    rw [State.toGate_of_forCell d own]
  rw [e]
  have answered {v : Work} (h : w.getArrive (s.dmaWait c) p = some v) :
      (.next (s.arrival c (isRequestOf tGet) fun w p => w.getArrive (s.dmaWait c) p) : Answer) = .next (t.absorb v) :=
    congrArg _ (State.arrival_of d free h)
  refine ⟨fun pad ok zero => answered ?_, fun pad ok some_ none_ go => ?_, fun v pad ok some_ joins idle may => answered ?_, fun d pad reg => answered ?_⟩
  · unfold Work.getArrive
    rw [if_neg (by simp [good]), if_pos pad, if_neg (by simp [ok, w]), if_pos zero]
  · have alone : w.merges p = none := by rw [Work.merges, none_]; rfl
    have serves := Work.getArrive_serves (waiting := s.dmaWait c) good pad ok some_ (by rw [Work.getWaits, alone]; exact go)
    exact ⟨fun m => answered (serves.trans (congrArg _ (Work.serveGet_answers none_ m))),
      fun m => answered (serves.trans (congrArg _ (Work.serveGet_opens none_ m)))⟩
  · refine (Work.getArrive_serves good pad ok some_ (by simp [Work.getWaits, joins, idle, may])).trans ?_
    simp only [Work.serveGet, joins]
  · simp only [w] at reg
    simp [Work.getArrive, good, pad, reg, w]

theorem tallyAddAndRedArrive : Claims.TallyAddAndRedArrive := by
  intro s t c p good
  refine ⟨fun d fresh => ?_, fun d free => ?_⟩
  · refine (if_pos d.1).trans ?_
    simp [d.2, State.event, Work.tallyArrive, Work.filtered, good, fresh]
  · intro w aligned pad fits out op new go
    have e : exec (.redArrival c) s = .next (s.arrival c (isRequestOf tRed) Work.redArrive) := if_pos d.1
    rw [e]
    refine congrArg _ (State.arrival_of d free ?_)
    have all : ((p.entries.map fun e => w.cell.mesh.view e.at_ e.req e.tag e.seq e.attempt w.now).all (· == .fresh)) = true := by
      simpa using new
    unfold Work.redArrive
    simp only [w] at all go fits out
    simp [good, aligned, pad, fits, out, Nat.not_lt.mpr op, go]
    simp only [List.all_map, List.all_eq_true, Function.comp_apply, beq_iff_eq] at all
    exact if_pos all

end Sys2Proof.Machine

namespace Sys2Proof
open Sys2Proof.Machine

/-- Settles O21. -/
theorem requestsArrive : Obligations.RequestsArrive := ⟨putArrives, getArrives, tallyAddAndRedArrive⟩

end Sys2Proof
end

section
/-!
Settles O23 and O24: flock, loft and response packets that the mesh delivers, and the timers of requests.
-/
namespace Sys2Proof.Machine

/-! ### Flock, loft and response packets that are delivered (R106, R191, R197, R210) -/

theorem flockUpArrives : Claims.FlockUpArrives := by
  intro s t c p d
  have e : exec (.flockUpArrival c) s = .next (t.flockUp c p) := by
    refine (if_pos d.1).trans ?_
    rw [d.2]
  refine ⟨fun good asks => ?_, fun good quiet => ?_, fun bad asks => ?_, fun bad quiet => ?_⟩ <;> rw [e, State.flockUp]
  · simp [good, asks]
  · simp [good, quiet]
  · simp [bad, asks]
  · simp [bad, quiet]

theorem loftRequestsArrive : Claims.LoftRequestsArrive := by
  intro s t c p good ok in_
  refine ⟨fun d => ?_, fun bad few d fresh new => ?_⟩
  · refine (if_pos d.1).trans ?_
    rw [d.2]
    dsimp only
    rw [State.loftRdArrive]
    simp [good, ok, in_]
  · refine (if_pos d.1).trans ?_
    rw [d.2]
    dsimp only
    have first : (t.vault (cellVault c)).queue.any (LoftRequest.copyOf p) = false := by simpa using new
    rw [State.loftWrArrive]
    simp [good, ok, in_, first, fresh, Nat.not_le.mpr few]

theorem State.response_of {s t : State} {c : Coord} {type : Nat} {p : Packet} (d : s.Delivers c (fun p => p.type == type) p t) (f : Work → Packet → Work) :
    s.response c type f = (t.absorb (f (t.work c) p)).pumpAll c := by
  rw [State.response, d.2]
  rfl

theorem takeFirst_any {α : Type} {p : α → Bool} : ∀ {l rest : List α} {a : α}, takeFirst p l = some (a, rest) → l.any p = true
  | b :: l, rest, a, h => by
    unfold takeFirst at h
    rw [List.any_cons]
    split at h
    · next hb => rw [hb]; rfl
    · split at h
      · next e => rw [takeFirst_any e, Bool.or_true]
      · cases h

/-- A REPLY that was delivered to a cell. -/
theorem State.reply_of {s t : State} {c : Coord} {p : Packet} (d : s.Delivers c (fun p => p.type == tReply) p t) :
    s.reply c = (s.arrival c (fun p => p.type == tReply) Work.replyArrive).pumpAll c := by
  obtain ⟨_, h, _⟩ := Option.map_eq_some_iff.mp d.2
  exact if_pos (takeFirst_any h)

theorem responsesArrive : Claims.ResponsesArrive := by
  intro s t c p o good asked
  refine ⟨fun d => ?_, fun d => ?_, fun d => ?_, fun d => ?_, fun addr d free ok at_ go => ?_, fun q e d good' one reply free w h => ?_⟩
  · refine (if_pos d.1).trans ?_
    rw [State.response_of d, Work.ackArrive]
    simp [good, asked]
  · refine (if_pos d.1).trans ?_
    rw [State.response_of d, Work.nackArrive]
    simp [good, asked, Work.retry]
  · refine (if_pos d.1).trans ?_
    rw [State.response_of d, Work.fanoutArrive]
    simp [good, asked]
  · refine (if_pos d.1).trans ?_
    rw [State.response_of d, Work.dropArrive]
    simp [good, asked]
  · refine (if_pos d.1).trans ?_
    rw [State.reply_of d, State.arrival_of d free]
    rw [Work.replyArrive]
    simp [good, asked, ok, at_, go]
  · refine (if_pos d.1).trans ?_
    rw [State.multiReply, d.2]
    simp [good', one, reply, h, free]

end Sys2Proof.Machine

namespace Sys2Proof
open Sys2Proof.Machine

/-- Settles O23. -/
theorem packetsArrive : Obligations.PacketsArrive := ⟨flockUpArrives, loftRequestsArrive, responsesArrive⟩

/-- Settles O24. -/
theorem meshTimers : Obligations.MeshTimers := by
  intro s c here
  refine ⟨fun req tag o hr ht no out => ?_, fun req tag hr ht rests => ?_, fun line w due closes => ?_, fun port lane p hp hl head => ⟨fun old => ?_, fun young => ?_⟩⟩
  · have e : exec (.resendTimerExpiry c req tag) s = .next (s.resendExpiry c req tag) := if_pos (by simp [here, ht]; omega)
    rw [e, State.resendExpiry]
    simp [no, Nat.ne_of_lt hr, out, State.event, Work.retry]
  · have e : exec (.tagRestEnd c req tag) s = .next (s.restEnd c req tag) := if_pos (by simp [here, ht]; omega)
    rw [e, State.restEnd]
    simp [Nat.ne_of_lt hr, rests]
  · refine (if_pos here).trans ?_
    rw [if_pos due, exec_event? closes]
  · have e : exec (.packetAgeExpiry c port lane) s = .next (s.ageExpiry c port lane) := if_pos (by simp [here, hp, hl])
    rw [e, State.ageExpiry]
    simp [head, old]
  · have e : exec (.packetAgeExpiry c port lane) s = .next (s.ageExpiry c port lane) := if_pos (by simp [here, hp, hl])
    refine ⟨_, ?_, rfl, rfl⟩
    rw [e, State.ageExpiry]
    simp [head, young]

end Sys2Proof
end

section
/-!
Settles O25 and O27: hops of a packet, and the commands that run a region.
-/
namespace Sys2Proof.Machine

/-! ### Hops of a packet (R193, R195, R198, R202, R205) and the combining unit (R217) -/

/-- An epoch that is the current one, or of which the old one is valid yet, is not past (R202). -/
theorem not_stale {a b : Bool} {old : Bool} (h : a = b ∨ old = true) : (¬ a = b ∧ old = false) = False := by
  obtain rfl | rfl := h <;> simp

theorem packetHops : Claims.PacketHops := by
  intro s c port lane p here hp hl head
  have e (err : HopErr) : exec (.packetHop c port lane err) s = .next (s.packetHop c port lane err) := if_pos (by simp [here, hp, hl])
  refine ⟨fun err bad => ?_, fun ok old => ?_, fun ok young epoch gone => ?_, fun ok young valid held => ?_, fun ok young valid down multi free route => ?_⟩
  · simp [e, State.packetHop, head, bad]
  · simp [e, State.packetHop, head, ok, old]
  · simp [e, State.packetHop, head, ok, young, epoch, gone]
  · simp [e, State.packetHop, head, ok, young, not_stale valid, held]
  · have hop : exec (.packetHop c port lane { header := false, crc := false }) s = .next (s.plainHop c port lane p) := by
      simp [e, State.packetHop, head, ok, young, not_stale valid, free, down, multi]
    refine ⟨fun ch => ?_, fun d l ch => ?_, fun ch => ?_, fun ch => ?_⟩ <;> simp [hop, State.plainHop, route, ch]

theorem redHeadsCombine : Claims.RedHeadsCombine := by
  intro s c pa la pb lb a b here hpa hla hpb hlb apart ha hb fits idle freeA freeB
  have e : exec (.redCombine c pa la pb lb) s = .next (s.redCombine c pa la pb lb) :=
    if_pos (by simp only [here, hpa, hla, hpb, hlb, and_self, decide_true, Bool.and_self, Bool.true_and]; simpa using apart)
  have go (h : Bool) : (!redFits a b || ((s.router c).lanes.get [] 56).any (fun p => p.type == tRed) || (s.router c).held pa a || (s.router c).held pb b) = false := by
    rw [fits, idle, freeA, freeB]; rfl
  have waits : s.redCombine c pa la pb lb = (if !a.crcOk || !b.crcOk then
      (let t := if a.crcOk then s else s.dropHead c pa la cDropCrc
       if b.crcOk then t else t.dropHead c pb lb cDropCrc)
    else ((s.mapRouter c fun r => (((r.setHead pa la none).setHead pb lb none).count cCombined 1).inject 7 (redMerge c s.clock a b)).injected
        c pa a).injected c pb b) := by
    simp only [State.redCombine, ha, hb, go true]
    rfl
  refine ⟨fun ga gb => ?_, fun ga gb => ?_, fun ga gb => ?_, fun ga gb => ?_⟩ <;> rw [e, waits] <;> simp [ga, gb]

/-! ### Commands of run control that are taken in (R165, R171–R181) -/

/-- A command that the engine takes in waits for its region or takes its turn, and those that wait go on (R171). -/
theorem State.Takes.enters {s : State} {m : HcpMsg} {op : Nat} (h : s.Takes m op) (act : State → State) :
    s.hcpEnter m op act = (act (s.kept m)).runWaiting := by
  obtain ⟨opcode, host, served, new_, ready, fits⟩ := h
  unfold State.hcpEnter
  simp [opcode, host, served, new_, ready, fits]
  rfl

theorem State.Takes.turn {s : State} {m : HcpMsg} {op : Nat} (h : s.Takes m op) (go : (s.kept m).mustQueue m.region = false) :
    s.hcpEnter m op (fun s => s.queued m) = ((s.kept m).turn m).runWaiting := by
  rw [h.enters, State.queued, if_neg (by simp [go])]

theorem startMakesReady : Claims.StartMakesReady := by
  intro s m r h k go found peers live startable windows core t
  have e : exec (.start m) s = .next ((k.startTurn m).runWaiting) := congrArg Host.Outcome.next ((h.turn go).trans (by simp [State.turn, h.opcode, opStart, opLoad, k]))
  have turn (ok : r.mode = .loaded ∨ r.mode = .halted) : k.startTurn m =
      if r.mode = .halted then (t.startSweep r).mapRegion m.region fun r => { r with starting := some (refOf m) }
      else ((t.creditsStart r).mapRegion m.region fun r => { r with mode := .ready }).finish (refOf m) m.region outOk 0 0 := by
    unfold State.startTurn
    simp only [found, live, startable, windows, core, peers]
    obtain ok | ok := ok <;> simp [ok] <;> rfl
  exact ⟨fun mode => by rw [e, turn (.inl mode), if_neg (by simp [mode])], fun mode => by rw [e, turn (.inr mode), if_pos mode]⟩

theorem stepRuns : Claims.StepRuns := by
  intro s m r h k go found mode peers moved live next room alone
  have e : exec (.step m) s = .next ((k.stepTurn m).runWaiting) :=
    congrArg Host.Outcome.next ((h.turn go).trans (by simp [State.turn, h.opcode, opStart, opLoad, opStep, k]))
  have turn : k.stepTurn m = k.stepNow m := by
    unfold State.stepTurn
    simp [found, mode, moved]
  rw [e, turn, State.stepNow]
  simp only [found, live]
  rw [if_neg]
  simpa [mode, peers, next, room] using alone

theorem commitCommits : Claims.CommitCommits := by
  intro s m r h k go found mode pending sound
  have e : exec (.commit m) s = .next ((k.commitTurn m).runWaiting) :=
    congrArg Host.Outcome.next ((h.turn go).trans (by simp [State.turn, h.opcode, opStart, opLoad, opStep, opRelocate, opCommit, k]))
  rw [e, State.commitTurn]
  obtain mode | mode := mode <;> simp [found, sound, pending, mode]

theorem relocateBegins : Claims.RelocateBegins := by
  intro s m r h k go found mode peers apart links place job
  have e : exec (.relocate m) s = .next ((k.relocateTurn m).runWaiting) :=
    congrArg Host.Outcome.next ((h.turn go).trans (by simp [State.turn, h.opcode, opStart, opLoad, opStep, opRelocate, k]))
  rw [e, State.relocateTurn]
  simp only [found]
  rw [if_neg]
  obtain mode | mode := mode <;> simp [peers, apart, links, place, mode]

end Sys2Proof.Machine

namespace Sys2Proof
open Sys2Proof.Machine

/-- Settles O25. -/
theorem routerHops : Obligations.RouterHops := ⟨packetHops, redHeadsCombine⟩

/-- Settles O27. -/
theorem runCommands : Obligations.RunCommands := ⟨startMakesReady, stepRuns, commitCommits, relocateBegins⟩

end Sys2Proof
end

section
/-!
Settles O28 and O29: HALT, ABORT and the forced boundary, and LOAD with its pieces.
-/
namespace Sys2Proof.Machine

/-! ### HALT, ABORT and the forced boundary (R171, R175, R176, R316) -/

theorem haltHalts : Claims.HaltHalts := by
  intro s m r h found
  have e : exec (.halt m) s = .next (((s.kept m).haltNow m).runWaiting) := congrArg Host.Outcome.next (h.enters _)
  refine ⟨fun mode => ?_, fun mode => ?_, fun mode => ?_⟩ <;> rw [e, State.haltNow] <;> simp only [found]
  · simp [mode]
  · obtain mode | mode := mode <;> simp [mode]
  · obtain mode | mode := mode <;> simp [mode]

theorem abortForces : Claims.AbortForces := by
  intro s m r h found
  have e : exec (.abort m) s = .next (((s.kept m).abortNow m).runWaiting) := congrArg Host.Outcome.next (h.enters _)
  have calm (u : State) (no : u.hasPosted m.region r = false) : u.endDoubt m.region r = u := by simp [State.endDoubt, no]
  refine ⟨fun mode => ?_, calm, fun mode => ?_, fun mode no => ?_, fun mode posted => ?_, fun mode => ?_⟩
  case refine_2 => rw [e, State.abortNow]; simp [found, mode, State.abortRunning]
  case refine_1 => rw [e, State.abortNow]; simp [found, mode, State.abortRunning]
  case refine_3 => rw [e, State.abortNow]; simp [found, mode, calm _ no]
  case refine_4 => rw [e, State.abortNow]; simp [found, mode]
  case refine_5 => rw [e, State.abortNow]; obtain mode | mode | mode := mode <;> simp [found, mode]

/-- What every step of a fold leaves unchanged, the fold leaves unchanged. -/
theorem foldl_unchanged {α β σ : Type} {f : σ → α → σ} (g : σ → β) (h : ∀ t x, g (f t x) = g t) : ∀ (l : List α) (s : σ), g (l.foldl f s) = g s
  | [], _ => rfl
  | x :: l, s => (foldl_unchanged g h l (f s x)).trans (h s x)

@[simp] theorem State.setModes_regions (s : State) (r : Region) (m : CellMode) : (s.setModes r m).regions = s.regions := by
  refine foldl_unchanged State.regions ?_ _ _
  intro t c
  rfl

@[simp] theorem State.abortDma_regions (s : State) (r : Region) (on : Bool) : (s.abortDma r on).regions = s.regions := by
  refine foldl_unchanged State.regions ?_ _ _
  intro t c
  refine foldl_unchanged State.regions ?_ _ _
  intro u ch
  rfl

@[simp] theorem State.chooseFor_regions (s : State) (lv : Nat) : (s.chooseFor lv).regions = s.regions := by
  unfold State.chooseFor
  split
  · rfl
  · simp [State.noteRemap]

/-- The spares that a region's leaving RUNNING sets free leave the regions (R237). -/
@[simp] theorem State.leftRunning_regions (s : State) (h : Nat) : (s.leftRunning h).regions = s.regions :=
  foldl_unchanged State.regions State.chooseFor_regions _ _

/-- A RUNNING region that a boundary is forced in enters ABORTING with its first cause (R175). -/
def Region.atForce (code : Code) (cell : Option Coord) (r : Region) : Region :=
  { r with mode := .aborting, forced := some (r.forced.getD code), forcedBy := if r.forced.isSome then r.forcedBy else cell }

theorem State.force_of_running {s : State} {h : Nat} {r : Region} (found : s.regions.find h = some r) (mode : r.mode = .running) (code : Code)
    (cell : Option Coord) : (s.force h code cell).regions = s.regions.modify h (Region.atForce code cell) := by
  unfold State.force
  simp only [found, mode]
  rw [State.leftRunning_regions]
  refine (State.abortDma_regions ..).trans ?_
  refine (foldl_unchanged State.regions ?_ _ _).trans rfl
  intro t c
  rfl

theorem forcedBoundary : Claims.ForcedBoundary := by
  intro s h r code cell found
  refine ⟨fun mode => ?_, fun mode => ?_, fun run ready => ?_⟩
  · refine ⟨r.atForce code cell, ?_, rfl, rfl, rfl, rfl, rfl, rfl⟩
    rw [State.force_of_running found mode]
    exact SMap.find_modify_same _ found
  · unfold State.force
    simp only [found, mode]
  · unfold State.force
    simp only [found]

/-! ### LOAD and its pieces, and loading going on (R105, R154, R168–R174, R181, R500) -/

/-- No piece has come: an envelope that has any byte is not whole. -/
theorem PendingLoad.envelope_of_none {l : PendingLoad} (some_ : 0 < l.msg.length) (none_ : l.pieces = []) : l.envelope = none := by
  obtain ⟨n, e⟩ := Nat.exists_eq_succ_of_ne_zero (Nat.ne_of_gt some_)
  rw [PendingLoad.envelope, none_, e, List.range_succ_eq_map]
  rfl

/-- A LOAD into an EMPTY handle whose envelope is not whole waits for its pieces (R173). -/
theorem State.loadTurn_of_part {s : State} {m : HcpMsg} {l : PendingLoad} (none_ : s.regions.find m.region = none) (found : s.hcp.loadOf m.src m.seq = some l)
    (part : l.envelope = none) : s.loadTurn m = s := by
  unfold State.loadTurn
  simp [State.modeOf, none_, found, part]

theorem loadTakesPieces : Claims.LoadTakesPieces := by
  intro s
  refine ⟨fun m h go mode none_ some_ first => ?_, fun m l op host ver served found len pos small fits free => ?_, fun src seq l found part => ?_⟩
  · refine ⟨{ cmd := refOf m, msg := m, pieces := [], last := s.clock }, rfl, rfl, rfl, rfl, congrArg Host.Outcome.next ((h.enters _).trans ?_)⟩
    simp only [go, Bool.false_eq_true, if_false]
    refine congrArg State.runWaiting (State.loadTurn_of_part (l := ⟨refOf m, m, [], s.clock⟩) ?_ ?_ (PendingLoad.envelope_of_none some_ rfl))
    · exact none_
    · have old : (s.kept m).hcp.loads.find? (fun l => l.cmd.src == m.src && l.cmd.seq == m.seq) = none := first
      simp only [HcpState.loadOf, List.find?_append, old, Option.none_or]
      simp [refOf, State.kept]
  · intro new t
    have e : exec (.loadData m) s = .next (s.loadPiece m) := by
      refine congrArg Host.Outcome.next ?_
      simp [op, host, ver, served]
    have piece : s.loadPiece m = if l.msg ∈ s.hcp.waiting ∨ new.envelope.isNone then t else (t.loadTurn l.msg).runWaiting := by
      unfold State.loadPiece
      simp only [found]
      rw [if_neg (by omega)]
    exact ⟨fun part => by rw [e, piece, if_pos (.inr (by rw [part]; rfl))],
      fun whole => by rw [e, piece, if_neg (by simp [free, Option.isSome_iff_ne_none.mp whole])]⟩
  · refine congrArg Host.Outcome.next ?_
    simp [found, part]

theorem loadAccepts : Claims.LoadAccepts := by
  intro s m l b found whole none_
  unfold State.loadTurn
  simp only [State.modeOf, none_, found, whole, Option.bind_none, Option.bind_some]
  cases s.verify kindRegion b with
  | inl code => simp
  | inr e =>
    dsimp only
    cases s.checkImage m.region m.bx m.oy true e.body <;> simp

theorem loadingGoesOn : Claims.LoadingGoesOn := by
  intro s h r found
  refine ⟨fun j load waits keeps idle mode calm clear => ?_, fun j load keeps sweeping kind ok => ?_, fun c load keeps starting => ?_, fun load still => ?_, fun rel quiet => ?_⟩
  · refine congrArg (fun t : State => (Host.Outcome.next (t.deliveredNow h).runWaiting : Answer)) ?_
    unfold State.stageTry
    simp [found, load, waits, keeps, idle, mode, calm, clear]
  · refine congrArg (fun t : State => (Host.Outcome.next t.runWaiting : Answer)) ?_
    unfold State.sweepClose
    simp [found, load, keeps, sweeping, State.loadSwept, kind, ok]
  · intro t
    refine congrArg (fun t : State => (Host.Outcome.next t.runWaiting : Answer)) ?_
    unfold State.sweepClose
    simp [found, load, keeps, starting, State.startSwept, t]
  · refine congrArg (fun t : State => (Host.Outcome.next t.runWaiting : Answer)) ?_
    unfold State.peerRewrite
    simp only [found, load]
    rw [if_neg (by simp), if_neg]
    simpa using still
  · refine congrArg (fun t : State => (Host.Outcome.next t.runWaiting : Answer)) ?_
    unfold State.releaseFree
    simp [found, rel, quiet]

end Sys2Proof.Machine

namespace Sys2Proof
open Sys2Proof.Machine

/-- Settles O28. -/
theorem stopCommands : Obligations.StopCommands := ⟨haltHalts, abortForces, forcedBoundary⟩

/-- Settles O29. -/
theorem loadCommands : Obligations.LoadCommands := ⟨loadTakesPieces, loadAccepts, loadingGoesOn⟩

end Sys2Proof
end

section
/-!
Settles O30, O31 and O32: steps and boundaries, commands that are turned away, and broadcasts.
-/
namespace Sys2Proof.Machine

/-! ### A step's start and end, and the end of a forced boundary (R48, R175–R178, R322) -/

theorem stepStartsAndEnds : Claims.StepStartsAndEnds := by
  intro s h r q found run mode
  refine ⟨fun first => ?_, fun ended clean halts alone own => ?_⟩
  · intro t
    refine congrArg Host.Outcome.next ?_
    unfold State.stepRelease
    simp [found, run, mode, first, t]
  · intro t
    refine congrArg (fun t : State => (Host.Outcome.next t.runWaiting : Answer)) ?_
    unfold State.stepEnd
    simp [found, run, mode, ended, clean, halts, alone, own, t]

theorem boundaryEnds : Claims.BoundaryEnds := by
  intro s
  refine ⟨fun f c q rest hf first reports => ?_, fun c h r here found mode => ?_, fun h r q found mode drained clear told sure run => ?_⟩
  · refine (if_pos (decide_eq_true hf)).trans ?_
    simp [State.hubReport, first, reports]
  · intro t
    have e (passed : Bool) : exec (.cellCheckDone c passed) s = .next (s.checkDone c passed).runWaiting := if_pos here
    exact ⟨by rw [e, State.checkDone]; simp [found, mode, t], by rw [e, State.checkDone]; simp [found, mode, t]⟩
  · intro t
    refine congrArg (fun t : State => (Host.Outcome.next t.runWaiting : Answer)) ?_
    unfold State.abortingDone
    simp [found, mode, drained, clear, told, sure, run, t]

/-! ### HCP messages that are not carried out (R171–R173, R343, R344, R364, R476) -/

/-- The commands that enter alike, each with its operation (R171). -/
def hcpRows (m : HcpMsg) : List (Instr × Nat) :=
  [(Instr.load m, opLoad), (.start m, opStart), (.step m, opStep), (.halt m, opHalt), (.abort m, opAbort), (.relocate m, opRelocate), (.commit m, opCommit)]

theorem exec_hcpRow {m : HcpMsg} {i : Instr × Nat} (hi : i ∈ hcpRows m) (s : State) : ∃ act, exec i.1 s = .next (s.hcpEnter m i.2 act) := by
  simp only [hcpRows, List.mem_cons, List.not_mem_nil, or_false] at hi
  obtain rfl | rfl | rfl | rfl | rfl | rfl | rfl := hi <;> exact ⟨_, rfl⟩

/-! ### A repair round that the hub's port refuses (R190, R358, R362) -/

/-- A member in another paddock than the hub of field 0. -/
def farMember : Coord := ⟨240, 0⟩

/-- Its firmware transfer in the first repair round: every chunk is missing there. -/
def repair : Transfer :=
  { number := 3, use := .firmware .t, flock := 4032, payload := [1, 2, 3], members := [farMember.key], missing := [(farMember.key, 0)], round := 1, sent := false,
    done := false }

/-- The hub of field 0 with that round to send, while the mesh does not route to the member's paddock. -/
def repairing : State :=
  { State.reset with hubs := [(0, { Hub.zero with transfers := [repair] })], lostRoutes := [farMember.paddock] }

/-- The number of routers that a step's answer holds a state for. -/
def Answer.routers : Answer → Nat
  | .next s => s.routers.length
  | _ => 0

end Sys2Proof.Machine

namespace Sys2Proof
open Sys2Proof.Machine

/-- Settles O30. -/
theorem stepBoundaries : Obligations.StepBoundaries := ⟨stepStartsAndEnds, boundaryEnds⟩

/-- Settles O31. -/
theorem commandsTurnedAway : Obligations.CommandsTurnedAway := by
  intro s m rows
  have unserved (h : s.boot.refclk = false ∨ s.boot.minimal = true) : s.hcpServed = false := by
    obtain h | h := h <;> simp [State.hcpServed, h]
  refine ⟨fun i hi op field => ?_, fun i hi op host out => ?_, fun i hi r op host served known => ?_, fun i hi op host served new_ out => ?_, fun op host none_ => ?_⟩
  · obtain rfl | hi := List.mem_cons.mp hi
    · exact congrArg Host.Outcome.next (by simp [op, field])
    · obtain ⟨act, e⟩ := exec_hcpRow hi s
      rw [e, State.hcpEnter]
      simp [op, field]
  · obtain rfl | hi := List.mem_cons.mp hi
    · exact congrArg Host.Outcome.next (by simp [op, host, unserved out])
    · obtain ⟨act, e⟩ := exec_hcpRow hi s
      rw [e, State.hcpEnter]
      simp [op, host, unserved out]
  · obtain ⟨act, e⟩ := exec_hcpRow hi s
    rw [e, State.hcpEnter]
    cases done : r.done <;> simp [op, host, served, known, done]
  · obtain ⟨act, e⟩ := exec_hcpRow hi s
    rw [e, State.hcpEnter]
    obtain out | out := out <;> simp [op, host, served, new_, out, State.kept]
  · refine congrArg Host.Outcome.next ?_
    simp [op, host, State.loadPiece, none_]

/-- Refutes O32: a hub checks each packet of a round as any request (R190), so a repair PUT to a member whose paddock the mesh does not route to any more is not
sent, while the statement has every packet of the round leave through the hub's port. -/
theorem not_broadcasts : ¬ Obligations.Broadcasts := by
  intro h
  obtain ⟨sends, -⟩ := h repairing
  have sent := (sends 0 0 repair repair repairing (by decide) (by decide +kernel)).1 (.inr (by decide)) rfl
  have routers := congrArg Answer.routers sent
  revert routers
  decide +kernel

end Sys2Proof
end

section
/-!
Settles O33: rounds of a muster and their release.
-/
namespace Sys2Proof.Machine

/-! ### Rounds of a muster (R253–R256, R295) -/

theorem musterRounds : Claims.MusterRounds := by
  intro s m hm
  refine ⟨fun n p f rest transit here => ?_, fun c hc told => ?_, fun p f at_ waits other => ?_⟩
  · intro t u v
    have e : exec (.musterNodeArrival m) s = .next (t.nodeCounts m n p f) := by
      refine (if_pos (decide_eq_true hm)).trans ?_
      simp [State.nodeArrival, transit, takeFirst, here, t]
    have counts : t.nodeCounts m n p f =
        if u.countAt n p + 1 < u.need n then v.mapMuster m fun q => q.setNode n p (u.countAt n p + 1) (u.flagAt n p || f)
        else
          let s := v.mapMuster m fun q => q.setNode n p 0 false
          if n = u.topNode then (if u.isLinked then (if s.roundAborted m then s else s.linkedArrive m p (u.flagAt n p || f)) else s.treeRelease m p (u.flagAt n p || f))
          else s.mapMuster m fun q => { q with transit := q.transit ++ [(treeParent n, p, u.flagAt n p || f)] } := rfl
    refine ⟨fun more => ?_, fun full on => ?_, fun full top own => ?_⟩
    · rw [e, counts, if_pos more]
    · rw [e, counts, if_neg (Nat.not_lt.mpr full)]
      dsimp only
      rw [if_neg on]
    · rw [e, counts, if_neg (Nat.not_lt.mpr full)]
      dsimp only
      rw [if_pos top, own]
      rfl
  · refine (if_pos (by simp [hm, hc])).trans ?_
    rw [State.releaseAtCell, if_pos told]
  · intro t
    refine (if_pos (decide_eq_true hm)).trans ?_
    simp [State.arriveResend, waits, other, t]

theorem Work.addTallyBy_zero (w : Work) (t : Nat) (src : Option Coord) (f e i : Nat) : w.addTallyBy t 0 src f e i = w := if_pos rfl

/-- An increment leaves the musters and the posts of a cell; one that carries raises the fault at the origin it is given. -/
theorem Work.addTallyBy_musters (w : Work) (t n : Nat) (src : Option Coord) (f e i : Nat) :
    (w.addTallyBy t n src f e i).cell.must = w.cell.must ∧ (w.addTallyBy t n src f e i).posts = w.posts := by
  have arrived (c : Cell) : (c.arrived t src).must = c.must := by unfold Cell.arrived; split <;> rfl
  unfold Work.addTallyBy
  split
  · exact ⟨rfl, rfl⟩
  · dsimp only
    split <;> exact ⟨arrived _, rfl⟩

theorem Work.addTallyBy_overflows {w : Work} {t n : Nat} (src : Option Coord) (f e i : Nat) (carry : 0xFFFFFFFF < w.cell.tally t + n) (pos : 0 < n) :
    (w.addTallyBy t n src f e i).cell.fault = w.cell.fault.raise { code := Codes.tallyOverflow, fold := f, entry := e, iter := i, detail := t } := by
  have carry' : (w.cell.tallies.get .zero t).value + n > 0xFFFFFFFF := carry
  simp [Work.addTallyBy, Nat.ne_of_gt pos, carry', Work.raise, Work.map]

/-- The work after the oldest pending round of a muster is taken off (R256). -/
def Work.roundDone (w : Work) (m : Nat) (part : CellMuster) : Work :=
  w.map fun c => { c with must := { c.must with parts := c.must.parts.set { nextParity := false, pending := [] } m part } }

/-- A release with no arrival held raises the oldest round's tally and takes the round off. -/
theorem Work.musterRelease_eq {w : Work} {m : Nat} {g : RoundSignal} {rest : List RoundSignal} {parity : Bool}
    (part : w.cell.must.parts.get { nextParity := false, pending := [] } m = { nextParity := parity, pending := g :: rest }) (free : w.cell.must.overrun = none) :
    w.musterRelease m = (w.roundDone m { nextParity := parity, pending := rest }).addTallyBy g.tally g.amount none g.by_.fold g.by_.entry g.by_.iter := by
  have held : ((w.roundDone m { nextParity := parity, pending := rest }).addTallyBy g.tally g.amount none g.by_.fold g.by_.entry g.by_.iter).cell.must.overrun = none := by
    rw [(Work.addTallyBy_musters ..).1]
    exact free
  unfold Work.musterRelease
  simp only [part, List.drop_one, List.tail_cons]
  split
  · next h => exact absurd (h.symm.trans held) (by simp)
  · rfl

theorem musterReleaseAtCell : Claims.MusterReleaseAtCell := by
  intro w m t amount by_ rest parity wf tallies part free
  rw [Work.musterRelease_eq part free]
  generalize hu : w.roundDone m { nextParity := parity, pending := rest } = u
  obtain ⟨parts, cell, posts, pad, fault⟩ : u.cell.must.parts.get { nextParity := false, pending := [] } m = { nextParity := parity, pending := rest } ∧
      u.cell.tallies = w.cell.tallies ∧ u.posts = w.posts ∧ u.cell.pad = w.cell.pad ∧ u.cell.fault = w.cell.fault := by
    subst hu
    exact ⟨SMap.get_set_same _ _ (.inl wf), rfl, rfl, rfl, rfl⟩
  have tally (k : Nat) : u.cell.tally k = w.cell.tally k := by rw [Cell.tally, cell]; rfl
  obtain ⟨must, posts'⟩ := u.addTallyBy_musters t amount none by_.fold by_.entry by_.iter
  obtain rfl | pos := Nat.eq_zero_or_pos amount
  · rw [Work.addTallyBy_zero]
    exact ⟨parts, posts, fun h => absurd h (Nat.lt_irrefl 0), fun _ => cell, fun h => absurd h (Nat.lt_irrefl 0), fun k _ => tally k, pad⟩
  · have done := u.addTallyBy_tallied none by_.fold by_.entry by_.iter (t := t) pos
    refine ⟨by rw [must, parts], posts'.trans posts, fun _ => ?_, fun zero => absurd zero (Nat.ne_of_gt pos), fun _ carry => ?_, fun k ne => ?_, done.pad.trans pad⟩
    · rw [Cell.tally, done.tallies, SMap.get_set_same _ _ (.inl (cell ▸ tallies)), tally]
      rfl
    · rw [Work.addTallyBy_overflows _ _ _ _ (tally t ▸ carry) pos, fault]
    · rw [Cell.tally, done.tallies, SMap.get_set_other _ ne]
      exact tally k

end Sys2Proof.Machine

namespace Sys2Proof
open Sys2Proof.Machine

/-- Settles O33. -/
theorem musterRounds : Obligations.MusterRounds := ⟨Machine.musterRounds, musterReleaseAtCell⟩

end Sys2Proof
end

section
/-!
Settles O34 and O35: DMA descriptors, and requests at a vault.
-/
namespace Sys2Proof.Machine

/-! ### A DMA channel's descriptors (R103–R105, R111, R241, R242) -/

theorem State.mapChannel_congr {s : State} {c : Coord} {ch : Nat} {f g : DmaChannel → DmaChannel} (h : f (s.channel c ch) = g (s.channel c ch)) :
    s.mapChannel c ch f = s.mapChannel c ch g := by
  rw [State.mapChannel, h]
  rfl

/-- A descriptor that completes without a failure writes OK and signals its tally (R104, R241). -/
theorem Work.descriptorDone_of_ok {w : Work} {d : DmaDesc} (ok : d.failed = none) (signal : d.desc.signalTally ≤ 47) :
    w.descriptorDone d = (w.writeHere (d.addr + 30) (Payload.ofNat 2 Codes.ok.toNat)).addTally d.desc.signalTally d.desc.signalAmount none := by
  unfold Work.descriptorDone
  simp [ok, signal]

end Sys2Proof.Machine

namespace Sys2Proof
open Sys2Proof.Machine

/-- Settles O34. -/
theorem dmaChannel : Obligations.DmaChannel := by
  intro s c ch hc
  refine ⟨fun d rest queue fresh on free => ?_, fun d l t on arrived ok begun => ?_, fun d rest queue started none_ last on good signal => ?_⟩
  · intro bad new
    refine (if_pos hc).trans ?_
    have first : takeFirst (fun (d : DmaDesc) => !d.started) (s.channel c ch).queue = some (d, rest) := by rw [queue]; simp [takeFirst, fresh]
    have earlier : (s.channel c ch).queue.takeWhile (·.started) = [] := by rw [queue]; simp [fresh]
    unfold State.dmaStart
    simp only [first, earlier, on, free, Bool.false_and, Bool.false_eq_true, if_false, List.any_nil]
    have placed : s.mapChannel c ch (fun x => { x with queue := mapFirst (fun q => !q.started) (fun _ => new) x.queue, serial := x.serial + new.total }) =
        s.mapChannel c ch (fun x => { x with queue := new :: rest, serial := x.serial + new.total }) :=
      State.mapChannel_congr (by simp [queue, mapFirst, fresh])
    exact congrArg (fun t : State => (Host.Outcome.next (t.pump c ch) : Answer)) placed
  · refine (if_pos hc).trans ?_
    unfold State.lineReadDone
    simp only [arrived, on, ok, begun, Bool.false_eq_true, if_false, if_true]
    rfl
  · have e : exec (.dmaDescriptorComplete c ch) s = .next (s.dmaComplete c ch) := if_pos hc
    refine ⟨fun u turn => ?_, fun no => ?_⟩ <;> rw [e, State.dmaComplete] <;> dsimp only <;> rw [queue]
    · simp [started, none_, on, Nat.not_lt.mpr last, turn, Work.descriptorDone_of_ok good signal]
    · simp [started, none_, on, Nat.not_lt.mpr last, no]

end Sys2Proof

namespace Sys2Proof.Machine

/-! ### A vault's events, and the spare that takes over (R106, R222–R228, R236, R237) -/

theorem vaultRequests : Claims.VaultRequests := by
  intro s pv hp
  refine ⟨fun q bad there room next => ?_, fun bank bad errs q rest hb first => ?_, fun bank hb on live => ?_, fun line errs hl there idle clean => ?_,
    fun cause there other => ?_, fun there => ?_⟩
  · have e : exec (.vaultRequestAccept ⟨pv, bad⟩) s = .next (s.loftAccept pv bad) := if_pos (decide_eq_true hp)
    refine ⟨fun read => ?_, fun p data src write => ?_, fun ch line data src write few => ?_, fun ch line data src write many => ?_⟩ <;>
      rw [e, State.loftAccept]
    · cases src : q.src <;> simp [there, Nat.not_le.mpr room, next, read, src]
    · simp [there, Nat.not_le.mpr room, next, write, src]
    · simp [there, Nat.not_le.mpr room, next, write, src, Nat.not_le.mpr few]
    · simp [there, Nat.not_le.mpr room, next, write, src, many]
  · intro u
    have e : exec (.vaultLineComplete pv bank bad errs) s = .next (s.loftComplete pv bank bad errs) := if_pos (by simp [hp, hb])
    refine ⟨fun data write => ?_, fun read few => ?_⟩ <;> rw [e, State.loftComplete]
    · simp [first, write, u]
    · simp [first, read, Nat.not_le.mpr few, u]
  · refine (if_pos (by simp [hp, hb])).trans ?_
    simp [on, live]
  · refine (if_pos (by simp [hp, hl])).trans ?_
    unfold State.scrub
    simp [there, idle, Nat.not_lt.mpr clean]
  · refine (if_pos (decide_eq_true hp)).trans ?_
    simp [State.vaultLoss, there, other]
  · refine (if_pos (decide_eq_true hp)).trans ?_
    simp [State.vaultLoss, there]

theorem spareTakesOver : Claims.SpareTakesOver := by
  intro s lv sp l hl pending chosen
  refine (if_pos (decide_eq_true hl)).trans ?_
  unfold State.spareDone
  simp [pending, chosen]

end Sys2Proof.Machine

namespace Sys2Proof
open Sys2Proof.Machine

/-- Settles O35. -/
theorem loftVaults : Obligations.LoftVaults := ⟨vaultRequests, spareTakesOver⟩

end Sys2Proof
end

section
/-!
Settles O36: ports of the Relend fabric and the units on their links.
-/
namespace Sys2Proof.Machine

/-! ### Ports of the Relend fabric (R263–R267, R320, R329) -/

/-- Some region runs, or none does. -/
theorem anyRunning_of_none {m : SMap Region} (h : ∀ e ∈ m, e.2.mode ≠ .running) : m.any (fun e => e.2.mode == .running) = false := by
  simpa using h

theorem portsChange : Claims.PortsChange := by
  intro s p hp
  have ok : portOk p = true := decide_eq_true hp
  refine ⟨fun up unsaid => ?_, fun training => ?_, fun down on => ?_, fun training sound on => ?_, fun lane hl up sound whole => ?_,
    fun lane spare hl up fresh used other => ?_, fun lane rest failed due => ?_, fun lane rest failed due runs => ?_⟩
  · refine (if_pos ok).trans ?_
    simp [State.linkDown, up, unsaid, State.linkGivesUp]
  · refine (if_pos ok).trans ?_
    simp [State.linkDown, training]
  · refine (if_pos ok).trans ?_
    simp [down, on]
  · refine (if_pos ok).trans ?_
    simp [State.portUp, training, sound, on]
  · refine (if_pos (by simp [ok, hl])).trans ?_
    simp [State.laneFails, up, sound, whole]
  · refine (if_pos (by simp [ok, hl])).trans ?_
    simp [State.laneFails, up, fresh, used, other]
  · refine (if_pos ok).trans ?_
    have go : (!(s.port p).laneDue && s.regions.any (fun e => e.2.mode == .running)) = false := by
      obtain due | still := due
      · rw [due]; rfl
      · rw [anyRunning_of_none still, Bool.and_false]
    simp [State.swapLane, failed, go]
  · refine (if_pos ok).trans ?_
    obtain ⟨e, he, mode⟩ := runs
    have wait : s.regions.any (fun e => e.2.mode == .running) = true := List.any_eq_true.mpr ⟨e, he, by simp [mode]⟩
    simp [State.swapLane, failed, due, wait]

theorem linkUnits : Claims.LinkUnits := by
  intro s p u hp up
  have e : exec (.linkUnitReceive p u) s = .next (s.unitReceived p u) := if_pos (decide_eq_true hp)
  refine ⟨fun bad => ?_, fun clean => ?_⟩
  · rw [e, State.unitReceived]
    simp [up, bad, Port.unitData]
  · intro y
    have taken : s.unitReceived p u = match (if u.nak ∧ y.replay ≠ [] then y.replays s.clock else some y) with
        | some z => s.mapPort p fun _ => if u.nak ∧ y.replay ≠ [] then z.again else z.speak s.clock
        | none => (s.mapPort p fun _ => y).linkGivesUp p := by
      unfold State.unitReceived
      simp only [up, clean]
      rfl
    refine ⟨fun quiet => ?_, fun z nak owed again => ?_, fun nak owed over_ => ?_⟩ <;> rw [e, taken]
    · simp [quiet]
    · simp [nak, owed, again]
    · simp [nak, owed, over_]

/-- What decides the order in which a port takes its units (R266, R267). -/
def Port.order (p : Port) : Nat × Option Nat × List LinkUnit := (p.rxSeq, p.nak, p.early)

theorem Port.freeRoom_order (p : Port) (kind : Nat) : (p.freeRoom kind).order = p.order := by
  unfold Port.freeRoom
  split <;> rfl

/-- Frames that are parsed leave the order of units alone. -/
theorem Port.parse_order : ∀ (n : Nat) (p : Port), (Port.parse n p).order = p.order
  | 0, _ => rfl
  | n + 1, p => by
    unfold Port.parse
    dsimp only
    split
    · rfl
    · split
      · exact Port.parse_order n _
      · exact (Port.parse_order n _).trans (Port.freeRoom_order ..)

theorem Port.inOrder_order (p : Port) (u : LinkUnit) : (p.inOrder u).order = ((p.rxSeq + 1) % 65536, none, p.early) := Port.parse_order _ _

theorem unitOrder : Claims.UnitOrder := by
  intro p u good small
  have data (n : Nat) (pos : 0 < n) (hn : n < 65536) (hu : u.seq = (p.rxSeq + n) % 65536) : p.unitData u =
      if 32768 ≤ n ∨ p.early.any (fun v => v.seq == u.seq) then p
      else if p.nak.isSome ∨ n % 8 = 0 ∨ 64 ≤ n then p.gap else { p with early := p.early ++ [u] } := by
    have ahead : p.ahead u.seq = n := by unfold Port.ahead; omega
    unfold Port.unitData
    simp only [good, if_false, ahead, Nat.ne_of_gt pos]
  refine ⟨fun next none_ => ?_, fun n pos hn hu new => ⟨fun lost => ?_, fun calm eight near => ?_⟩, fun n old hn hu => ?_⟩
  · have ahead : p.ahead u.seq = 0 := by unfold Port.ahead; omega
    obtain ⟨seq, nak, early⟩ : (p.inOrder u).rxSeq = (p.rxSeq + 1) % 65536 ∧ (p.inOrder u).nak = none ∧ (p.inOrder u).early = p.early := by
      simpa [Port.order] using p.inOrder_order u
    have same : p.unitData u = p.inOrder u := by
      unfold Port.unitData
      simp only [good, if_false, ahead, if_true]
      unfold Port.follow
      rw [early, none_]
      rfl
    rw [same]
    exact ⟨seq, nak⟩
  · rw [data n pos (by omega) hu, if_neg (by simp [new]; omega), if_pos lost]
    rfl
  · rw [data n pos (by omega) hu, if_neg (by simp [new]; omega), if_neg (by simp [calm]; omega)]
  · rw [data n (by omega) hn hu, if_pos (.inl old)]

end Sys2Proof.Machine

namespace Sys2Proof
open Sys2Proof.Machine

/-- Settles O36. -/
theorem relendLinks : Obligations.RelendLinks := ⟨portsChange, linkUnits, unitOrder⟩

end Sys2Proof
end

section
/-!
Settles O37: Relend frames in transit, requests served and tags.
-/
namespace Sys2Proof.Machine

/-! ### Frames in transit, requests served, tags (R271–R294) -/

theorem framesTransit : Claims.FramesTransit := by
  intro s t p q f hp first
  have e : exec (.frameTransit p) s = .next (s.transit p) := if_pos (decide_eq_true hp)
  refine ⟨fun old => ?_, fun young way => ?_⟩ <;> rw [e, State.transit] <;> simp only [first]
  · rw [if_pos (by omega)]
  · rw [if_neg (by omega), way]

/-- A first request in one of the three spaces of a server is judged by its window (R278, R291–R293). -/
theorem State.serve_of_first {t : State} {f : Frame} (p : Nat) (fresh : f.attempt = 0) (space : bits f.addr 48 4 ≤ 2)
    (unseen : (t.gate (t.serveGate f)).outcomes = []) (idle : (t.gate (t.serveGate f)).inbound = []) :
    let len := if f.kind = kInc then 8 else if f.kind = kRead then f.len else f.payload.length
    t.serve p f = match t.windowCheck f.kind (bits f.addr 48 4) (bits f.addr 0 48) len with
      | (none, u) => ((u.freeRoom p f).mapPort p fun x => x.count pRejected 1).sendReply f kNack false Codes.windowClosed false []
      | (some n, u) =>
        if !f.wholeAccess len then ((u.freeRoom p f).mapWindow n fun w => { w with busy := w.busy - 1 }).sendReply f kNack false Codes.configInvalid false []
        else (u.mapGate (t.serveGate f) fun x => { x with
          inbound := x.inbound ++ [{ id := x.nextId, port := p, frame := f, window := n, since := u.clock, told := false, issued := false, done := none,
                                     open_ := 0, arrivalSent := false }]
          nextId := x.nextId + 1 }).gatePump (t.serveGate f) := by
  intro len
  unfold State.serve
  simp only [unseen, idle, List.find?_nil, List.any_nil, ite_self, fresh, Nat.lt_irrefl, decide_false, Bool.false_and, Bool.false_eq_true, if_false]
  exact (if_neg (by omega)).trans (if_neg (by omega))

theorem exec_relendRow {row : (Nat → Instr) × Nat} (hr : row ∈ [(Instr.relendRead, kRead), (Instr.relendWrite, kWrite), (Instr.relendInc, kInc)]) {p : Nat}
    (hp : p < 64) (s : State) : exec (row.1 p) s = .next (s.inbound p row.2) := by
  have ok : portOk p = true := decide_eq_true hp
  simp only [List.mem_cons, List.not_mem_nil, or_false] at hr
  obtain rfl | rfl | rfl := hr <;> exact if_pos ok

/-- Two changes of a gateway's requests that agree on those it holds are one. -/
theorem State.mapInbound_congr {s : State} {g id : Nat} {f k : Inbound → Inbound} (h : ∀ j ∈ (s.gate g).inbound, f j = k j) :
    s.mapInbound g id f = s.mapInbound g id k := by
  have same : (s.gate g).inbound.map (fun i => if i.id = id then f i else i) = (s.gate g).inbound.map (fun i => if i.id = id then k i else i) :=
    List.map_congr_left fun j hj => by rw [h j hj]
  unfold State.mapInbound State.mapGate SMap.upd
  dsimp only
  rw [show (s.relend.gateways.get .zero g).inbound = (s.gate g).inbound from rfl, same]

theorem relendServes : Claims.RelendServes := by
  intro s
  refine ⟨fun row p f t u n hr hp held kind fresh space => ?_, fun g i status data hg first done => ?_, fun g i hg alone untold => ?_⟩
  · intro g unseen idle len
    have e : exec (row.1 p) s = .next (t.serve p f) := by
      rw [exec_relendRow hr hp, State.inbound, held]
      dsimp only
      rw [if_neg]
      simp only [Frame.toDictionary, beq_iff_eq]
      omega
    have judged := State.serve_of_first p fresh space unseen idle
    refine ⟨fun admits whole => ?_, fun admits part => ?_, fun none_ => ?_⟩ <;> rw [e, judged]
    · simp [len, admits, whole, g]
    · simp [len, admits, part]
    · simp [len, none_]
  · refine (if_pos (decide_eq_true hg)).trans ?_
    unfold State.serveEnds
    simp [first, done]
  · intro t
    have due : s.toTell g = some i := by simp [State.toTell, alone, untold]
    refine (if_pos (decide_eq_true hg)).trans ?_
    have same : t = (s.advanceTo (i.since + 4)).mapInbound g i.id fun j => { j with told := true, since := (s.advanceTo (i.since + 4)).clock } := by
      refine State.mapInbound_congr fun j hj => ?_
      rw [show ((s.advanceTo (i.since + 4)).gate g).inbound = [i] from alone, List.mem_singleton] at hj
      rw [hj]
    unfold State.tell
    simp only [due]
    rw [same]

theorem relendTags : Claims.RelendTags := by
  intro s p hp
  have ok : portOk p = true := decide_eq_true hp
  refine ⟨fun f t u taken tag => ?_, fun f t u taken tag => ?_, fun f t u taken tag sent => ?_, fun f t u taken tag accepted hold => ?_, fun f t taken stray => ?_,
    fun tag u ht found => ?_, fun free => ?_⟩
  · refine (if_pos ok).trans ?_
    simp [State.answered, taken, tag, State.requestEnds]
  · refine (if_pos ok).trans ?_
    simp [State.answered, taken, tag, State.requestEnds]
  · refine (if_pos ok).trans ?_
    simp [State.answered, taken, tag, TagUse.accepts, sent]
  · refine (if_pos ok).trans ?_
    simp [State.answered, taken, tag, TagUse.accepts, accepted, hold]
  · refine (if_pos ok).trans ?_
    simp [State.answered, taken, stray]
  · have ok : tagOk p tag = true := by simp [tagOk, ok, ht]
    refine ⟨fun sent last => ?_, fun t sent left again => ?_, fun accepted => ?_, fun rests => ?_⟩ <;> refine (if_pos ok).trans ?_
    · simp [State.attemptExpires, found, sent, last, State.requestEnds]
    · simp [State.attemptExpires, found, sent, Nat.not_le.mpr left, again]
    · simp [State.completionExpires, found, accepted, State.requestEnds]
    · simp [State.tagRested, found, rests]
  · refine (if_pos ok).trans ?_
    unfold State.tagFree
    rw [if_neg (by simpa [Option.isNone_iff_eq_none, Option.isSome_iff_ne_none] using free)]

end Sys2Proof.Machine

namespace Sys2Proof
open Sys2Proof.Machine

/-- Settles O37. -/
theorem relendRequests : Obligations.RelendRequests := ⟨framesTransit, relendServes, relendTags⟩

end Sys2Proof
end

section
/-!
Settles O38 and O39, both refuted: a poll of an aborted stream, and a second-phase segment that has escaped.
-/
namespace Sys2Proof.Machine

/-! ### A poll for a stream whose channel was aborted (R105, R283, R284) -/

/-- Fields at the edge of the lattice lie in it. -/
theorem edgeFields_lie : ∀ f ∈ edgeFields, (fieldAt (colOfField f) (rowOfField f)).isSome = true ∧ colOfField f < 10 ∧ rowOfField f < 8 := by decide +kernel

/-- A gateway stands at a cell, wherever the part puts it (R280). -/
theorem present_gateCoord (g : Nat) : (gateCoord g).present = true := by
  have pos : 0 < edgeFields.length := by decide +kernel
  obtain ⟨lies, col, row⟩ := edgeFields_lie (edgeFields.getD (Config.gatewayPlace g % edgeFields.length) 0) (by
    rw [List.getD_eq_getElem _ _ (Nat.mod_lt _ pos)]
    exact List.getElem_mem _)
  have at_ : gateCoord g = ⟨96 * colOfField (edgeFields.getD (Config.gatewayPlace g % edgeFields.length) 0) + Config.gatewayPlace g / edgeFields.length % 96,
      80 * rowOfField (edgeFields.getD (Config.gatewayPlace g % edgeFields.length) 0) + Config.gatewayPlace g / edgeFields.length / 96 % 80⟩ := rfl
  rw [at_]
  generalize edgeFields.getD (Config.gatewayPlace g % edgeFields.length) 0 = f at lies col row
  generalize Config.gatewayPlace g / edgeFields.length = n
  have x : (96 * colOfField f + n % 96) / 96 = colOfField f := by omega
  have y : (80 * rowOfField f + n / 96 % 80) / 80 = rowOfField f := by omega
  rw [Coord.present, Coord.field?, if_pos ⟨by dsimp only; omega, by dsimp only; omega⟩, x, y, lies]

/-- A sealed packet's CRC holds. -/
theorem Packet.crcOk_seal (p : Packet) : p.seal.crcOk = true := beq_self_eq_true p.crcOf

/-- The router of gateway 0. -/
def pollPlace : Coord := gateCoord 0

/-- The first gateway is the one beside its own router. -/
theorem gatewayAt_pollPlace : gatewayAt pollPlace = some 0 := by
  rw [gatewayAt, List.find?_range_eq_some]
  exact ⟨beq_self_eq_true _, List.mem_range.mpr (by decide), fun j hj => absurd hj (Nat.not_lt_zero j)⟩

/-- A poll of record 1 of slot 3. -/
def poll : Packet :=
  { type := tGet, epoch := false, seq := false, attempt := 0, age := 0, dst := pollPlace, src := vaultCell 0, req := 0, tag := 1, offset := recordOffset 3 1,
    aux := 16, tally := 0, tallyEn := false, flock := 0, payload := [], entries := [], crc := 0, left := none : Packet }.seal

/-- A record that is neither DONE nor changed, with no line outstanding. -/
def quietRecord : StreamRecord :=
  { word := 0, next := 0, lines := [], linesDone := 0, failed := none, done := false, stalledAt := none, changed := false, polledAt := none, id := 0 }

/-- Gateway 0 with the poll and the record, while the channel that slot 3 serves is aborted. -/
def cutStream (inbox : List Packet) : State :=
  { State.reset with
    routers := [(pollPlace.key, { Router.reset with inbox })]
    relend := { RelendState.reset with gateways := [(0, { Gateway.zero with records := [(7, quietRecord)] })] }
    dma := [(4 * (vaultCell 0).key + 3, { DmaChannel.zero with aborted := true })] }

/-- The same once the poll has been taken. -/
def cutStreamPolled : State := (cutStream [poll]).mapRouter pollPlace fun r => { r with inbox := [] }

theorem cutStream_toGate : (cutStream [poll]).toGate pollPlace tGet = some (0, poll, cutStreamPolled) := by
  have request : isRequestOf tGet poll = true := by decide +kernel
  have own : poll.forGate = true := by decide +kernel
  simp [State.toGate, cutStream, cutStreamPolled, State.takeInbox, State.router, SMap.get, takeFirst, request, own, gatewayAt_pollPlace]

/-- Is a poll of record 1 of slot 3 held at gateway 0? -/
def Answer.holdsPoll : Answer → Bool
  | .next s => (((s.gate 0).records.find 7).bind fun r => r.polledAt).isSome
  | _ => false

theorem poll_offset : gateOffset poll.offset = (3, 1, true) := by decide +kernel

/-- The record once the stream has moved on: with its channel aborted and no line outstanding it is DONE. -/
def cutRecord : StreamRecord := { quietRecord with done := true, changed := true }

theorem cutStream_pumps : ((cutStreamPolled.streamPump 0 7).gate 0).records.find 7 = some cutRecord := by decide +kernel

theorem cutStream_answers : exec (.getArrival pollPlace) (cutStream [poll]) = .next ((cutStreamPolled.streamPump 0 7).pollReply 0 7 cutRecord poll) := by
  have cut : cutStreamPolled.streamCut 0 7 = true := by decide +kernel
  refine (if_pos (present_gateCoord 0)).trans ?_
  rw [cutStream_toGate]
  have whole : poll.crcOk = true := Packet.crcOk_seal _
  have size : poll.aux = 16 := rfl
  have done : cutRecord.done = true := rfl
  unfold State.gateGet
  simp [poll_offset, whole, size, cut, cutStream_pumps, done]

end Sys2Proof.Machine

namespace Sys2Proof
open Sys2Proof.Machine

/-- Refutes O38: a poll for a record whose channel was aborted with its region is answered at once, since with no line outstanding the stream is DONE (R105), while the
statement has every poll of a record that is neither DONE nor changed held for 2 µs. -/
theorem not_linkedEngines : ¬ Obligations.LinkedEngines := by
  intro h
  obtain ⟨-, -, -, polls, -⟩ := h.1 (cutStream [poll])
  have held := (polls pollPlace 0 3 1 poll cutStreamPolled quietRecord (present_gateCoord 0) cutStream_toGate (Packet.crcOk_seal _) rfl poll_offset rfl).2
    rfl rfl rfl
  rw [cutStream_answers] at held
  have same := congrArg Answer.holdsPoll held
  revert same
  decide +kernel

end Sys2Proof

namespace Sys2Proof.Machine

/-! ### A second-phase segment that has escaped (R307, R311) -/

/-- An image of one EXACT collective of one line whose members are engines 0 and 1: CHECK lies at 0, RESULT at 256 and 320 (R299). -/
def collectiveBody : List Byte :=
  List.replicate 8 0 ++ [1, 1] ++ List.replicate 54 0 ++ [1, 0, 0, 0, 72, 0, 0, 0] ++ [1, 1, 0, 0, 0, 0, 10, 0, 1, 0, 0, 0, 2, 0] ++ List.replicate 18 0 ++
  [0, 1, 0, 0, 0, 0, 0, 0, 64, 1, 0, 0, 0, 0, 0, 0] ++ List.replicate 8 0 ++ [136, 0, 0, 0] ++ List.replicate 4 0 ++ [0, 0, 1, 0]

def oneCollective : Collective :=
  { mode := 1, leaves := 1, gather := 0, anchor := 0, deadline := 10, lines := 1, leafBase := 0, recvBase := 0, result0 := 256, result1 := 320, checkBase := 0,
    members := [0, 1] }

/-- The region that runs it. -/
def collectiveRegion : Region :=
  { mode := .running, bx := 25, oy := 0, w := 1, h := 1, musters := [], body := collectiveBody, digest := [], slot := none, committed := 0, pendingStep := none,
    run := none, halts := [], aborts := [], forced := none, forcedBy := none, faults := [], load := none, starting := none, releasing := false, peerLost := false,
    heldStep := none, peersMoved := [], trees := [], suspects := [] }

/-- A line whose two accumulators have escaped (R80). -/
def escapedLine : Payload :=
  let a : Acc := { value := 0, anchor := 0, exact := true, escape := true, nan := false, posInf := false, negInf := false, resv := 0, count := 0 }
  Payload.ofNat 32 a.toNat ++ Payload.ofNat 32 a.toNat

/-- The ring unit in the first phase of step 0, with segment 1 of the second phase and its record come from engine 1. -/
def segmentCame : State :=
  let s : State := { State.reset with regions := [(1, collectiveRegion)], rings := [(0, { RingSlot.zero with region := 1, phase := .reducing })] }
  let record := checkRecord oneCollective (csLines true [escapedLine]) 0 1 true 1
  ((s.loftWrite 256 escapedLine .none).2.loftWrite 192 (record.map PByte.ofData) .none).2

/-- Has a check of slot 0 failed? -/
def Answer.ringFailed : Answer → Bool
  | .next s => (s.ring 0).failure.isSome
  | _ => false

end Sys2Proof.Machine

namespace Sys2Proof
open Sys2Proof.Machine

/-- Refutes O39: a second-phase segment is checked for escaped accumulators too (`lineClean`), so one that has escaped is the slot's failure, while the statement
checks its lines for poison alone. -/
theorem not_ringCollectives : ¬ Obligations.RingCollectives := by
  intro h
  have came := (h.2 segmentCame 0 1 collectiveRegion (Image.ofBody collectiveBody) oneCollective (by decide) (by decide +kernel) (by decide +kernel) (by decide)).2
    (by decide +kernel) (by decide +kernel) (by decide +kernel)
  have same := congrArg Answer.ringFailed came
  revert same
  decide +kernel

end Sys2Proof
end

section
/-!
Settles O40 and O43: units lost in service, and temperature scans.
-/
namespace Sys2Proof

open Sys2Proof.Machine

/-- Settles O40. -/
theorem unitsLost : Obligations.UnitsLost := by
  intro s
  refine ⟨fun f hf alive => ⟨?_, fun few => ?_, fun third => ?_, ?_, ?_⟩, fun n hn => ?_, rfl, fun f kx ky hf hx hy => ?_, fun p cause hp live settled late => ?_⟩
  · refine (if_pos (decide_eq_true hf)).trans ?_
    simp [State.heartbeat, alive]
  · refine (if_pos (decide_eq_true hf)).trans ?_
    simp [State.heartbeat, alive, Nat.succ_lt_succ few]
  · refine (if_pos (decide_eq_true hf)).trans ?_
    simp [State.heartbeat, alive, Nat.not_lt.mpr (Nat.succ_le_succ third)]
  · exact if_pos (decide_eq_true hf)
  · exact if_pos (decide_eq_true hf)
  · exact if_pos (decide_eq_true hn)
  · exact if_pos (decide_eq_true ⟨hf, hx, hy⟩)
  · intro v t u
    have trips : (s.paddockRegs p).tripsBy cause = true := by
      cases cause
      case undervoltage => exact settled rfl
      case settleTimeout => simp [PaddockRegs.tripsBy, late]
      all_goals rfl
    refine (if_pos (decide_eq_true hp)).trans ?_
    unfold State.trip
    rw [if_neg (by simp [live, trips])]
    rfl

end Sys2Proof

namespace Sys2Proof.Machine

/-! ### Temperature scans and their measures (R394, R407) -/

theorem SMap.mem_insert_self {α : Type} (k : Nat) (v : α) : ∀ m : SMap α, (k, v) ∈ SMap.insert m k v
  | [] => List.mem_singleton.mpr rfl
  | (j, w) :: rest => by
    unfold SMap.insert
    split
    · exact List.mem_cons_self
    · split
      · exact List.mem_cons_self
      · exact List.mem_cons_of_mem _ (SMap.mem_insert_self k v rest)

theorem State.sendFrame_pwr (s : State) (f : Frame) : (s.sendFrame f).2.pwr = s.pwr := by
  unfold State.sendFrame
  dsimp only
  split
  · rfl
  · split <;> rfl

@[simp] theorem State.sendPace_pwr (s : State) (reason : Nat) : (s.sendPace reason).pwr = s.pwr := by
  refine (foldl_unchanged State.pwr ?_ _ _).trans rfl
  intro t e
  exact State.sendFrame_pwr ..

@[simp] theorem State.paceChange_pwr (s : State) (reason : Nat) : (s.paceChange reason).pwr = s.pwr := by
  unfold State.paceChange
  dsimp only
  rw [apply_ite State.pwr, apply_ite State.pwr]
  simp only [State.sendPace_pwr, ite_self]

/-- What a reading of the sensors leaves of the power controller (R394). -/
structure State.Sensed (s t : State) : Prop where
  part      : t.part = s.part
  overScans : t.pwr.overScans = s.pwr.overScans
  overtemp  : t.pwr.overtemp = s.pwr.overtemp

theorem State.sense_sensed (s : State) (temps : List PaddockTemp) : s.Sensed (s.sense temps) := by
  refine ⟨foldl_unchanged State.part ?_ _ _, foldl_unchanged (fun t : State => t.pwr.overScans) ?_ _ _, foldl_unchanged (fun t : State => t.pwr.overtemp) ?_ _ _⟩ <;>
    exact fun t e => rfl

/-- What an emergency that ends leaves alone (R407). -/
def State.calm (s : State) :=
  (s.part, s.cells, s.regions, s.pwr.overScans, s.pwr.overtemp, s.pwr.cool, s.pwr.paddocks, s.pwr.tThrottle, s.pwr.throttling, s.pwr.west.op, s.pwr.east.op,
    s.pwr.west.throttle, s.pwr.east.throttle)

theorem State.emergency_calm (s : State) (east : Bool) : (s.emergency east false).calm = s.calm := by
  unfold State.emergency
  split
  · next h => cases h
  · cases east <;> rfl
  · rfl

theorem State.further_eq {s t : State} (part : t.part = s.part) (west : t.pwr.west.op = s.pwr.west.op) (east : t.pwr.east.op = s.pwr.east.op) (e : Bool) (points n : Nat) :
    t.further e points n = s.further e points n := by
  cases e <;> simp [State.further, State.below, State.dvfs, part, west, east]

theorem State.throttles_pwr (s : State) :
    s.throttles.pwr.throttling = true ∧ s.throttles.pwr.west.throttle = s.further false s.pwr.west.throttle 1 ∧
      s.throttles.pwr.east.throttle = s.further true s.pwr.east.throttle 1 := by
  unfold State.throttles
  simp only [State.paceChange_pwr]
  exact ⟨rfl, rfl, rfl⟩

theorem PowerState.junction_none {w : PowerState} {test : Nat → Nat → Bool} (h : ∀ e ∈ w.paddocks, test e.1 e.2.tj = false) : w.junction test = false := by
  simpa [PowerState.junction] using fun a b hb => h (a, b) hb

theorem PowerState.halfHot_none {w : PowerState} {c : Coolant} (h : ∀ e ∈ w.paddocks, e.2.tj < 105) (rise : c.outlet < c.inlet + 250) (east : Bool) :
    w.halfHot east c = false := by
  rw [PowerState.halfHot, PowerState.junction_none fun e he => by simp [h e he], decide_eq_false (Nat.not_le.mpr rise)]
  rfl

theorem PowerState.tooHot_none {w : PowerState} (h : ∀ e ∈ w.paddocks, e.2.tj < 105 ∧ e.2.tloft < 105) : w.tooHot = false := by
  refine List.any_eq_false.mpr fun e he => ?_
  obtain ⟨tj, tloft⟩ := h e he
  simpa using ⟨by omega, tloft⟩

/-- A scan with no sensor beyond the limits is measured, unless the engine has stopped (R407). -/
theorem State.scan_of_safe {s t : State} {temps : List PaddockTemp} (west east : Coolant) (sensed : s.sense temps = t)
    (h : ∀ e ∈ t.pwr.paddocks, e.2.tj < 105 ∧ e.2.tloft < 105) :
    let u : State := { t with pwr := { t.pwr with cool := t.pwr.allCool west east, overScans := 0 } }
    s.scan temps west east = if t.pwr.overtemp then u else u.measured west east := by
  intro u
  unfold State.scan
  simp only [sensed, PowerState.tooHot_none h]
  rfl

/-- A scan that finds no half hot starts no emergency: what is left are the throttle's steps (R407). -/
theorem State.measured_calm (s : State) (west east : Coolant) (hotW : s.pwr.halfHot false west = false) (hotE : s.pwr.halfHot true east = false) :
    ∃ t : State, t.calm = s.calm ∧ s.measured west east =
      if (t.pwr.junction fun _ j => decide (t.pwr.tThrottle ≤ j)) && !t.pwr.throttling then t.throttles
      else if t.pwr.throttling && !t.pwr.junction fun _ j => decide (t.pwr.tThrottle < j + 3) then t.unthrottle else t := by
  refine ⟨(s.emergency false false).emergency true false, (State.emergency_calm ..).trans (State.emergency_calm ..), ?_⟩
  unfold State.measured
  rw [hotW, hotE]

end Sys2Proof.Machine

namespace Sys2Proof
open Sys2Proof.Machine

/-- Settles O43. -/
theorem thermalMeasures : Obligations.ThermalMeasures := by
  intro s
  have e {temps : List PaddockTemp} (ok : ∀ t ∈ temps, t.paddock < 272) (west east : Coolant) :
      exec (.temperatureScan temps west east) s = .next (s.scan temps west east) := if_pos (by simpa using ok)
  refine ⟨fun temps west east ok again on => ?_, fun cold high => ?_, fun temp c hp others junction loft high hot rise off on => ?_, fun m one => ?_⟩
  · intro u beyond
    have hot : (s.sense temps).pwr.tooHot = true := by
      obtain ⟨x, hx, limit⟩ := beyond
      exact List.any_eq_true.mpr ⟨x, hx, decide_eq_true limit⟩
    obtain ⟨-, overScans, overtemp⟩ := s.sense_sensed temps
    rw [e ok, State.scan]
    simp only [hot, if_true]
    rw [if_neg (by simp [overtemp, on]), if_pos (by omega)]
    rfl
  · rw [e (by simp)]
    have safe : ∀ x ∈ s.pwr.paddocks, x.2.tj < 105 ∧ x.2.tloft < 105 := fun x hx => by have := cold x hx; omega
    have cool : s.pwr.allCool { inlet := 200, outlet := 300 } { inlet := 200, outlet := 300 } = true := by
      simpa [PowerState.allCool] using fun a b hb => cold (a, b) hb
    rw [State.scan_of_safe (t := s) _ _ rfl safe, cool]
    split
    · next stopped => exact ⟨_, rfl, rfl, rfl, rfl, rfl, fun on => absurd (stopped.symm.trans on) (by decide)⟩
    · obtain ⟨t, calm, measured⟩ := State.measured_calm ({ s with pwr := { s.pwr with cool := true, overScans := 0 } } : State)
        { inlet := 200, outlet := 300 } { inlet := 200, outlet := 300 } (PowerState.halfHot_none (fun x hx => (safe x hx).1) (by decide) _)
        (PowerState.halfHot_none (fun x hx => (safe x hx).1) (by decide) _)
      simp only [State.calm, Prod.mk.injEq] at calm
      obtain ⟨-, cells, regions, overScans, -, cool', paddocks, tThrottle, -⟩ := calm
      have quiet (test : Nat → Nat → Bool) (h : ∀ a b, b < 70 → test a b = false) : t.pwr.junction test = false :=
        PowerState.junction_none fun x hx => h _ _ (cold x (paddocks ▸ hx)).1
      rw [measured, quiet _ fun a b hb => by simp [tThrottle]; omega, quiet _ fun a b hb => by simp [tThrottle]; omega]
      simp only [Bool.false_and, Bool.false_eq_true, if_false, Bool.not_false, Bool.and_true]
      split
      · exact ⟨_, rfl, overScans, cool', cells, regions, fun _ => rfl⟩
      · next over_ => exact ⟨_, rfl, overScans, cool', cells, regions, fun _ => by simpa using over_⟩
  · rw [e (by simpa using hp)]
    let f : PaddockRegs → PaddockRegs := fun r => { r with tj := min 255 temp.junction, tloft := min 255 temp.loft }
    let read := f (s.pwr.paddocks.get .zero temp.paddock)
    have there : (temp.paddock, read) ∈ (s.sense [temp]).pwr.paddocks := by
      have new : read ≠ .zero := fun h => by have : min 255 temp.junction = 0 := congrArg PaddockRegs.tj h; omega
      have set_ : (s.sense [temp]).pwr.paddocks = s.pwr.paddocks.insert temp.paddock read := if_neg new
      rw [set_]
      exact SMap.mem_insert_self ..
    have safe : ∀ x ∈ (s.sense [temp]).pwr.paddocks, x.2.tj < 105 ∧ x.2.tloft < 105 := fun x hx => by
      obtain hx | rfl := SMap.mem_set hx
      · exact others x hx
      · exact ⟨Nat.lt_of_le_of_lt (Nat.min_le_right ..) junction, Nat.lt_of_le_of_lt (Nat.min_le_right ..) loft⟩
    obtain ⟨part, -, overtemp⟩ := s.sense_sensed [temp]
    rw [State.scan_of_safe _ _ rfl safe, if_neg (by simp [overtemp, on])]
    obtain ⟨t, calm, measured⟩ := State.measured_calm
      ({ s.sense [temp] with pwr := { (s.sense [temp]).pwr with cool := (s.sense [temp]).pwr.allCool c c, overScans := 0 } } : State) c c
      (PowerState.halfHot_none (fun x hx => (safe x hx).1) rise _) (PowerState.halfHot_none (fun x hx => (safe x hx).1) rise _)
    simp only [State.calm, Prod.mk.injEq] at calm
    obtain ⟨part', -, -, -, -, -, paddocks, tThrottle, throttling, westOp, eastOp, west, east⟩ := calm
    have limit : t.pwr.tThrottle = s.pwr.tThrottle := tThrottle
    have meets : (t.pwr.junction fun _ j => decide (t.pwr.tThrottle ≤ j)) = true :=
      List.any_eq_true.mpr ⟨_, paddocks ▸ there, decide_eq_true (by rw [limit]; exact Nat.le_min.mpr ⟨by omega, hot⟩)⟩
    have rests : t.pwr.throttling = false := throttling.trans off
    rw [measured, if_pos (by rw [meets, rests]; rfl)]
    obtain ⟨set_, stepW, stepE⟩ := t.throttles_pwr
    have further (e : Bool) (n : Nat) : t.further e n 1 = s.further e n 1 := State.further_eq (part'.trans part) westOp eastOp e n 1
    refine ⟨_, rfl, set_, ?_, ?_⟩
    · rw [stepW, further, west]
      rfl
    · rw [stepE, further, east]
      rfl
  · refine congrArg Host.Outcome.next ?_
    unfold State.thermalSteps
    simp [one]

end Sys2Proof
end

section
/-!
Settles O41: roots, sources, counters and ramps of the clocks.
-/
namespace Sys2Proof.Machine

/-! ### Roots, sources and counters of the clocks (R372–R384) -/

theorem mem_addOnce {α : Type} [DecidableEq α] {l : List α} {a b : α} : b ∈ addOnce l a ↔ b ∈ l ∨ b = a := by
  unfold addOnce
  split <;> simp_all

/-- A root that locks is READY with its hold count full (R372). -/
theorem State.rootLocks_ready {s : State} {f : Nat} (wf : s.clk.held.wf 0 = true) :
    f ∈ (s.rootLocks f).clk.ready ∧ (s.rootLocks f).clk.held.get 0 f = 65536 ∧ (∀ g, g ∈ s.clk.ready → g ∈ (s.rootLocks f).clk.ready) ∧
      (s.rootLocks f).pwr = s.pwr ∧ (s.rootLocks f).cells = s.cells := by
  cases h : fieldEast f <;> simp only [State.rootLocks, State.mapRoots, h, mem_addOnce] <;>
    exact ⟨.inr trivial, SMap.get_set_same _ _ (.inl wf), fun _ => .inl, rfl, rfl⟩

/-- A source switch that completes (R381). -/
theorem State.takeSource_returned (s : State) (d f : Nat) (ref : Bool) :
    let t := (s.takeSource d ref).returned f
    t.clk.active = s.clk.active.set false d ref ∧ t.clk.src = s.clk.src ∧ t.clk.pending = (s.clk.pending.filter fun e => e != d) ∧ t.clk.ready = s.clk.ready ∧
      t.pwr = s.pwr ∧ t.cells = s.cells := by
  intro t
  simp only [t, State.returned]
  split <;> exact ⟨rfl, rfl, rfl, rfl, rfl, rfl⟩

/-- Counters that take their readings one after another hold each its own. -/
theorem get_readings (f : Nat → Nat) : ∀ n : Nat, ((List.range n).foldl (fun (m : SMap Nat) e => m.set 0 e (f e)) []).wf 0 = true ∧
    ∀ d, d < n → ((List.range n).foldl (fun (m : SMap Nat) e => m.set 0 e (f e)) []).get 0 d = f d
  | 0 => ⟨rfl, fun d h => absurd h (Nat.not_lt_zero d)⟩
  | n + 1 => by
    obtain ⟨wf, get⟩ := get_readings f n
    rw [List.range_succ, List.foldl_append, List.foldl_cons, List.foldl_nil]
    refine ⟨SMap.wf_set wf _ _, fun d h => ?_⟩
    obtain h | rfl := Nat.lt_succ_iff_lt_or_eq.mp h
    · rw [SMap.get_set_other _ (Nat.ne_of_lt h), get d h]
    · exact SMap.get_set_same _ _ (.inl wf)

theorem State.khzOf_still {s : State} {given : SMap Nat} {d : Nat} (h : s.domainRuns d = false) : s.khzOf given d = 0 := by
  simp [State.khzOf, h]

theorem State.le_khzOf {s : State} {given : SMap Nat} {d : Nat} (h : s.domainRuns d = true) : (s.khzBounds d).1 ≤ s.khzOf given d := by
  simp [State.khzOf, h]

theorem State.khzOf_given {s : State} {given : SMap Nat} {d n : Nat} (h : s.domainRuns d = true) (count : given.find d = some n) (lo : (s.khzBounds d).1 ≤ n)
    (hi : n ≤ (s.khzBounds d).2) : s.khzOf given d = n := by
  simp [State.khzOf, h, count, lo, hi]

/-- What the counters show after a gate (R384). -/
theorem State.gateDone_khz (s : State) (counts : List (Nat × Nat)) {e : Nat} (he : e < 340) :
    (s.gateDone counts).clk.khz.get 0 e = (s.advanceTo (s.clk.gateAt + 1000)).khzOf (counts.foldl (fun (m : SMap Nat) e => m.put e.1 e.2) []) e := by
  unfold State.gateDone
  generalize 340 = domains at he ⊢
  exact (get_readings _ domains).2 e he

theorem clockEvents : Claims.ClockEvents := by
  intro s f hf
  refine ⟨fun ref calm wf => ?_, fun ready early => ?_, fun t lost alive => ?_, fun k ref hk pending src => ⟨fun may => ?_, fun root none_ => ?_, fun root ready back runs => ?_⟩,
    fun d n ref hd => ?_⟩
  · refine ⟨s.rootLocks f, (if_pos (decide_eq_true hf)).trans ?_, State.rootLocks_ready wf⟩
    rw [if_pos ref, State.rootUp, calm]
  · refine (if_pos (decide_eq_true hf)).trans ?_
    unfold State.lockLost
    rw [if_neg (by simp [ready])]
    exact congrArg Host.Outcome.next (if_pos early)
  · intro u v
    refine (if_pos (decide_eq_true hf)).trans ?_
    have here : ({ u with clk := { u.clk with lostAt := u.clk.lostAt.erase f } } : State).hubAlive f = true := alive
    simp only [State.relockFails, lost]
    unfold State.fieldLost
    simp only
    rw [if_pos here]
  · refine ⟨_, (if_pos (by simp [hf, hk])).trans ?_, State.takeSource_returned s (4 * f + k) f ref⟩
    unfold State.switchDone
    rw [if_neg (by simp [pending])]
    obtain rfl | ⟨ready, calm⟩ := may
    · simp [src]
    · cases ref
      · have go : (decide (f ∈ s.clk.returning) && s.fieldRuns f) = false := by
          obtain h | h := calm <;> simp [h]
        simp [src, ready, go]
      · simp [src]
  · refine (if_pos (by simp [hf, hk])).trans ?_
    unfold State.switchDone
    simp [pending, src, root, none_]
  · refine (if_pos (by simp [hf, hk])).trans ?_
    unfold State.switchDone
    simp [pending, src, root, ready, back, runs]
  · intro u
    have counter (e : Nat) (he : e < 340) : (s.gateDone [(d, n)]).clk.khz.get 0 e = u.khzOf [(d, n)] e := State.gateDone_khz s _ he
    refine ⟨s.gateDone [(d, n)], congrArg Host.Outcome.next (if_pos ref), rfl, rfl, rfl, rfl, fun e he still => ?_, fun e he runs => ?_, fun runs lo hi => ?_⟩
    · rw [counter e he, State.khzOf_still still]
    · rw [counter e he]
      exact State.le_khzOf runs
    · rw [counter d hd, State.khzOf_given runs (by simp [SMap.find]) lo hi]

/-! ### The DVFS sequencers and the ramps of the halves (R371, R374, R375, R391, R396, R397) -/

@[simp] theorem State.mapDvfs_dvfs (s : State) (east : Bool) (f : HalfPower → HalfPower) : (s.mapDvfs east f).dvfs east = f (s.dvfs east) := by
  cases east <;> rfl

@[simp] theorem State.mapDvfs_roots (s : State) (east e : Bool) (f : HalfPower → HalfPower) : (s.mapDvfs east f).roots e = s.roots e := by
  cases east <;> cases e <;> rfl

@[simp] theorem State.mapRoots_roots (s : State) (east : Bool) (f : HalfClock → HalfClock) : (s.mapRoots east f).roots east = f (s.roots east) := by
  cases east <;> rfl

@[simp] theorem State.mapRoots_dvfs (s : State) (east e : Bool) (f : HalfClock → HalfClock) : (s.mapRoots east f).dvfs e = s.dvfs e := by
  cases east <;> cases e <;> rfl

@[simp] theorem State.writeTargets_dvfs (s : State) (east e : Bool) (op : Nat) : (s.writeTargets east op).dvfs e = s.dvfs e := by
  refine foldl_unchanged (State.dvfs · e) ?_ _ _
  intro t p
  cases e <;> rfl

@[simp] theorem State.writeTargets_roots (s : State) (east e : Bool) (op : Nat) : (s.writeTargets east op).roots e = s.roots e := by
  refine foldl_unchanged (State.roots · e) ?_ _ _
  intro t p
  cases e <;> rfl

theorem halvesRamp : Claims.HalvesRamp := by
  intro s east
  refine ⟨fun mhz ramps goes new ok => ?_, fun mhz out => ?_, fun slewing goes => ?_, fun calm => ?_⟩
  · intro u
    have awaits : s.awaitsRoot east mhz = true := by
      have ramping : (s.dvfs east).ramping = true := by
        obtain h | h := ramps <;> simp [HalfPower.ramping, h]
      rw [State.awaitsRoot, ramping, decide_eq_true ⟨goes, new⟩]
      rfl
    have e : exec (.setPointWrite east mhz) s = .next (u.writeRoot east mhz) := by
      refine congrArg Host.Outcome.next ?_
      rw [if_neg (by simp [ok]), if_pos awaits]
    have write : u.writeRoot east mhz = if s.otherLater east then u else
        (if !s.pwr.emergency && s.awaitsRoot (!east) mhz then (u.rampTo east mhz).rampTo (!east) mhz else u.rampTo east mhz).noteHalves := by
      cases east <;> rfl
    refine ⟨fun later => ?_, fun now_ one => ?_, fun now_ calm both => ?_⟩ <;> rw [e, write]
    · rw [if_pos later]
    · rw [if_neg (by simp [now_]), if_neg]
      obtain h | h := one <;> simp [h]
    · rw [if_neg (by simp [now_]), if_pos (by simp [calm, both])]
  · refine congrArg Host.Outcome.next (if_pos ?_)
    rw [State.setOk, decide_eq_false (by omega)]
    rfl
  · intro u t
    have e : exec (.rampEnd east) s = .next (t.rampDone east).bankEnds := by
      refine congrArg Host.Outcome.next ?_
      unfold State.rampEnds
      rw [if_neg (by simp [slewing])]
    have roots : t.roots east = { (s.roots east).seen u.clock with from_ := (s.roots east).set, slewing := false } := State.mapRoots_roots ..
    have dvfs : t.dvfs east = s.dvfs east := State.mapRoots_dvfs ..
    have there : ¬ ((t.roots east).slewing = true ∨ (t.roots east).set ≠ opRoot (t.dvfs east).toward) := by
      rw [roots, dvfs]
      simp [HalfClock.seen, goes]
    refine ⟨fun down => ?_, fun up => ?_⟩ <;> rw [e, State.rampDone, if_neg there] <;> simp only [dvfs]
    · rw [down]
    · rw [up]
  · unfold State.bankEnds
    rw [calm]
    rfl

theorem dvfsSequencer : Claims.DvfsSequencer := by
  intro s east op on wish
  have e : exec (.dvfsTarget east op) s = .next (if s.pwr.emergency then s.takeTarget east else (s.takeTarget east).takeTarget !east) :=
    congrArg Host.Outcome.next (if_pos ⟨on, wish⟩)
  refine ⟨fun hot => by rw [e, if_pos hot], fun calm => by rw [e, calm]; rfl, fun same => if_pos (wish.symm.trans same), fun new idle => ⟨fun up => ?_, fun down waits => ?_⟩⟩
  · have took : s.takeTarget east = (s.dvfsTarget east op).rampDone east := by rw [State.takeTarget, ← wish, if_neg new]
    have starts : s.dvfsTarget east op =
        ((s.mapDvfs east fun h => { h with target := op }).mapDvfs east fun h => { h with state := .vRaise, toward := h.target }).writeTargets east op := by
      simp [State.dvfsTarget, idle, State.dvfsStart, up]
    rw [took, starts, State.rampDone]
    split
    · rfl
    · simp
  · have took : s.takeTarget east = (s.dvfsTarget east op).rampDone east := by rw [State.takeTarget, ← wish, if_neg new]
    have starts : s.dvfsTarget east op = (s.mapDvfs east fun h => { h with target := op }).mapDvfs east fun h => { h with state := .fRampDown, toward := h.target } := by
      simp [State.dvfsTarget, idle, State.dvfsStart, down, Nat.not_lt.mpr (Nat.le_of_lt down)]
    rw [took, starts, State.rampDone, if_pos (by simpa using waits)]

theorem paddocksSettle : Claims.PaddocksSettle := by
  intro s east t
  refine ⟨fun raise => ?_, fun lower => ?_⟩ <;> refine congrArg Host.Outcome.next ?_ <;> unfold State.paddocksSettle
  · simp [raise, t]
  · simp [lower, t]

end Sys2Proof.Machine

namespace Sys2Proof
open Sys2Proof.Machine

/-- Settles O41. -/
theorem clocksAndRamps : Obligations.ClocksAndRamps := ⟨clockEvents, halvesRamp, dvfsSequencer, paddocksSettle⟩

end Sys2Proof
end

section
/-!
The sealed meter's frames, and the recorder's own events.
-/
namespace Sys2Proof.Machine

/-! ### Frames of the sealed meter (R403, R415–R425) -/

/-- A frame of its kind and length whose CRC holds is taken in (R415, R416). -/
theorem State.meterFrame_sound {s : State} {kind len : Nat} {b : List Byte} (ref : s.boot.refclk = true) (long : b.length = len + 4) (is : numAt b 0 1 = kind)
    (crc : crc32c (b.take len) = numAt b len 4) (act : State → State) : s.meterFrame kind (len + 4) b act = (act s).meterHeard := by
  have sound : frameSound b = true := by simp [frameSound, long, crc]
  simp [State.meterFrame, ref, sound, long, is]

/-- A frame that does not end with its CRC is discarded and counted, whatever its kind (R415, R418). -/
theorem State.meterFrame_unsound {s : State} {b : List Byte} (ref : s.boot.refclk = true)
    (bad : b.length < 4 ∨ crc32c (b.take (b.length - 4)) ≠ numAt b (b.length - 4) 4) (kind len : Nat) (act : State → State) :
    s.meterFrame kind len b act = ({ s with meter := { s.meter with frameErrors := satAdd 0xFFFFFFFF s.meter.frameErrors 1 } } : State).saveUnread := by
  have unsound : frameSound b = false := by
    rcases bad with short | crc
    · simp [frameSound, Nat.not_le.mpr short]
    · simp [frameSound, crc]
  simp [State.meterFrame, ref, unsound]

@[simp] theorem State.meterSeal_board (s : State) (cause received : Nat) : (s.meterSeal cause received).board = s.board := by
  unfold State.meterSeal; split <;> simp

@[simp] theorem State.meterSeal_clock (s : State) (cause received : Nat) : (s.meterSeal cause received).clock = s.clock := by
  unfold State.meterSeal; split <;> simp

@[simp] theorem State.meterSeal_state (s : State) (cause received : Nat) : (s.meterSeal cause received).meter.state = s.meter.state := by
  unfold State.meterSeal; split <;> simp

/-- A cause that was recorded stands among the session's (R423). -/
theorem State.meterSeal_causes (s : State) (cause received : Nat) : cause ∈ (s.meterSeal cause received).meter.causes := by
  unfold State.meterSeal; split <;> simp_all

/-- The flags of a frame leave the registers that were told (R418, R423). -/
theorem State.meterFlags_told (s : State) (b : List Byte) :
    (s.meterFlags b).board.toldWest = s.board.toldWest ∧ (s.meterFlags b).board.toldEast = s.board.toldEast := by
  unfold State.meterFlags
  constructor <;> (dsimp only; split <;> split <;> simp)

@[simp] theorem State.meterEnergy_board (s : State) (nj cycles : Nat) : (s.meterEnergy nj cycles).board = s.board := by
  unfold State.meterEnergy
  dsimp only
  split
  · rfl
  · split <;> simp

/-- What a reading does to the scale leaves the board. -/
theorem State.meterEnergy_if_board (s : State) (c : Prop) [Decidable c] (nj cycles : Nat) : (if c then s.meterEnergy nj cycles else s).board = s.board := by
  split <;> simp

/-- A reading's cumulative registers are kept and never told lower (R418; log entry 113). -/
theorem State.meterReading_told (s : State) (b : List Byte) :
    (s.meterReading b).meterHeard.board.toldWest = max s.board.toldWest (numAt b 40 8) ∧
      (s.meterReading b).meterHeard.board.toldEast = max s.board.toldEast (numAt b 48 8) := by
  constructor
  · exact (congrArg MeterBoard.toldWest (State.meterEnergy_if_board _ _ _ _)).trans (State.meterFlags_told _ b).1
  · exact (congrArg MeterBoard.toldEast (State.meterEnergy_if_board _ _ _ _)).trans (State.meterFlags_told _ b).2

/-! ### The recorder's own events (R461, R463, R467) -/

/-- A freeze runs out at its time (R467). -/
theorem exec_freezeTimeout {s : State} {v at_ : Nat} (frozen : s.recd.frozen = some (v, at_)) :
    exec .freezeTimeout s = .next (s.advanceTo (at_ + 10000000)).thaw := by
  refine congrArg Host.Outcome.next ?_
  rw [frozen]

end Sys2Proof.Machine

namespace Sys2Proof
open Sys2Proof.Machine

/-- Settles O44: by the three outcomes of `State.meterFrame`; what a reading tells goes through the flags and the scale unchanged. -/
theorem meterFrames : Obligations.MeterFrames := by
  unfold Obligations.MeterFrames
  intro s b ref
  refine ⟨fun long kind crc => ?_, fun row hrow bad => ?_, fun long kind crc => ⟨?_, s.meterReading_told b⟩, fun long kind crc => ?_, fun long kind crc => ?_,
    _, congrArg Host.Outcome.next (if_neg (by simp [ref])), ?_, ?_, ?_⟩
  · exact congrArg Host.Outcome.next (State.meterFrame_sound ref long kind crc _)
  · simp only [List.mem_cons, List.not_mem_nil, or_false] at hrow
    rcases hrow with rfl | rfl | rfl | rfl <;> exact congrArg Host.Outcome.next (State.meterFrame_unsound ref bad _ _ _)
  · exact congrArg Host.Outcome.next (State.meterFrame_sound ref long kind crc _)
  · exact congrArg Host.Outcome.next (State.meterFrame_sound ref long kind crc _)
  · exact congrArg Host.Outcome.next (State.meterFrame_sound ref long kind crc _)
  · exact State.meterSeal_state _ _ _
  · exact State.meterSeal_clock _ _ _
  · exact State.meterSeal_causes _ _ _

/-- Settles O45: the freeze's end, the flush of a due ring and the save of the operating time, each from its condition. -/
theorem recorderEvents : Obligations.RecorderEvents := by
  unfold Obligations.RecorderEvents
  intro s
  exact ⟨fun _ _ frozen => exec_freezeTimeout frozen, fun _ here due open_ => exec_ringFlush here due open_,
    fun timed => congrArg Host.Outcome.next (if_pos timed)⟩

end Sys2Proof
end

section
/-!
The hold-up after an input loss: which of its work is done, and what it leaves.
-/
namespace Sys2Proof.Machine

/-! ### The hold-up after an input loss (R390, R464) -/

/-- What the save of the operating time reads and writes: whether flash holds it, what flash holds of it, and the time itself. -/
def State.saved (s : State) : Bool × Nat × Nat := (s.flash.savedAtEnd, s.flash.opSeconds, s.recd.opSeconds)

@[simp] theorem State.note_saved (s : State) (type : Nat) (code : Code) (region location : Nat) (detail : List Byte) :
    (s.note type code region location detail).saved = s.saved := by
  simp only [State.saved, State.note_flash_savedAtEnd, State.note_flash_opSeconds, Prod.mk.injEq, true_and]
  unfold State.note
  dsimp only
  split
  · split <;> rfl
  · rfl

@[simp] theorem State.hubNote_saved (s : State) (f type : Nat) (code : Code) (region location : Nat) (detail : List Byte) :
    (s.hubNote f type code region location detail).saved = s.saved := by
  unfold State.hubNote
  dsimp only
  split
  · split <;> rfl
  · rfl

/-- Records that the log takes leave the operating time that flash holds. -/
theorem FlashState.foldl_append_saved (l : List Record) (f : FlashState) :
    (l.foldl FlashState.append f).savedAtEnd = f.savedAtEnd ∧ (l.foldl FlashState.append f).opSeconds = f.opSeconds :=
  ⟨foldl_unchanged FlashState.savedAtEnd FlashState.append_savedAtEnd l f, foldl_unchanged FlashState.opSeconds FlashState.append_opSeconds l f⟩

@[simp] theorem State.flushRing_saved (s : State) (f : Nat) : (s.flushRing f).saved = s.saved := by
  unfold State.flushRing
  dsimp only
  split
  · simp [State.saved, FlashState.foldl_append_saved]
  split
  · rw [State.hubNote_saved]
    simp [State.saved, FlashState.foldl_append_saved]
  · simp only [State.saved, FlashState.foldl_append_saved]

@[simp] theorem State.ringFlush_saved (s : State) (f : Nat) : (s.ringFlush f).saved = s.saved := by
  unfold State.ringFlush
  dsimp only
  split <;> simp

@[simp] theorem State.thaw_saved (s : State) : s.thaw.saved = s.saved := by
  unfold State.thaw
  dsimp only
  split
  · rfl
  · refine (foldl_unchanged State.saved State.ringFlush_saved _ _).trans ((State.note_saved ..).trans ?_)
    rw [apply_ite State.saved, State.note_saved, ite_self]
    simp [State.saved, FlashState.foldl_append_saved]
  · rw [State.hubNote_saved, apply_ite State.saved, State.hubNote_saved, ite_self]
    rfl

@[simp] theorem State.flushOrWait_saved (s : State) (f : Nat) : (s.flushOrWait f).saved = s.saved := by
  unfold State.flushOrWait
  split
  · rfl
  · exact State.flushRing_saved s f

/-- Every step of the work but the last leaves the operating time that flash holds. -/
theorem State.lossStep_saved (s : State) {n : Nat} (early : n ≤ fieldCount) : (s.lossStep n).saved = s.saved := by
  unfold State.lossStep
  split
  · simp
  · exact State.flushOrWait_saved s _

/-- So do the first of them, however many. -/
theorem State.lossSteps_saved (s : State) : ∀ n : Nat, n ≤ fieldCount + 1 → ((List.range n).foldl State.lossStep s).saved = s.saved
  | 0, _ => rfl
  | n + 1, early => by
    rw [List.range_succ, List.foldl_append]
    exact (State.lossStep_saved _ (Nat.le_of_succ_le_succ early)).trans (State.lossSteps_saved s n (Nat.le_of_succ_le early))

/-! #### The rings that the work flushes -/

/-- The rings of the first `k` fields hold nothing that is not flushed, and no freeze stands. -/
structure State.Flushed (s : State) (k : Nat) : Prop where
  wf : s.hubs.wf .zero = true
  open_ : s.recd.frozen = none
  done : ∀ f, f < k → (s.hub f).ring.unflushed = 0

@[simp] theorem State.note_frozen (s : State) (type : Nat) (code : Code) (region location : Nat) (detail : List Byte) :
    (s.note type code region location detail).recd.frozen = s.recd.frozen := by
  unfold State.note
  dsimp only
  split
  · split <;> rfl
  · rfl

@[simp] theorem State.hubNote_frozenAs (s : State) (f type : Nat) (code : Code) (region location : Nat) (detail : List Byte) :
    (s.hubNote f type code region location detail).recd.frozen = s.recd.frozen := by
  unfold State.hubNote
  dsimp only
  split
  · split <;> rfl
  · rfl

theorem State.hubNote_wf {s : State} (wf : s.hubs.wf .zero = true) (f type : Nat) (code : Code) (region location : Nat) (detail : List Byte) :
    (s.hubNote f type code region location detail).hubs.wf .zero = true := by
  unfold State.hubNote
  dsimp only
  split
  · split <;> exact SMap.wf_set wf _ _
  · exact SMap.wf_set wf _ _

@[simp] theorem State.flushRing_frozenAs (s : State) (f : Nat) : (s.flushRing f).recd.frozen = s.recd.frozen := by
  unfold State.flushRing
  dsimp only
  split
  · rfl
  · split
    · exact State.hubNote_frozenAs ..
    · rfl

theorem State.flushRing_wf {s : State} (wf : s.hubs.wf .zero = true) (f : Nat) : (s.flushRing f).hubs.wf .zero = true := by
  unfold State.flushRing
  dsimp only
  split
  · exact SMap.wf_set wf _ _
  · split
    · exact State.hubNote_wf (SMap.wf_set wf _ _) ..
    · exact SMap.wf_set wf _ _

theorem State.ringFlush_keeps {s : State} (wf : s.hubs.wf .zero = true) (open_ : s.recd.frozen = none) (f : Nat) :
    (s.ringFlush f).hubs.wf .zero = true ∧ (s.ringFlush f).recd.frozen = none := by
  unfold State.ringFlush
  dsimp only
  split
  · exact ⟨State.flushRing_wf wf f, (State.flushRing_frozenAs s f).trans open_⟩
  · exact ⟨wf, open_⟩

theorem State.ringFlushes_keep : ∀ (l : List Nat) (s : State), s.hubs.wf .zero = true → s.recd.frozen = none →
    (l.foldl State.ringFlush s).hubs.wf .zero = true ∧ (l.foldl State.ringFlush s).recd.frozen = none
  | [], _, wf, open_ => ⟨wf, open_⟩
  | f :: l, _, wf, open_ => State.ringFlushes_keep l _ (State.ringFlush_keeps wf open_ f).1 (State.ringFlush_keeps wf open_ f).2

/-- After a thaw no freeze stands (R466). -/
theorem State.thaw_flushed {s : State} (wf : s.hubs.wf .zero = true) : s.thaw.Flushed 0 := by
  refine ⟨?_, ?_, fun f here => absurd here (Nat.not_lt_zero f)⟩ <;> (unfold State.thaw; dsimp only; split)
  · exact wf
  · refine (State.ringFlushes_keep _ _ ?_ ?_).1
    · rw [State.note_hubs, apply_ite State.hubs, State.note_hubs, ite_self]
      exact wf
    · rw [State.note_frozen]
      split <;> simp
  · refine State.hubNote_wf ?_ ..
    split
    · exact SMap.wf_set wf _ _
    · exact State.hubNote_wf (SMap.wf_set wf _ _) ..
  · assumption
  · refine (State.ringFlushes_keep _ _ ?_ ?_).2
    · rw [State.note_hubs, apply_ite State.hubs, State.note_hubs, ite_self]
      exact wf
    · rw [State.note_frozen]
      split <;> simp
  · rw [State.hubNote_frozenAs]
    split <;> simp

/-- With no freeze the flush of a ring leaves nothing unflushed in it and every other ring as it was (R463). -/
theorem State.flushRing_flushed {s : State} (wf : s.hubs.wf .zero = true) (open_ : s.recd.frozen = none) (f : Nat) :
    ((s.flushRing f).hub f).ring.unflushed = 0 ∧ ∀ g, g ≠ f → (s.flushRing f).hub g = s.hub g := by
  have notFrozen : s.ringFrozen f = false := by simp [State.ringFrozen, open_]
  by_cases none : (s.hub f).ring.dropped = 0
  · rw [State.flushRing_none none]
    refine ⟨?_, fun g other => SMap.get_set_other _ other⟩
    simp only [State.hub, SMap.get_set_same _ _ (.inl wf), Ring.flushed_unflushed]
  · rw [State.flushRing_open none notFrozen]
    refine ⟨?_, fun g other => SMap.get_set_other _ other⟩
    simp only [State.hub, SMap.get_set_same _ _ (.inl wf), Ring.flushed_unflushed]

/-- A step of the work flushes the next ring (R464). -/
theorem State.lossStep_flushed {s : State} {k : Nat} (h : s.Flushed k) (here : k < fieldCount) : (s.lossStep (k + 1)).Flushed (k + 1) := by
  have step : s.lossStep (k + 1) = s.flushRing k := by
    rw [State.lossStep, if_neg (Nat.succ_ne_zero k), if_pos (Nat.succ_le_of_lt here), State.flushOrWait]
    simp [State.logFrozen, h.open_]
  rw [step]
  obtain ⟨same, other⟩ := State.flushRing_flushed h.wf h.open_ k
  refine ⟨State.flushRing_wf h.wf k, (State.flushRing_frozenAs s k).trans h.open_, fun f lt => ?_⟩
  by_cases e : f = k
  · rw [e, same]
  · rw [other f e, h.done f (by omega)]

/-- So much of the work flushes so many rings. -/
theorem State.lossSteps_flushed {s : State} (wf : s.hubs.wf .zero = true) : ∀ k, k ≤ fieldCount → ((List.range (k + 1)).foldl State.lossStep s).Flushed k
  | 0, _ => State.thaw_flushed ((congrArg (SMap.wf .zero) (State.note_hubs ..)).trans wf)
  | k + 1, here => by
    rw [List.range_succ, List.foldl_append]
    exact State.lossStep_flushed (State.lossSteps_flushed wf k (Nat.le_of_succ_le here)) here

/-- The last step saves the operating time (R461, R464). -/
theorem State.lossStep_last (s : State) :
    s.lossStep (fieldCount + 1) = { s with flash := { s.flash with opSeconds := s.recd.opSeconds, savedAtEnd := true } } := by
  rw [State.lossStep, if_neg (Nat.succ_ne_zero _), if_neg (Nat.not_succ_le_self _)]

theorem State.lossStep_last_saves (s : State) :
    (s.lossStep (fieldCount + 1)).flash.savedAtEnd = true ∧ (s.lossStep (fieldCount + 1)).flash.opSeconds = s.recd.opSeconds ∧
      ∀ f, (s.lossStep (fieldCount + 1)).hub f = s.hub f := by
  rw [State.lossStep_last]
  exact ⟨rfl, rfl, fun _ => rfl⟩

/-- A hold-up that lasts runs every step of the work. -/
theorem State.holdUp_whole {s : State} {n : Nat} (lasts : lossSteps ≤ n) (torn : Option Nat) :
    s.holdUp n torn = ((List.range (fieldCount + 1)).foldl State.lossStep s).lossStep (fieldCount + 1) := by
  have all : min n lossSteps = fieldCount + 1 + 1 := Nat.min_eq_right lasts
  have last : (List.range (fieldCount + 1 + 1)).foldl State.lossStep s = ((List.range (fieldCount + 1)).foldl State.lossStep s).lossStep (fieldCount + 1) := by
    rw [List.range_succ, List.foldl_append]
    rfl
  unfold State.holdUp
  rw [all, last, decide_eq_false (Nat.not_lt.mpr lasts)]

/-- A hold-up that lasts saves all of it (R464). -/
theorem State.holdUp_lasts {s : State} {n : Nat} (lasts : lossSteps ≤ n) (torn : Option Nat) :
    (s.holdUp n torn).flash.savedAtEnd = true ∧ (s.holdUp n torn).flash.opSeconds = s.recd.opSeconds ∧
      (s.hubs.wf .zero = true → ∀ f, f < fieldCount → ((s.holdUp n torn).hub f).ring.unflushed = 0) := by
  have kept := State.lossSteps_saved s (fieldCount + 1) (Nat.le_refl _)
  simp only [State.saved, Prod.mk.injEq] at kept
  obtain ⟨-, -, time⟩ := kept
  obtain ⟨save, saved, ring⟩ := State.lossStep_last_saves ((List.range (fieldCount + 1)).foldl State.lossStep s)
  rw [State.holdUp_whole lasts torn]
  refine ⟨save, saved.trans time, fun wf f here => ?_⟩
  rw [ring, (State.lossSteps_flushed wf fieldCount (Nat.le_refl _)).done f here]

/-- One that collapses leaves the time unsaved (R464; log entry 80). -/
theorem State.holdUp_collapses {s : State} {n : Nat} (short : n < lossSteps) (torn : Option Nat) :
    (s.holdUp n torn).flash.savedAtEnd = s.flash.savedAtEnd ∧ (s.holdUp n torn).flash.opSeconds = s.flash.opSeconds := by
  have kept := State.lossSteps_saved s n (Nat.le_of_lt_succ short)
  simp only [State.saved, Prod.mk.injEq] at kept
  obtain ⟨save, time, -⟩ := kept
  unfold State.holdUp
  rw [Nat.min_eq_left (Nat.le_of_lt short), decide_eq_true short]
  cases torn with
  | none => exact ⟨save, time⟩
  | some v => exact ⟨(FlashState.append_savedAtEnd ..).trans save, (FlashState.append_opSeconds ..).trans time⟩

end Sys2Proof.Machine
end

section
/-!
Power sessions and starts: how they begin, fail and end.
-/
namespace Sys2Proof.Machine

/-! ### Sessions and starts (R342, R343, R363–R369, R390) -/

/-- A stage that begins without work of its own: its RESULT is RUNNING (R342, R346). -/
theorem State.stageBegins_zero (s : State) :
    s.stageBegins 0 = { s with boot := { s.boot with
      reports := s.boot.reports.put 0 (reportWord resultRunning 0 0 0), stage := some 0, state := 0, stageAt := s.clock, losses := s.lossCount } } := rfl

theorem State.stageBegins_zero_result (s : State) : (s.stageBegins 0).resultOf 0 = resultRunning := by
  rw [State.stageBegins_zero, State.resultOf, SMap.get_put_same]
  exact reportWord_result _ _ _ _ (by decide)

/-- A stage that fails reports FAILED and its cause (R346). -/
theorem State.stageFails_reports (s : State) (n : Nat) (code : Code) (elapsed detail : Nat) :
    (s.stageFails n code elapsed detail).resultOf n = resultFailed ∧
      bits ((s.stageFails n code elapsed detail).boot.reports.get 0 n).toNat 4 16 = code.toNat ∧ (s.stageFails n code elapsed detail).clock = s.clock := by
  refine ⟨State.stageReports_resultOf _ _ _ _ _ _ (by decide), ?_, State.stageReports_clock ..⟩
  rw [State.stageFails, State.stageReports_boot, SMap.get_put_same]
  exact reportWord_code _ _ _ _ (by decide)

/-- A RESTART that is due begins a cold bring-up with no failed start counted (R365). -/
theorem exec_coldBringUpStart {s : State} {t : Nat} (due : s.boot.restartAt = some t) :
    exec .coldBringUpStart s = .next ({ s.advanceTo t with flash := { (s.advanceTo t).flash with failedStarts := 0 } } : State).coldStart := by
  refine congrArg Host.Outcome.next ?_
  rw [due]

/-- The free values of S0's report leave bring-up and the time. -/
theorem State.overrunDetail_keeps (s : State) (n : Nat) : (s.overrunDetail n).2.boot = s.boot ∧ (s.overrunDetail n).2.clock = s.clock := by
  unfold State.overrunDetail
  split <;> exact ⟨rfl, rfl⟩

/-- The stage in hand overruns its limit (R348). -/
theorem exec_stageTimeout {s : State} {n limit : Nat} (has : stageLimit n = some limit) (runs : s.stageRuns n = true) (in_ : s.boot.stage = some n) :
    exec .stageTimeout s = .next (((s.overrunDetail n).2.advanceTo ((s.overrunDetail n).2.boot.stageAt + 1000 * limit)).stageFails n Codes.stageTimeout limit
      (s.overrunDetail n).1) := by
  refine congrArg Host.Outcome.next ?_
  rw [in_]
  dsimp only
  rw [has]
  exact if_neg (by simp [runs])

/-- The firmware is reset by its watchdog in bring-up (R363). -/
theorem exec_mgmtWatchdogReset {s : State} {n : Nat} (runs : s.stageRuns n = true) (in_ : s.boot.stage = some n) (image : s.boot.running.isSome = true) :
    exec .mgmtWatchdogReset s = .next (s.stageFails n Codes.stageTimeout (s.stageElapsed n) (s.stageDetail n)) := by
  refine congrArg Host.Outcome.next ?_
  rw [in_]
  exact if_pos (by simp [runs, image])

/-! #### A failed start (R346, R363, R364) -/

/-- A start that failed at a stage is counted with its report words. -/
def State.startCounted (s : State) (n : Nat) : State :=
  { s with flash := { s.flash with
    failedStarts := s.flash.failedStarts + 1, failure := (BitVec.ofNat 16 (bits (s.boot.reports.get 0 n).toNat 4 16), n), reports := s.boot.reports } }

/-- The state in which the next start, or minimal mode, begins. -/
def State.startAgain (s : State) : State :=
  if 3 ≤ s.flash.failedStarts then (s.note recFault Codes.startLimit 0 noPlace []).minimalMode else s.coldStart

theorem exec_failedStart {s : State} {n : Nat} (in_ : s.boot.stage = some n) (early : n < 9) (ref : s.boot.refclk = true) (cool : s.pwr.overtemp = false)
    (failed : s.resultOf n = resultFailed) :
    ∃ r, exec .failedStart s = .next { (s.startCounted n).startAgain with boot := { (s.startCounted n).startAgain.boot with restartAt := r } } := by
  refine ⟨s.boot.restartAt, congrArg Host.Outcome.next ?_⟩
  unfold State.startFails
  rw [in_]
  exact if_neg (by simp [early, ref, cool, failed])

/-- What flash keeps of a start that failed, and of the power cycle, a session's end leaves. -/
theorem State.flashLeft_keeps (s : State) : s.flashLeft.failedStarts = s.flash.failedStarts ∧ s.flashLeft.reports = s.flash.reports ∧
    s.flashLeft.failure = s.flash.failure ∧ s.flashLeft.powerCycle = s.flash.powerCycle := by
  unfold State.flashLeft
  split <;> exact ⟨rfl, rfl, rfl, rfl⟩

/-- A cold bring-up runs S0, with no region, and outside minimal mode (R342). -/
theorem State.coldStart_begins (s : State) : s.coldStart.boot.stage = some 0 ∧ s.coldStart.boot.minimal = false ∧ s.coldStart.regions = [] ∧
    s.coldStart.flash.failedStarts = s.flash.failedStarts ∧ s.coldStart.flash.reports = s.flash.reports :=
  ⟨rfl, rfl, rfl, s.flashLeft_keeps.1, s.flashLeft_keeps.2.1⟩

/-- Minimal mode shows the report words and the cause of the last failed start (R364). -/
theorem State.minimalMode_shows (s : State) : s.minimalMode.boot.minimal = true ∧ s.minimalMode.boot.state = 0xA ∧ s.minimalMode.boot.stage = none ∧
    s.minimalMode.boot.reports = s.flash.reports ∧ s.minimalMode.boot.running = none ∧
    s.minimalMode.boot.reason = s.flash.failure.1.toNat + 2 ^ 16 * s.flash.failure.2 := by
  obtain ⟨-, reports, failure, -⟩ := s.flashLeft_keeps
  refine ⟨rfl, rfl, rfl, reports, rfl, ?_⟩
  rw [← failure]
  rfl

/-- Unpowered hubs hold nothing; flash keeps its counts; cells are as a bring-up in the session begins them (R127, R364). -/
theorem State.minimalMode_holds (s : State) : s.minimalMode.regions = [] ∧ s.minimalMode.hubs = [] ∧
    s.minimalMode.cells = s.cells.mapVals .reset (fun _ c => c.again) ∧ s.minimalMode.flash.failedStarts = s.flash.failedStarts ∧
    s.minimalMode.flash.reports = s.flash.reports ∧ s.minimalMode.flash.powerCycle = s.flash.powerCycle := by
  obtain ⟨starts, reports, -, cycle⟩ := s.flashLeft_keeps
  exact ⟨rfl, rfl, rfl, starts, reports, cycle⟩

/-! #### REFCLK there (R343, R369) -/

/-- The records of a session begin: its power cycle is counted unless it goes to minimal mode, and the save of the last one is spent. -/
def State.refclkTaken (s : State) : State :=
  { s with
    boot := { s.boot with refclk := true, refLost := false }
    clk := { s.clk with refPresent := true, gateAt := s.clock }
    flash := { s.flash with
      savedAtEnd := false, powerCycle := if decide (3 ≤ s.flash.failedStarts) then s.flash.powerCycle else (s.flash.powerCycle + 1) % 2 ^ 32 } }

/-- What the last session lost is recorded. -/
def State.lossNoted (s : State) (refLost lost : Bool) : State :=
  let t := if refLost then s.note recEvent Codes.clkNotReady 0 noPlace [] else s
  if lost then t.note recLost 4 0 noPlace (leBytes 4 0xFFFFFFFF) else t

/-- The session whose records have begun. -/
def State.sessionBegun (s : State) : State := s.refclkTaken.resumeTime.lossNoted s.boot.refLost (!s.flash.savedAtEnd)

theorem exec_refclkPresent {s : State} (on : s.boot.powered = true) (none_ : s.boot.refclk = false) :
    exec .refclkPresent s = .next (if decide (3 ≤ s.flash.failedStarts) then s.sessionBegun.minimalMode else s.sessionBegun.stageBegins 0) := by
  refine congrArg Host.Outcome.next ?_
  unfold State.refclkThere
  exact if_neg (by simp [on, none_])

/-- The records of a loss leave everything but the log and the recorder. -/
theorem State.lossNoted_keeps (s : State) (refLost lost : Bool) : (s.lossNoted refLost lost).boot = s.boot ∧ (s.lossNoted refLost lost).cells = s.cells ∧
    (s.lossNoted refLost lost).part = s.part ∧ (s.lossNoted refLost lost).flash.savedAtEnd = s.flash.savedAtEnd ∧
    (s.lossNoted refLost lost).flash.powerCycle = s.flash.powerCycle ∧ (s.lossNoted refLost lost).flash.failedStarts = s.flash.failedStarts ∧
    (s.lossNoted refLost lost).flash.reports = s.flash.reports := by
  cases refLost <;> cases lost <;> simp [State.lossNoted]

theorem State.sessionBegun_keeps (s : State) : s.sessionBegun.boot = { s.boot with refclk := true, refLost := false } ∧ s.sessionBegun.cells = s.cells ∧
    s.sessionBegun.part = s.part ∧ s.sessionBegun.flash.savedAtEnd = false ∧
    s.sessionBegun.flash.powerCycle = (if decide (3 ≤ s.flash.failedStarts) then s.flash.powerCycle else (s.flash.powerCycle + 1) % 2 ^ 32) ∧
    s.sessionBegun.flash.failedStarts = s.flash.failedStarts ∧ s.sessionBegun.flash.reports = s.flash.reports :=
  State.lossNoted_keeps _ _ _

/-! #### The end of a session (R369, R390) -/

theorem exec_inputLoss {s : State} (on : s.boot.powered = true) (ref : s.boot.refclk = true) :
    exec .inputLoss s = .next (((({ s with freeIdx := s.freeIdx + 3 } : State).holdUp s.holdUpFree.1 s.holdUpFree.2).saveUnread).sessionOver false false) := by
  refine congrArg Host.Outcome.next ?_
  unfold State.powerLost
  rw [if_neg (by simp [on]), if_neg (by simp [ref])]

theorem exec_inputLoss_noRefclk {s : State} (on : s.boot.powered = true) (none_ : s.boot.refclk = false) :
    exec .inputLoss s = .next (s.sessionOver false false) := by
  refine congrArg Host.Outcome.next ?_
  unfold State.powerLost
  rw [if_neg (by simp [on]), if_pos (by simp [none_])]

/-- The hold-up leaves the part. -/
theorem State.holdUp_part (s : State) (n : Nat) (torn : Option Nat) : (s.holdUp n torn).part = s.part := congrArg Prod.fst (State.holdUp_rules s n torn)

end Sys2Proof.Machine

namespace Sys2Proof
open Sys2Proof.Machine

theorem claims_powerSessions : Claims.PowerSessions := by
  unfold Claims.PowerSessions
  intro s
  refine ⟨fun off => ?_, fun on none_ few => ?_, fun on none_ many => ?_, fun on ref => ?_, fun on ref => ?_, ?_, fun on => ?_, fun t due => ?_⟩
  · exact congrArg Host.Outcome.next (if_neg (by simp [off]))
  · obtain ⟨boot, cells, part, save, cycle, starts, -⟩ := s.sessionBegun_keeps
    have few' : decide (3 ≤ s.flash.failedStarts) = false := decide_eq_false (Nat.not_le.mpr few)
    refine ⟨_, (exec_refclkPresent on none_).trans (congrArg Host.Outcome.next (if_neg (by simp [few']))), ?_, rfl, State.stageBegins_zero_result _, ?_, save,
      ?_, starts, cells, part⟩
    · exact congrArg BootState.refclk boot
    · have minimal : s.sessionBegun.boot.minimal = s.boot.minimal := by rw [boot]
      exact minimal
    · exact cycle.trans (if_neg (by simp [few']))
  · obtain ⟨-, cells, -, -, cycle, -, reports⟩ := s.sessionBegun_keeps
    have many' : decide (3 ≤ s.flash.failedStarts) = true := decide_eq_true many
    obtain ⟨minimal, state, stage, words, running, -⟩ := s.sessionBegun.minimalMode_shows
    obtain ⟨-, hubs, cells', -, -, cycle'⟩ := s.sessionBegun.minimalMode_holds
    exact ⟨_, (exec_refclkPresent on none_).trans (congrArg Host.Outcome.next (if_pos many')), minimal, state, stage, words.trans reports, running, hubs,
      cells'.trans (by rw [cells]), cycle'.trans (cycle.trans (if_pos many'))⟩
  · exact congrArg Host.Outcome.next (if_pos (by simp [on, ref]))
  · exact exec_inputLoss on ref
  · intro n torn u
    exact ⟨fun lasts => State.holdUp_lasts lasts torn, fun short => State.holdUp_collapses short torn⟩
  · cases ref : s.boot.refclk with
    | false => exact ⟨_, exec_inputLoss_noRefclk on ref, rfl, rfl, rfl, rfl, rfl, fun _ => rfl⟩
    | true => exact ⟨_, exec_inputLoss on ref, rfl, rfl, rfl, rfl, State.holdUp_part _ _ _, fun none_ => by cases none_⟩
  · exact exec_coldBringUpStart due

theorem claims_failedStarts : Claims.FailedStarts := by
  unfold Claims.FailedStarts
  intro s n
  refine ⟨fun limit has runs in_ => ?_, fun runs in_ image => ?_, fun in_ early ref cool failed => ?_⟩
  · obtain ⟨boot, clock⟩ := s.overrunDetail_keeps n
    obtain ⟨result, code, time⟩ := State.stageFails_reports ((s.overrunDetail n).2.advanceTo ((s.overrunDetail n).2.boot.stageAt + 1000 * limit)) n
      Codes.stageTimeout limit (s.overrunDetail n).1
    refine ⟨_, exec_stageTimeout has runs in_, result, code, time.trans ?_⟩
    rw [State.advanceTo_clock, clock, boot]
  · obtain ⟨result, code, -⟩ := State.stageFails_reports s n Codes.stageTimeout (s.stageElapsed n) (s.stageDetail n)
    exact ⟨_, exec_mgmtWatchdogReset runs in_ image, result, code⟩
  · obtain ⟨r, e⟩ := exec_failedStart in_ early ref cool failed
    rcases Nat.lt_or_ge s.flash.failedStarts 2 with few | many
    · have again : (s.startCounted n).startAgain = (s.startCounted n).coldStart := if_neg (by simp only [State.startCounted]; omega)
      obtain ⟨stage, minimal, regions, starts, reports⟩ := (s.startCounted n).coldStart_begins
      rw [again] at e
      exact ⟨_, e, starts, reports, regions, fun _ => ⟨stage, minimal⟩, fun many => absurd few (Nat.not_lt.mpr many)⟩
    · have again : (s.startCounted n).startAgain = ((s.startCounted n).note recFault Codes.startLimit 0 noPlace []).minimalMode :=
        if_pos (Nat.succ_le_succ many)
      obtain ⟨minimal, -, -, words, -, reason⟩ := ((s.startCounted n).note recFault Codes.startLimit 0 noPlace []).minimalMode_shows
      obtain ⟨regions, -, -, starts, reports, -⟩ := ((s.startCounted n).note recFault Codes.startLimit 0 noPlace []).minimalMode_holds
      rw [State.note_flash_reports] at words reports
      rw [State.note_flash_failedStarts] at starts
      rw [State.note_flash_failure] at reason
      rw [again] at e
      refine ⟨_, e, starts, reports, regions, fun few => absurd few (Nat.not_lt.mpr many), fun _ => ⟨minimal, words, reason.trans ?_⟩⟩
      simp only [State.startCounted, BitVec.toNat_ofNat, bits, Nat.mod_mod]

/-- Settles O47: how power and REFCLK begin and end sessions, the hold-up's work step by step, and the failed starts with their counts. -/
theorem powerSessions : Obligations.PowerSessions := ⟨claims_powerSessions, claims_failedStarts⟩

end Sys2Proof
end

section
/-!
Requests of the object dictionary: how the server takes them, and what a request that brings a value comes to.
-/
namespace Sys2Proof.Machine

/-! ### Requests that the dictionary's server takes (R426–R439) -/

/-- A request that the server carries out is heard and then acted on. -/
theorem State.odpRequest_of_serves {s : State} {m : OdpMsg} (h : s.Serves m) : s.odpRequest m = (s.heard m).odpAct m := by
  have new_ : ((s.odp.prune s.clock).records.find? fun r => r.src == m.src && r.seq == m.seq) = none := h.new_
  unfold State.odpRequest
  rw [if_neg (by simp [h.served])]
  dsimp only
  rw [if_neg (by simp [h.formed]), new_]
  rfl

/-- A row of one operation takes its requests. -/
theorem State.odpOp_next {s : State} {m : OdpMsg} {test : Bool} (is : test = true) : (Host.Outcome.next (s.odpOp m test) : Answer) = .next (s.odpRequest m) :=
  congrArg Host.Outcome.next (if_pos is)

/-- A row of an entry takes the requests that write it. -/
theorem State.odpWriteOf_next {s : State} {m : OdpMsg} {test : Nat → Nat → Nat → Bool} {i n v : Nat} (w : s.writes m = some (i, n, v)) (is : test i n v = true) :
    (Host.Outcome.next (s.odpWriteOf m test) : Answer) = .next (s.odpRequest m) := by
  unfold State.odpWriteOf
  rw [w]
  exact congrArg Host.Outcome.next (if_pos is)

/-- What is found in a list, and stands in a part of it, is found there. -/
theorem find?_filter_of_find? {α : Type} {p q : α → Bool} {x : α} : ∀ {l : List α}, l.find? q = some x → p x = true → (l.filter p).find? q = some x
  | [], found, _ => by cases found
  | a :: l, found, keeps => by
    rw [List.find?_cons] at found
    cases hit : q a with
    | true =>
      rw [hit] at found
      obtain rfl : a = x := Option.some.inj found
      rw [List.filter_cons_of_pos keeps, List.find?_cons, hit]
    | false =>
      rw [hit] at found
      have rest := find?_filter_of_find? (l := l) found keeps
      cases stays : p a with
      | true => rw [List.filter_cons_of_pos stays, List.find?_cons, hit, rest]
      | false => rw [List.filter_cons_of_neg (by simp [stays]), rest]

/-- A stage whose time has not come stands when a request is heard. -/
theorem State.heard_stageOf {s : State} {h : Nat} {x : Stage} (found : s.stageOf h = some x) (young : s.clock < x.at_ + 10000000) (m : OdpMsg) :
    (s.heard m).stageOf h = some x :=
  find?_filter_of_find? found (decide_eq_true young)

/-- So does a session. -/
theorem State.heard_sessionOf {s : State} {n : Nat} {src : Source} {k : Session} (found : s.sessionOf n src = some k) (young : s.clock < k.at_ + 300000000)
    (m : OdpMsg) (h : Nat) : ((s.heard m).stageFreed h).sessionOf n src = some k :=
  find?_filter_of_find? found (decide_eq_true young)

/-- A request that brings a value to an entry applies it and answers (R432, R435–R439). -/
theorem State.Brings.request {s u : State} {m : OdpMsg} {index sub : Nat} {e : OdpEntry} {b : List Byte} (h : s.Brings m index sub e b u) :
    s.odpRequest m = (u.applyValue m index sub e b).answer m e := by
  obtain ⟨serves, h⟩ := h
  rw [State.odpRequest_of_serves serves]
  obtain ⟨op, rfl, rfl, entry, access, plain, type, least, most, rfl, rfl⟩ | ⟨op, x, v, found, young, rfl, rfl, entry, value, how⟩ := h
  · have entry : (s.heard m).entryFor m = .inr e := entry
    have open_ : ¬ (e.access = acConst ∨ e.access = acRo ∨ e.access = acRws ∨ e.type = tyDomain) := by
      rcases access with a | a <;> simp [a, plain] <;> decide
    have fits : ¬ ((m.type ≠ 0 ∧ m.type ≠ e.type) ∨ m.length < e.min_ ∨ e.max_ < m.length) := by omega
    simp only [State.odpAct, op, entry]
    unfold State.odpWrite
    dsimp only
    rw [if_neg open_, if_neg fits]
  · simp only [State.odpAct, op]
    unfold State.stageCommits
    rw [State.heard_stageOf found young m]
    dsimp only
    rw [entry, value]
    dsimp only
    obtain ⟨plain, rfl, rfl⟩ | ⟨sealed, none_, rack, rfl, rfl⟩ | ⟨sealed, some_, bytes, k, session, youngToo, count, ok, after⟩ := how
    · rw [if_neg plain]
    · have rack : ((s.heard m).stageFreed m.handle).atTheRack m.src = true := rack
      rw [if_pos sealed, State.commitSealed, if_pos none_, if_pos rack]
    · rw [bytes] at ok
      rw [after, bytes]
      have ok : ((s.heard m).stageFreed m.handle).sealOk k (sealDigest k x (v.take (x.total - sealBytes))) (v.drop (x.total - sealBytes)) = true := ok
      rw [if_pos sealed, State.commitSealed, if_neg some_]
      dsimp only
      rw [State.heard_sessionOf session youngToo m m.handle]
      dsimp only
      rw [if_neg (by simp [count]), if_neg (by simp [ok])]

/-- The entry that a request names stands in the catalogue. -/
theorem State.entryFor_entry {s : State} {m : OdpMsg} {e : OdpEntry} (h : s.entryFor m = .inr e) : odpEntry m.index m.subindex = some e := by
  unfold State.entryFor at h
  split at h
  · cases h
  next found =>
    split at h
    · cases h
    · exact found.trans (congrArg some (Sum.inr.inj h))

/-- The entry is one of the catalogue. -/
theorem State.Brings.entry {s u : State} {m : OdpMsg} {index sub : Nat} {e : OdpEntry} {b : List Byte} (h : s.Brings m index sub e b u) :
    odpEntry index sub = some e := by
  obtain ⟨-, ⟨-, rfl, rfl, entry, -⟩ | ⟨-, x, v, -, -, -, -, entry, -⟩⟩ := h
  · exact State.entryFor_entry entry
  · exact entry

/-- The row that such a request comes in by sees the entry, and, but for a sealed write, the value (R428). -/
theorem State.Brings.writes {s u : State} {m : OdpMsg} {index sub : Nat} {e : OdpEntry} {b : List Byte} (h : s.Brings m index sub e b u) :
    ∃ v, s.writes m = some (index, sub, v) ∧ (e.access ≠ acRws → v = leNat b ∨ v = leNat (b.take 8)) := by
  obtain ⟨-, ⟨op, rfl, rfl, -, -, -, -, -, -, rfl, -⟩ | ⟨op, x, v, found, -, rfl, rfl, -, value, how⟩⟩ := h
  · exact ⟨_, if_pos op, fun _ => .inl rfl⟩
  · refine ⟨_, (if_neg (by omega)).trans ((if_pos op).trans (by rw [found])), fun plain => .inr ?_⟩
    rw [value]
    obtain ⟨-, rfl, -⟩ | ⟨sealed, -⟩ | ⟨sealed, -⟩ := how
    · rfl
    · exact absurd sealed plain
    · exact absurd sealed plain

/-- A request in a row of its entry, whatever the value. -/
theorem State.Brings.exec {s u : State} {m : OdpMsg} {index sub : Nat} {e : OdpEntry} {b : List Byte} (h : s.Brings m index sub e b u)
    {test : Nat → Nat → Nat → Bool} (is : ∀ v, test index sub v = true) :
    (Host.Outcome.next (s.odpWriteOf m test) : Answer) = .next ((u.applyValue m index sub e b).answer m e) := by
  obtain ⟨v, w, -⟩ := h.writes
  rw [State.odpWriteOf_next w (is v), h.request]

/-- Less than 2⁶⁴, a value stands in its first 8 bytes. -/
theorem leNat_take : ∀ (k : Nat) (b : List Byte), leNat b < 256 ^ k → leNat (b.take k) = leNat b
  | 0, b, small => by rw [List.take_zero]; exact (Nat.lt_one_iff.mp small).symm
  | k + 1, [], _ => rfl
  | k + 1, a :: b, small => by
    rw [leNat, Nat.pow_succ] at small
    rw [List.take_succ_cons, leNat, leNat, leNat_take k b (by omega)]

/-- The row of an entry that is not sealed sees a value less than 2⁶⁴ as it is. -/
theorem State.Brings.writes_small {s u : State} {m : OdpMsg} {index sub : Nat} {e : OdpEntry} {b : List Byte} (h : s.Brings m index sub e b u)
    (plain : e.access ≠ acRws) (small : leNat b < 2 ^ 64) : s.writes m = some (index, sub, leNat b) := by
  obtain ⟨v, w, is⟩ := h.writes
  obtain rfl | rfl := is plain
  · exact w
  · rw [w, leNat_take 8 b small]

/-- A value that is in force is answered with OK. -/
theorem inForce_answer (s : State) (m : OdpMsg) (e : OdpEntry) : (Host.Outcome.next ((inForce s).answer m e) : Answer) = s.okTo m e := rfl

/-- A value in its range is in force. -/
theorem State.ranged_answer {s : State} {ok : Bool} (is : ok = true) (t : State) (m : OdpMsg) (e : OdpEntry) :
    (Host.Outcome.next ((s.ranged ok t).answer m e) : Answer) = t.okTo m e := by
  rw [State.ranged, if_pos is]
  rfl

/-- A number from those that are free (log entry 3). -/
theorem freshNumber_free (base : Nat) {top : Nat} {used : List Nat} (room : used.length < top) :
    freshNumber base top used ≠ 0 ∧ freshNumber base top used ∉ used := by
  have injective : ((List.range (used.length + 1)).map fun k => (base + k) % top + 1).Nodup := by
    refine (List.nodup_map_iff_inj_on List.nodup_range).mpr fun i hi j hj same => ?_
    rw [List.mem_range] at hi hj
    have same : base + i ≡ base + j [MOD top] := Nat.succ.inj same
    exact (Nat.ModEq.add_left_cancel' base same).eq_of_lt_of_lt (by omega) (by omega)
  unfold freshNumber
  cases found : ((List.range (used.length + 1)).map fun k => (base + k) % top + 1).find? fun n => !decide (n ∈ used) with
  | none =>
    rw [List.find?_eq_none] at found
    have all : ((List.range (used.length + 1)).map fun k => (base + k) % top + 1) ⊆ used := fun n hn => by simpa using found n hn
    have := (injective.subperm all).length_le
    simp at this
  | some n =>
    obtain ⟨k, -, rfl⟩ := List.mem_map.mp (List.mem_of_find?_eq_some found)
    have free := List.find?_some found
    exact ⟨Nat.succ_ne_zero _, by simpa using free⟩

end Sys2Proof.Machine
end

section
/-!
READ, and the datagrams that are not carried out.
-/
namespace Sys2Proof.Machine

/-! ### READ (R432–R434) -/

/-- A READ that the server carries out. -/
theorem exec_odpRead {s : State} {m : OdpMsg} {e : OdpEntry} (serves : s.Serves m) (op : m.op = 1) (entry : s.entryFor m = .inr e) :
    exec (.odpRead m) s = .next ((s.heard m).odpRead m e) := by
  have entry : (s.heard m).entryFor m = .inr e := entry
  refine (State.odpOp_next (by simp [op])).trans (congrArg Host.Outcome.next ?_)
  rw [State.odpRequest_of_serves serves]
  simp only [State.odpAct, op, entry]

/-- A READ of an entry that may be read, of the right type and length, is refused only where TALLY_QUERY has selected nothing. -/
theorem State.odpRead_of {s : State} {m : OdpMsg} {e : OdpEntry} (may : e.access ≠ acWo) (type : m.type = 0 ∨ m.type = e.type) (length : m.length ≤ 1024)
    (selected : ¬ (m.index = 0xA040 ∧ m.subindex = 2 ∧ s.odp.tally.isNone = true)) :
    s.odpRead m e =
      if e.type ≠ tyDomain then
        ({ s with freeIdx := s.freeIdx + readFree } : State).odpSend m
          { odpReply m (some e) Codes.ok whyNone with payload := s.odpScalar m.index m.subindex e }
      else if e.snapped && m.handle == 0 then s.snapTake m e
      else if e.snapped then s.snapRead m e
      else if m.handle ≠ 0 then s.odpRefuse m (some e) Codes.configInvalid whyExpired
      else ({ s with freeIdx := s.freeIdx + readFree } : State).odpSend m
        (pieceReply m e 0 (s.odpPiece m.index m.subindex m.offset m.length).1 (s.odpPiece m.index m.subindex m.offset m.length).2) := by
  have fits : ¬ ((m.type ≠ 0 ∧ m.type ≠ e.type) ∨ 1024 < m.length) := by omega
  unfold State.odpRead
  dsimp only
  rw [if_neg may, if_neg fits, if_neg selected]

/-- An entry is snapped only where it is a DOMAIN. -/
theorem OdpEntry.snapped_domain {e : OdpEntry} (h : e.snapped = true) : e.type = tyDomain := by
  simp only [OdpEntry.snapped, Bool.and_eq_true, beq_iff_eq] at h
  exact h.1.1

/-- The tallies that TALLY_QUERY selects are a DOMAIN (R445). -/
theorem entry_tally : odpEntry 0xA040 2 = some (domEntry acRo 384 384) := by decide +kernel

/-- A snapshot is taken where there is room for it (R433). -/
theorem State.snapTake_room {s : State} {m : OdpMsg} (e : OdpEntry) (plain : m.index ≠ 0x9010) (room : s.odp.snapshots.length < 16) :
    ∃ h, h ≠ 0 ∧ h ∉ s.odp.snapshots.map (·.handle) ∧
      (s.snapTake m e).odp.sent = s.odp.sent ++
        [pieceReply m e h (s.odpDomain m.index m.subindex).length (sliceOf (s.odpDomain m.index m.subindex) m.offset m.length)] ∧
      (s.snapTake m e).odp.snapshots = s.odp.snapshots ++
        [{ handle := h, index := m.index, subindex := m.subindex, value := s.odpDomain m.index m.subindex, at_ := s.clock }] := by
  have few : (s.odp.snapshots.map (·.handle)).length < 65535 := by rw [List.length_map]; omega
  obtain ⟨some_, free⟩ := freshNumber_free (Config.freeWord (s.freeIdx + readFree)).toNat few
  refine ⟨_, some_, free, ?_⟩
  unfold State.snapTake
  rw [if_neg (Nat.not_le.mpr room), if_neg plain]
  exact ⟨rfl, rfl⟩

/-- A later piece comes from the snapshot (R433). -/
theorem State.snapRead_found {s : State} {m : OdpMsg} {x : Snapshot} (e : OdpEntry)
    (found : (s.odp.snapshots.find? fun x => x.handle == m.handle && x.index == m.index && x.subindex == m.subindex) = some x) :
    (s.snapRead m e).odp.sent = s.odp.sent ++ [pieceReply m e m.handle x.value.length (sliceOf x.value m.offset m.length)] := by
  unfold State.snapRead
  rw [found]
  rfl

theorem claims_dictionaryReads : Claims.DictionaryReads := by
  unfold Claims.DictionaryReads
  intro s m serves u
  refine ⟨?_, ?_, ?_, ?_, ?_, ?_⟩
  · intro e op entry may type length plain
    have selected : ¬ (m.index = 0xA040 ∧ m.subindex = 2 ∧ (s.heard m).odp.tally.isNone = true) := fun ⟨index, sub, _⟩ => by
      have named := State.entryFor_entry entry
      rw [index, sub, entry_tally] at named
      exact plain (Option.some.inj named ▸ rfl)
    refine (exec_odpRead serves op entry).trans (congrArg Host.Outcome.next ?_)
    rw [State.odpRead_of may type length selected, if_pos plain]
  · intro e op entry may type length snapped handle other selected room value
    obtain ⟨h, some_, free, sent, kept⟩ := (s.heard m).snapTake_room e other room
    have whole : (s.heard m).odpRead m e = (s.heard m).snapTake m e := by
      rw [State.odpRead_of (s := s.heard m) may type length selected, if_neg (not_not.mpr (OdpEntry.snapped_domain snapped)), if_pos (by simp [snapped, handle])]
    exact ⟨_, h, (exec_odpRead serves op entry).trans (congrArg Host.Outcome.next whole), sent, kept, some_, free⟩
  · intro e x op entry may type length snapped handle selected found
    have whole : (s.heard m).odpRead m e = (s.heard m).snapRead m e := by
      rw [State.odpRead_of (s := s.heard m) may type length selected, if_neg (not_not.mpr (OdpEntry.snapped_domain snapped)), if_neg (by simp [handle]), if_pos snapped]
    exact ⟨_, (exec_odpRead serves op entry).trans (congrArg Host.Outcome.next whole), State.snapRead_found e found⟩
  · exact fun e op entry mayNot => (exec_odpRead serves op entry).trans (congrArg Host.Outcome.next (if_pos mayNot))
  · intro why e op none_
    have none_ : (s.heard m).entryFor m = .inl (why, e) := none_
    refine (State.odpOp_next (by simp [op])).trans (congrArg Host.Outcome.next ?_)
    rw [State.odpRequest_of_serves serves]
    simp only [State.odpAct, op, none_]
    rfl
  · intro op
    refine (State.odpOp_next (by simp; omega)).trans (congrArg Host.Outcome.next ?_)
    rw [State.odpRequest_of_serves serves]
    unfold State.odpAct
    dsimp only
    split
    iterate 6 next other => omega
    next => rfl

/-! ### Datagrams that are not carried out (R426, R430) -/

/-- A request that is not carried out, in any row that takes it. -/
structure State.Unserved (s : State) (m : OdpMsg) (i : Instr) : Prop where
  /-- At a port that is not served nothing changes (R364, R426). -/
  port : s.odpServed m.src.port = false → exec i s = .next s
  /-- A datagram that is not well formed is discarded and counted (R426). -/
  malformed : s.odpServed m.src.port = true → odpMalformed m = true →
    exec i s = .next { s with odp := { s.odp.prune s.clock with discards := min 0xFFFFFFFF (s.odp.discards + 1) } }
  /-- A repeated request is answered as before, or waits for the first copy's answer (R430). -/
  repeated : ∀ r, s.odpServed m.src.port = true → odpMalformed m = false → s.odp.records.find? (fun r => r.src == m.src && r.seq == m.seq) = some r →
    exec i s = .next { s with odp := { s.odp.prune s.clock with sent := s.odp.sent ++ r.reply.toList } }

/-- A row that hands the request on to the server does so for these too. -/
theorem State.unserved_of {s : State} {m : OdpMsg} {i : Instr} (row : exec i s = .next (s.odpRequest m)) : s.Unserved m i := by
  refine ⟨fun off => ?_, fun on bad => ?_, fun r on formed found => ?_⟩ <;> refine row.trans (congrArg Host.Outcome.next ?_) <;> unfold State.odpRequest
  · exact if_pos (by simp [off])
  · rw [if_neg (by simp [on])]
    exact if_pos bad
  · have found : ((s.odp.prune s.clock).records.find? fun r => r.src == m.src && r.seq == m.seq) = some r := found
    rw [if_neg (by simp [on])]
    dsimp only
    rw [if_neg (by simp [formed]), found]
    dsimp only
    cases r.reply with
    | some a => rfl
    | none =>
      simp only [Option.toList_none, List.append_nil]
      rfl

/-- A WRITE in a row of its entry. -/
theorem State.write_row {s : State} {m : OdpMsg} (op : m.op = 2) {test : Nat → Nat → Nat → Bool} (is : test m.index m.subindex (leNat m.payload) = true) :
    (Host.Outcome.next (s.odpWriteOf m test) : Answer) = .next (s.odpRequest m) :=
  State.odpWriteOf_next (if_pos op) is

theorem claims_dictionaryDiscards : Claims.DictionaryDiscards := by
  unfold Claims.DictionaryDiscards
  intro s m i v row
  suffices h : exec i s = .next (s.odpRequest m) from ⟨(State.unserved_of h).port, (State.unserved_of h).malformed, (State.unserved_of h).repeated⟩
  simp only [List.mem_cons, List.not_mem_nil, or_false, Prod.mk.injEq] at row
  obtain byOp | ⟨op, index, sub, rfl⟩ | ⟨op, byIndex | bySub | ⟨low, high, rfl⟩ | ⟨index, rfl⟩ | ⟨index, rfl⟩ | ⟨index, sub, rfl⟩⟩ := row
  · obtain ⟨rfl, op⟩ | ⟨rfl, op⟩ | ⟨rfl, op⟩ | ⟨rfl, op⟩ | ⟨rfl, op⟩ | ⟨rfl, op⟩ := byOp <;> exact State.odpOp_next (by simp [op])
  · exact State.odpOp_next (by simp [op, index, sub])
  · obtain ⟨rfl, index⟩ | ⟨rfl, index⟩ | ⟨rfl, index⟩ | ⟨rfl, index⟩ | ⟨rfl, index⟩ | ⟨rfl, index⟩ | ⟨rfl, index⟩ | ⟨rfl, index⟩ | ⟨rfl, index⟩ := byIndex <;>
      exact State.write_row op (by simp [index])
  · obtain ⟨rfl, index, sub⟩ | ⟨rfl, index, sub⟩ | ⟨rfl, index, sub⟩ | ⟨rfl, index, sub⟩ | ⟨rfl, index, sub⟩ | ⟨rfl, index, sub⟩ | ⟨rfl, index, sub⟩ |
      ⟨rfl, index, sub⟩ := bySub <;> exact State.write_row op (by simp [index, sub])
  · exact State.write_row op (by simp [low, high])
  · split
    next close => exact State.write_row op (by simp [index]; exact close)
    next open_ => exact State.write_row op (by simp [index]; exact open_)
  · split
    next reset => exact State.write_row op (by simp [index]; exact reset)
    next arm => exact State.write_row op (by simp [index]; exact arm)
  · split
    next thaw => exact State.write_row op (by simp [index, sub]; exact thaw)
    next freeze => exact State.write_row op (by simp [index, sub]; exact freeze)

end Sys2Proof.Machine

namespace Sys2Proof
open Sys2Proof.Machine

/-- Settles O49: the outcomes of a READ by the entry it names, and, once for every row that hands a request to the server, what is not carried out. -/
theorem dictionaryReads : Obligations.DictionaryReads := ⟨claims_dictionaryReads, claims_dictionaryDiscards⟩

end Sys2Proof
end

section
/-!
Two claims about values written through the dictionary that the model does not meet.
-/
namespace Sys2Proof.Machine

/-! ### What settings written through the dictionary do not do as stated -/

/-- A management complex that serves; nothing else has happened since reset. -/
def servingState : State := { State.reset with boot := { State.reset.boot with running := some [] } }

/-- A source at the host port. -/
def hostSource : Source := { port := .host, addr := 0, udp := 0 }

/-- A WRITE of SSC_DEPTH 0 for the west half (R377). -/
def depthWrite : OdpMsg :=
  { src := hostSource, version := 1, op := 2, flags := 0, seq := 0, index := 0x3002, subindex := 1, type := 0, session := 0, offset := 0, length := 1,
    handle := 0, total := 0, payload := [0] }

theorem depthWrite_brings : servingState.Brings depthWrite 0x3002 1 (numEntry tyU8 acRw) [0] (servingState.heard depthWrite) :=
  ⟨⟨by decide +kernel, by decide +kernel, by decide +kernel⟩, .inl ⟨by decide +kernel, by decide +kernel, by decide +kernel, by decide +kernel, by decide +kernel,
    by decide +kernel, by decide +kernel, by decide +kernel, by decide +kernel, rfl, rfl⟩⟩

/-- Whether the west half's spread was written in the gate in hand. -/
def Answer.westMoved : Answer → Bool
  | .next s => s.clk.west.moved
  | _ => false

/-- A stage of OPERATOR_KEY's highest subindex, entry 0 of the index, with one byte received. -/
def slotZeroStage : Stage :=
  { handle := 1, src := hostSource, index := 0x9020, subindex := 0, session := 0, count := 0, total := 1, pieces := [(0, [0])], at_ := 0 }

/-- A management complex that serves and holds that stage. -/
def slotZeroState : State := { servingState with odp := { servingState.odp with stages := [slotZeroStage] } }

/-- The commit of it. -/
def slotZeroCommit : OdpMsg :=
  { src := hostSource, version := 1, op := 5, flags := 0, seq := 0, index := 0, subindex := 0, type := 0, session := 0, offset := 0, length := 0, handle := 1,
    total := 0, payload := [] }

theorem slotZeroCommit_brings :
    slotZeroState.Brings slotZeroCommit 0x9020 0 (numEntry tyU8 acConst) [0] ((slotZeroState.heard slotZeroCommit).stageFreed 1) :=
  ⟨⟨by decide +kernel, by decide +kernel, by decide +kernel⟩, .inr ⟨rfl, slotZeroStage, [0], by decide +kernel, by decide +kernel, rfl, rfl, by decide +kernel,
    by decide +kernel, .inl ⟨by decide +kernel, rfl, rfl⟩⟩⟩

/-- The status of every response sent. -/
def Answer.statuses : Answer → List Code
  | .next s => s.odp.sent.map (·.status)
  | _ => []

end Sys2Proof.Machine

namespace Sys2Proof
open Sys2Proof.Machine

/-- Refutes O52: a spread write also marks its half as moved in the gate in hand (R384), which the stated next state leaves as it was; here the west half's
SSC_DEPTH is written with 0 right after reset, where nothing has moved. -/
theorem not_boardSettings : ¬ Obligations.BoardSettings := by
  unfold Obligations.BoardSettings Claims.BoardSettings
  rintro ⟨-, settings⟩
  obtain ⟨-, -, -, -, -, spread, -⟩ := settings servingState depthWrite (numEntry tyU8 acRw) [0] (servingState.heard depthWrite)
  have stated := congrArg Answer.westMoved ((spread 1 false (.inl rfl) depthWrite_brings).1 (by decide +kernel) (by decide))
  revert stated
  decide +kernel

/-- Refutes O51: the claim on OPERATOR_KEY holds for every subindex, entry 0 of the index among them, which is the constant highest subindex; a stage of it that
comes to be committed is refused with ACCESS, and no key is stored. -/
theorem not_sessionsAndKeys : ¬ Obligations.SessionsAndKeys := by
  unfold Obligations.SessionsAndKeys Claims.Keys
  rintro ⟨-, keys⟩
  obtain ⟨fills, -⟩ := keys slotZeroState slotZeroCommit (numEntry tyU8 acConst) [0] ((slotZeroState.heard slotZeroCommit).stageFreed 1) 0
  have stated := congrArg Answer.statuses (fills slotZeroCommit_brings)
  revert stated
  decide +kernel

end Sys2Proof
end

section
/-!
WRITE, the stages, and what time ends.
-/
namespace Sys2Proof.Machine

/-! ### Writes and stages (R432, R435), and what time ends (R433, R435, R437) -/

/-- T_THROTTLE_C and PACE_GROUP as the catalogue has them (R431). -/
theorem entry_tThrottle : odpEntry 0x4003 1 = some (numEntry tyU8 acRw) := by decide +kernel

theorem entry_paceGroup : odpEntry 0x6005 1 = some (domEntry acRw 0 128) := by decide +kernel

/-- A WRITE, in the row of its operation, that brings a value. -/
theorem exec_odpWrite {s u : State} {m : OdpMsg} {index sub : Nat} {e : OdpEntry} {b : List Byte} (op : m.op = 2) (brings : s.Brings m index sub e b u) :
    exec (.odpWrite m) s = .next ((u.applyValue m index sub e b).answer m e) :=
  (State.odpOp_next (by simp [op])).trans (congrArg Host.Outcome.next brings.request)

/-- A STAGE_COMMIT, in the row of its operation, that brings a value. -/
theorem exec_stageCommit {s u : State} {m : OdpMsg} {index sub : Nat} {e : OdpEntry} {b : List Byte} (op : m.op = 5) (brings : s.Brings m index sub e b u) :
    exec (.stageCommit m) s = .next ((u.applyValue m index sub e b).answer m e) :=
  (State.odpOp_next (by simp [op])).trans (congrArg Host.Outcome.next brings.request)

/-- A value that comes to T_THROTTLE_C (R407). -/
theorem State.applyValue_tThrottle {s : State} {m : OdpMsg} {e : OdpEntry} {b : List Byte} (named : odpEntry 0x4003 1 = some e) :
    s.applyValue m 0x4003 1 e b =
      s.ranged (decide (85 ≤ leNat b ∧ leNat b ≤ 100)) ({ s with pwr := { s.pwr with tThrottle := leNat b } } : State) := by
  obtain rfl := Option.some.inj (entry_tThrottle.symm.trans named)
  rfl

/-- A STAGE_BEGIN that finds room opens a stage under a handle that no other has (R435). -/
theorem State.stageOpens_room {s : State} {m : OdpMsg} {e : OdpEntry} (domain : e.type = tyDomain) (access : e.access = acRw ∨ e.access = acWo)
    (type : m.type = 0 ∨ m.type = e.type) (fits : e.fits m.index m.total = true) (few : s.odp.stages.length < 16)
    (room : (s.odp.stages.map (·.total)).sum + m.total ≤ stageRoom) :
    ∃ h, h ≠ 0 ∧ h ∉ s.odp.stages.map (·.handle) ∧
      (s.stageOpens m e).odp.stages = s.odp.stages ++ [
        { handle := h, src := m.src, index := m.index, subindex := m.subindex, session := if e.access = acRws then m.session else 0, count := m.offset,
          total := m.total, pieces := [], at_ := s.clock }] ∧
      (s.stageOpens m e).odp.sent = s.odp.sent ++ [{ odpReply m (some e) Codes.ok whyNone with handle := h, total := m.total }] := by
  have handles : (s.odp.stages.map (·.handle)).length < 65535 := by rw [List.length_map]; omega
  obtain ⟨some_, free⟩ := freshNumber_free (Config.freeWord s.freeIdx).toNat handles
  have plain : e.access ≠ acRws := by rcases access with a | a <;> rw [a] <;> decide
  have may : ¬ (e.access = acConst ∨ e.access = acRo ∨ (e.type ≠ tyDomain ∧ e.access ≠ acRws)) := by
    rcases access with a | a <;> simp [a, domain] <;> decide
  have length : valueLength e m.session m.total = some m.total := if_neg fun h => plain h.1
  refine ⟨_, some_, free, ?_⟩
  unfold State.stageOpens
  dsimp only
  rw [length, if_neg may, if_neg fun h => plain h.1, if_neg (by simp only [fits]; simp; omega), if_neg (by omega)]
  exact ⟨rfl, rfl⟩

/-- A request of an operation that names a stage. -/
theorem State.odpAct_stages {s : State} {m : OdpMsg} : (m.op = 4 → s.odpAct m = s.stageFills m) ∧ (m.op = 5 → s.odpAct m = s.stageCommits m) ∧
    (m.op = 6 → s.odpAct m = s.stageCancels m) := by
  refine ⟨fun op => ?_, fun op => ?_, fun op => ?_⟩ <;> simp only [State.odpAct, op]

/-- A request in the row of its operation. -/
theorem exec_odpOp {s : State} {m : OdpMsg} (serves : s.Serves m) {test : Bool} (is : test = true) :
    (Host.Outcome.next (s.odpOp m test) : Answer) = .next ((s.heard m).odpAct m) :=
  (State.odpOp_next is).trans (congrArg Host.Outcome.next (State.odpRequest_of_serves serves))

/-- STAGE_DATA of the one stage that stands keeps its piece (R435). -/
theorem State.stageFills_one {s : State} {m : OdpMsg} {x : Stage} (only : s.odp.stages = [x]) (is : x.handle = m.handle) (some_ : 0 < m.length)
    (small : m.length ≤ 1024) (inside : m.offset + m.length ≤ x.total) :
    (s.stageFills m).odp.stages = [{ x with pieces := x.pieces ++ [(m.offset, m.payload)], at_ := s.clock }] ∧
      (s.stageFills m).odp.sent = s.odp.sent ++ [{ odpReply m (odpEntry x.index x.subindex) Codes.ok whyNone with handle := m.handle }] := by
  have found : s.stageOf m.handle = some x := by simp [State.stageOf, only, is]
  unfold State.stageFills
  rw [found]
  dsimp only
  rw [if_neg (by omega)]
  refine ⟨?_, rfl⟩
  simp [State.odpSend, only, is, Nat.pos_iff_ne_zero.mp some_]

/-- The due time of one that is found is reached, and what time ends has ended. -/
theorem State.odpDue_found {α : Type} {s : State} {o : Option α} {x : α} {due : α → Nat} (found : o = some x) (later : s.clock ≤ due x) :
    ∃ t, (Host.Outcome.next (s.odpDue (o.map due)) : Answer) = .next t ∧ t.clock = due x ∧ t.odp = s.odp.prune t.clock :=
  ⟨_, rfl, by rw [found]; exact Nat.max_eq_right later, by rw [found]; rfl⟩

theorem claims_dictionaryWrites : Claims.DictionaryWrites := by
  unfold Claims.DictionaryWrites
  intro s m
  refine ⟨?_, ?_, ?_, ?_, ?_, ?_, ?_⟩
  · rintro e b u v op brings rfl low high
    rw [exec_odpWrite op brings, State.applyValue_tThrottle brings.entry]
    exact State.ranged_answer (decide_eq_true ⟨low, high⟩) _ m e
  · rintro e b u v op brings rfl out
    rw [exec_odpWrite op brings, State.applyValue_tThrottle brings.entry, State.ranged, if_neg (by simp; omega)]
    rfl
  · intro e op serves entry domain access type fits few room
    obtain ⟨h, some_, free, stages, sent⟩ := (s.heard m).stageOpens_room domain access type fits few room
    have entry : (s.heard m).entryFor m = .inr e := entry
    have act : (s.heard m).odpAct m = (s.heard m).stageOpens m e := by simp only [State.odpAct, op, entry]
    exact ⟨_, _, (exec_odpOp serves (by simp [op])).trans (congrArg Host.Outcome.next act), stages, rfl, rfl, rfl, rfl, rfl, rfl, some_, free, sent⟩
  · intro x op serves only is some_ small inside
    obtain ⟨stages, sent⟩ := State.stageFills_one only is some_ small inside
    exact ⟨_, (exec_odpOp serves (by simp [op])).trans (congrArg Host.Outcome.next (State.odpAct_stages.1 op)), stages, sent⟩
  · intro x op serves found
    refine (exec_odpOp serves (by simp [op])).trans (congrArg Host.Outcome.next ((State.odpAct_stages.2.2 op).trans ?_))
    unfold State.stageCancels
    rw [found]
  · intro x e op serves found entry missing
    refine (exec_odpOp serves (by simp [op])).trans (congrArg Host.Outcome.next ((State.odpAct_stages.2.1 op).trans ?_))
    unfold State.stageCommits
    rw [found]
    dsimp only
    rw [entry, missing]
  · intro e b u op brings ids
    obtain rfl := Option.some.inj (entry_paceGroup.symm.trans brings.entry)
    refine (exec_stageCommit op brings).trans (State.ranged_answer (ok := ((List.range (b.length / 2)).map fun i => numAt b (2 * i) 2).all fun e => decide (e ≤ 4095)) ?_ _ m _)
    simpa [List.all_eq_true] using ids

theorem claims_dictionaryTimes : Claims.DictionaryTimes := by
  unfold Claims.DictionaryTimes
  intro s
  refine ⟨fun h x found later => ?_, fun h x found later => ?_, fun src x found later => ?_, fun n x found later => ?_⟩
  · obtain ⟨t, e, clock, odp⟩ := State.odpDue_found (due := fun x : Stage => x.at_ + 10000000) found later
    exact ⟨t, e, clock, congrArg OdpState.stages odp⟩
  · obtain ⟨t, e, clock, odp⟩ := State.odpDue_found (due := fun x : Snapshot => x.at_ + 2000000) found later
    exact ⟨t, e, clock, congrArg OdpState.snapshots odp⟩
  · obtain ⟨t, e, clock, odp⟩ := State.odpDue_found (due := fun x : Challenge => x.at_ + 30000000) found later
    exact ⟨t, e, clock, congrArg OdpState.challenges odp⟩
  · obtain ⟨t, e, clock, odp⟩ := State.odpDue_found (due := fun x : Session => x.at_ + 300000000) found later
    exact ⟨t, e, clock, congrArg OdpState.sessions odp⟩

end Sys2Proof.Machine

namespace Sys2Proof
open Sys2Proof.Machine

/-- Settles O50: what a request that brings a value comes to, each operation on a stage, and the pruning at a due time. -/
theorem dictionaryWrites : Obligations.DictionaryWrites := ⟨claims_dictionaryWrites, claims_dictionaryTimes⟩

end Sys2Proof
end

section
/-!
Relend's tables, queries, marks and freezes, written through the dictionary.
-/
namespace Sys2Proof.Machine

/-! ### Relend's tables written through the dictionary (R271, R276–R278) -/

/-- A value that comes to a number entry, and to a DOMAIN (R443). -/
theorem State.applyValue_number {e : OdpEntry} (plain : e.type ≠ tyDomain) (s : State) (m : OdpMsg) (index sub : Nat) (b : List Byte) :
    s.applyValue m index sub e b = s.applyNumber m index sub (leNat b) := if_neg plain

theorem State.applyValue_domain {e : OdpEntry} (domain : e.type = tyDomain) (s : State) (m : OdpMsg) (index sub : Nat) (b : List Byte) :
    s.applyValue m index sub e b = s.applyDomain m index sub b := if_pos domain

/-- An entry of a run of the catalogue (R431). -/
theorem odpEntry_run {index sub : Nat} {e : OdpEntry} {r : Nat × Nat × Nat × OdpEntry}
    (run : (catalogueRuns.find? fun r => decide (r.1 ≤ index ∧ index ≤ r.2.1)) = some r) (listed : sub ≠ 0) (named : odpEntry index sub = some e) : e = r.2.2.2 := by
  unfold odpEntry at named
  split at named
  · cases named
  · rw [if_neg listed] at named
    split at named
    · cases named
    · rw [run] at named
      exact (Option.some.inj named).symm

theorem windowRun : ∀ k, k < 32 → (catalogueRuns.find? fun r => decide (r.1 ≤ 0x6100 + k ∧ 0x6100 + k ≤ r.2.1)) = some (0x6100, 0x611F, 128, domEntry acRw 16 16) := by
  decide +kernel

/-- A window's record is a DOMAIN that its row writes (R276). -/
theorem State.applyValue_window {s : State} {m : OdpMsg} {n : Nat} {e : OdpEntry} {b : List Byte} (is : n < 4096)
    (named : odpEntry (0x6100 + n / 128) (n % 128 + 1) = some e) : s.applyValue m (0x6100 + n / 128) (n % 128 + 1) e b = s.writeWindow n b := by
  have domain : e.type = tyDomain := by rw [odpEntry_run (windowRun (n / 128) (by omega)) (by omega) named]; rfl
  have number : 128 * (0x6100 + n / 128 - 0x6100) + (n % 128 + 1) - 1 = n := by omega
  rw [State.applyValue_domain domain]
  unfold State.applyDomain
  split
  iterate 9 next other => omega
  next => rw [if_pos (by omega), number]

theorem entry_routes : odpEntry 0x6003 1 = some (domEntry acRw 16384 16384) := by decide +kernel

theorem entry_windowCmd : odpEntry 0x6120 1 = some (numEntry tyU32 acWo) := by decide +kernel

/-- The fields of a command word below 2¹⁶: the window, what to do, and zeros (R277). -/
theorem windowWord {n k : Nat} (is : n < 4096) (small : k < 16) :
    bits (n + 4096 * k) 0 12 = n ∧ bits (n + 4096 * k) 12 4 = k ∧ bits (n + 4096 * k) 16 16 = 0 := by
  simp only [bits, Nat.shiftRight_eq_div_pow]
  omega

/-- A window command as its rows see it, and what comes of it. -/
theorem State.Brings.windowCommand {s u : State} {m : OdpMsg} {e : OdpEntry} {b : List Byte} {n k : Nat} (h : s.Brings m 0x6120 1 e b u) (is : n < 4096)
    (small : k < 16) (word : leNat b = n + 4096 * k) {test : Nat → Nat → Nat → Bool} (row : test 0x6120 1 (n + 4096 * k) = true) :
    (Host.Outcome.next (s.odpWriteOf m test) : Answer) = .next ((u.windowCommand m (n + 4096 * k)).answer m e) := by
  obtain rfl := Option.some.inj (entry_windowCmd.symm.trans h.entry)
  rw [State.odpWriteOf_next (h.writes_small (by decide) (by omega)) (word.symm ▸ row), h.request, State.applyValue_number (by decide), ← word]
  rfl

/-- Each command acts on its window (R277, R278). -/
theorem State.windowCommand_open {s : State} {m : OdpMsg} {n : Nat} (is : n < 4096) : s.windowCommand m (n + 4096 * 1) = s.openWindow n := by
  obtain ⟨window, what, zeros⟩ := windowWord (k := 1) is (by decide)
  refine (if_neg (not_not.mpr zeros)).trans ?_
  simp only [what, window]

theorem State.windowCommand_close {s : State} {m : OdpMsg} {n : Nat} (is : n < 4096) : s.windowCommand m (n + 4096 * 2) = s.closeWindow m n := by
  obtain ⟨window, what, zeros⟩ := windowWord (k := 2) is (by decide)
  refine (if_neg (not_not.mpr zeros)).trans ?_
  simp only [what, window]

/-- A write that names a CLOSED window with a legal range opens it (R277). -/
theorem State.openWindow_closed {s : State} {n : Nat} (closed : (s.window n).mode = .closed) :
    s.openWindow n = s.ranged ((s.window n).rangeOk && !s.windowTaken (s.window n))
      (s.mapWindow n fun w => { w with mode := .open_, accepted := 0, rejected := 0 }) := if_neg (not_not.mpr closed)

/-- A CLOSING window in which nothing is in hand any more is CLOSED, and its closes complete (R278). -/
theorem exec_windowCloseComplete {s : State} {n : Nat} (is : n < 4096) (closing : (s.window n).mode = .closing) (done : (s.window n).busy = 0) :
    exec (.windowCloseComplete n) s =
      .next ((s.window n).closers.foldl (fun (s : State) m => s.odpDone m 0x6120 1) (s.mapWindow n fun w => { w with mode := .closed, closers := [] })) :=
  (if_pos (decide_eq_true is)).trans (congrArg Host.Outcome.next (if_pos ⟨closing, done⟩))

theorem claims_windowsAndRoutes : Claims.WindowsAndRoutes := by
  unfold Claims.WindowsAndRoutes
  intro s m e b u
  refine ⟨fun brings routes => ?_, fun n is brings => ?_, fun n is brings word closed => ?_, fun n is brings word => ?_, fun n is closing done => ?_⟩
  · obtain rfl := Option.some.inj (entry_routes.symm.trans brings.entry)
    have all : ((List.range 4096).all fun i => routeOk (numAt b (4 * i) 4)) = true := List.all_eq_true.mpr fun i hi => routes i (List.mem_range.mp hi)
    have applied : u.applyDomain m 0x6003 1 b = u.writeRoutes b := rfl
    refine (brings.exec fun _ => by decide).trans ?_
    rw [State.applyValue_domain rfl, applied, State.writeRoutes, State.ranged, if_pos all]
    exact inForce_answer _ m _
  · have row : exec (.windowRecordWrite m) s = .next ((u.writeWindow n b).answer m e) := by
      rw [← State.applyValue_window (m := m) is brings.entry]
      exact brings.exec fun _ => by simp; omega
    refine ⟨fun closed => row.trans ?_, fun other => row.trans ?_⟩
    · rw [State.writeWindow, if_neg (not_not.mpr closed)]
      rfl
    · rw [State.writeWindow, if_pos other]
      rfl
  · have row : exec (.windowOpen m) s = .next ((u.openWindow n).answer m e) := by
      rw [← State.windowCommand_open (m := m) is]
      exact brings.windowCommand is (by decide) word (by simp [(windowWord (k := 1) is (by decide)).2.1])
    rw [State.openWindow_closed closed] at row
    refine ⟨fun range_ free => row.trans (State.ranged_answer (by simp [range_, free]) _ m e), fun bad => row.trans ?_⟩
    rw [State.ranged, if_neg (by rcases bad with bad | bad <;> simp [bad])]
    rfl
  · have row : exec (.windowClose m) s = .next ((u.closeWindow m n).answer m e) := by
      rw [← State.windowCommand_close (m := m) is]
      exact brings.windowCommand is (by decide) word (by simp [(windowWord (k := 2) is (by decide)).2.1])
    refine ⟨fun open_ idle => row.trans ?_, fun busy => row.trans ?_⟩
    · rw [State.closeWindow, if_neg (by simp [open_]), if_pos ⟨open_, idle⟩]
      rfl
    · rw [State.closeWindow, if_neg (by rcases busy with busy | busy <;> simp [busy]), if_neg (by rcases busy with busy | busy <;> simp [busy])]
      rfl
  · exact exec_windowCloseComplete is closing done

/-! ### Queries, marks and freezes (R444, R445, R466) -/

theorem entry_musterQuery : odpEntry 0xA011 1 = some (numEntry tyU8 acWo) := by decide +kernel

theorem entry_tallyQuery : odpEntry 0xA040 1 = some (numEntry tyU32 acWo) := by decide +kernel

theorem entry_routerMarks : odpEntry 0xA030 1 = some (numEntry tyU32 acRw) := by decide +kernel

theorem entry_freeze : odpEntry 0x8010 1 = some (numEntry tyU8 acWo) := by decide +kernel

/-- A cell that exists lies on the mesh (R15). -/
theorem Coord.present_bounds {c : Coord} (h : c.present = true) : c.x < 960 ∧ c.y < 640 := by
  unfold Coord.present Coord.field? at h
  split at h
  next inside => exact inside
  next => cases h

/-- A cell's word names it (R445). -/
theorem tallyWord {c : Coord} (x : c.x < 1024) : bits (c.x + 1024 * c.y) 0 10 = c.x ∧ (c.y < 1024 → bits (c.x + 1024 * c.y) 10 10 = c.y) := by
  simp only [bits, Nat.shiftRight_eq_div_pow]
  omega

theorem claims_queriesAndMarks : Claims.QueriesAndMarks := by
  unfold Claims.QueriesAndMarks
  intro s m e b u
  refine ⟨fun brings => ?_, fun c brings present word => ?_, fun brings low high stop hold => ?_, fun brings target => ?_, fun brings target may => ?_⟩
  · obtain rfl := Option.some.inj (entry_musterQuery.symm.trans brings.entry)
    exact brings.exec fun _ => by decide
  · obtain rfl := Option.some.inj (entry_tallyQuery.symm.trans brings.entry)
    obtain ⟨x, y⟩ : c.x < 960 ∧ c.y < 640 := Coord.present_bounds present
    obtain ⟨atX, atY⟩ := tallyWord (c := c) (by omega)
    have named : (⟨bits (leNat b) 0 10, bits (leNat b) 10 10⟩ : Coord) = c := by rw [word, atX, atY (by omega)]
    refine (brings.exec fun _ => by decide).trans
      (State.ranged_answer (ok := (⟨bits (leNat b) 0 10, bits (leNat b) 10 10⟩ : Coord).present && decide (leNat b < 2 ^ 20)) ?_ _ m _)
    rw [named, present]
    simp
    omega
  · obtain rfl := Option.some.inj (entry_routerMarks.symm.trans brings.entry)
    exact (brings.exec fun _ => by decide).trans (State.ranged_answer (decide_eq_true ⟨low, high, stop, hold⟩) _ m _)
  · obtain rfl := Option.some.inj (entry_freeze.symm.trans brings.entry)
    have row : exec (.freeze m) s = .next ((u.writeFreeze (leNat b)).answer m (numEntry tyU8 acWo)) := by
      refine (State.odpWriteOf_next (brings.writes_small (by decide) (by omega)) (by simp; omega)).trans ?_
      rw [brings.request]
      rfl
    unfold State.writeFreeze at row
    rw [if_neg (by omega)] at row
    refine ⟨fun may => row.trans ?_, fun mayNot => row.trans ?_⟩
    · rw [if_neg (by simp [may])]
      rfl
    · rw [if_pos mayNot]
      rfl
  · obtain rfl := Option.some.inj (entry_freeze.symm.trans brings.entry)
    have row : exec (.thaw m) s = .next ((u.writeFreeze (leNat b)).answer m (numEntry tyU8 acWo)) := by
      refine (State.odpWriteOf_next (brings.writes_small (by decide) (by omega)) (by simp [target])).trans ?_
      rw [brings.request]
      rfl
    refine row.trans ?_
    unfold State.writeFreeze
    rw [target, if_neg (by omega), if_neg (by simp [may])]
    rfl

end Sys2Proof.Machine

namespace Sys2Proof
open Sys2Proof.Machine

/-- Settles O53: each value by the row of its entry, through what the request comes to. -/
theorem windowsAndQueries : Obligations.WindowsAndQueries := ⟨claims_windowsAndRoutes, claims_queriesAndMarks⟩

end Sys2Proof
end

section
/-!
Queue pairs and RoCEv2 requests.
-/
namespace Sys2Proof.Machine

/-! ### Writes of queue pairs (R442, R481) -/

theorem pairRun : (catalogueRuns.find? fun r => decide (r.1 ≤ 0x6320 ∧ 0x6320 ≤ r.2.1)) = some (0x6320, 0x6320, 64, domEntry acRw 32 32) := by decide +kernel

/-- A value's first byte, and the first byte of its first 8. -/
theorem leNat_first {b : List Byte} (some_ : b ≠ []) : leNat b % 256 = numAt b 0 1 ∧ leNat (b.take 8) % 256 = numAt b 0 1 := by
  cases b with
  | nil => exact absurd rfl some_
  | cons a b =>
    have byte := a.isLt
    simp only [List.take_succ_cons, numAt, sliceOf, List.drop_zero, List.take_zero, leNat]
    omega

/-- A write of a queue pair as its rows see it, and what comes of it. -/
theorem State.Brings.pair {s u : State} {m : OdpMsg} {e : OdpEntry} {b : List Byte} {q : Nat} (h : s.Brings m 0x6320 (q + 1) e b u) (length : b.length = 32)
    {test : Nat → Nat → Nat → Bool} (row : ∀ v, v % 256 = numAt b 0 1 → test 0x6320 (q + 1) v = true) :
    (Host.Outcome.next (s.odpWriteOf m test) : Answer) = .next ((u.writePair m q b).answer m e) := by
  obtain rfl := odpEntry_run pairRun (Nat.succ_ne_zero q) h.entry
  obtain ⟨v, w, is⟩ := h.writes
  obtain ⟨whole, front⟩ := leNat_first (b := b) (by rintro rfl; cases length)
  have first : v % 256 = numAt b 0 1 := by
    obtain rfl | rfl := is (by decide)
    · exact whole
    · exact front
  rw [State.odpWriteOf_next w (row v first), h.request]
  rfl

theorem claims_queuePairWrites : Claims.QueuePairWrites := by
  unfold Claims.QueuePairWrites
  intro s q is
  refine ⟨fun m e b u brings arm length => ?_, fun m e b u brings reset length busy => ?_, fun idle => ?_⟩
  · have row : exec (.qpArm m) s = .next ((u.writePair m q b).answer m e) := brings.pair length fun v first => by simp [first, arm]
    refine ⟨fun inReset ok => row.trans ?_, fun other => row.trans ?_⟩ <;> unfold State.writePair
    · rw [if_pos inReset]
      simp only [arm]
      exact State.ranged_answer ok _ m e
    · rw [if_neg other, if_pos (by simp [arm])]
      rfl
  · have row : exec (.qpReset m) s = .next ((u.writePair m q b).answer m e) := brings.pair length fun v first => by simp [first, reset]
    refine ⟨fun jobs resets => row.trans ?_, fun hand => row.trans ?_⟩ <;> unfold State.writePair <;> rw [if_neg busy, if_neg (by simp [reset])]
    · rw [if_pos (by simp [jobs, resets])]
      rfl
    · rw [if_neg (by rcases hand with hand | hand <;> simp [hand])]
      rfl
  · exact (if_pos (decide_eq_true is)).trans (congrArg Host.Outcome.next (if_neg (by simp [idle])))

/-! ### RoCEv2 requests in their place (R480, R482, R483) -/

/-- A pair that is RTS is found as it was changed. -/
theorem State.pair_mapPair {s : State} {q : Nat} {f : QueuePair → QueuePair} (rts : (f (s.pair q)).mode = .rts) : (s.mapPair q f).pair q = f (s.pair q) := by
  refine SMap.get_set_same _ _ (.inr fun zero => ?_)
  have : (f (s.pair q)).mode = QueuePair.zero.mode := congrArg QueuePair.mode zero
  rw [rts] at this
  cases this

/-- A pair that takes packets is RTS (R483). -/
theorem QueuePair.takes_rts {x : QueuePair} (h : x.takes = true) : x.mode = .rts := by
  simp only [QueuePair.takes, Bool.and_eq_true, beq_iff_eq] at h
  exact h.1.1

/-- A packet that is not marked, at a pair that takes it, with the expected PSN (R482). -/
theorem State.rdmaArrives_expected {s : State} {p : RdmaPkt} (up : s.eth.up = true) (plain : p.ce = false) (takes : (s.pair p.qp).takes = true)
    (expected : p.psn = (s.pair p.qp).psn) (kind : RdmaKind) :
    s.rdmaArrives p kind = (s.mapPair p.qp fun x => { x with naked := false }).rdmaTake p kind false := by
  have marked : s.rdmaMarked p.qp p.ce = s := by simp [State.rdmaMarked, plain]
  have place : (p.psn + 2 ^ 24 - (s.pair p.qp).psn) % 2 ^ 24 = 0 := by omega
  rw [State.rdmaArrives, if_pos up, State.rdmaPacket, if_neg (by simp [takes]), marked]
  unfold State.rdmaPlace
  exact if_pos place

/-- The window of a request has one more in hand (R278). -/
def State.rdmaHeld (s : State) (n : Nat) : State := s.mapWindow n fun w => { w with accepted := satAdd 0xFFFFFFFF w.accepted 1, busy := w.busy + 1 }

/-- A window that admits a request (R278, R482). -/
structure State.Admits (s : State) (n kind addr len : Nat) : Prop where
  open_ : (s.window n).mode = .open_
  covers : (s.window n).covers 0 addr len = true
  allows : (s.window n).allows kind = true

/-- It does so whatever the pair comes to. -/
theorem State.Admits.check {s : State} {n kind addr len : Nat} (h : s.Admits n kind addr len) (q : Nat) (f : QueuePair → QueuePair) :
    (s.mapPair q f).rdmaCheck n kind addr len = (true, (s.mapPair q f).rdmaHeld n) := by
  obtain ⟨open_, covers, allows⟩ := h
  have admits : ((s.window n).mode == .open_ && (s.window n).covers 0 addr len && (s.window n).allows kind) = true := by simp [open_, covers, allows]
  exact if_pos admits

/-- A WRITE that begins a message, in its place, waits for its answer (R482). -/
theorem State.rdmaTake_begins {s : State} {p : RdmaPkt} {kind : RdmaKind} (is : kind = .first ∨ kind = .only)
    (good : s.rdmaBad p kind (s.pair p.qp).message p.rkey p.va = false) (admits : s.Admits (p.rkey % 4096) kWrite p.va p.payload.length) :
    s.rdmaTake p kind false = ((s.mapPair p.qp fun x => { x with
        psn := (p.psn + 1) % 2 ^ 24, message := if kind = .first then some (p.rkey, p.va + p.payload.length) else none }).rdmaHeld (p.rkey % 4096)).rdmaQueue p.qp
      { psn := p.psn, use := .write p.payload, window := some (p.rkey % 4096), addr := p.va } := by
  rcases is with rfl | rfl <;> simp [State.rdmaTake, good, admits.check]

/-- A WRITE that goes on with a message, in its place, waits for its answer (R482). -/
theorem State.rdmaTake_continues {s : State} {p : RdmaPkt} {kind : RdmaKind} {rkey addr : Nat} (is : kind = .middle ∨ kind = .last)
    (message : (s.pair p.qp).message = some (rkey, addr)) (good : s.rdmaBad p kind (some (rkey, addr)) rkey addr = false)
    (admits : s.Admits (rkey % 4096) kWrite addr p.payload.length) :
    s.rdmaTake p kind false = ((s.mapPair p.qp fun x => { x with
        psn := (p.psn + 1) % 2 ^ 24, message := if kind = .middle then some (rkey, addr + p.payload.length) else none }).rdmaHeld (rkey % 4096)).rdmaQueue p.qp
      { psn := p.psn, use := .write p.payload, window := some (rkey % 4096), addr } := by
  rcases is with rfl | rfl <;> simp [State.rdmaTake, message, good, admits.check]

/-- A READ in its place waits for its answer (R482). -/
theorem State.rdmaTake_reads {s : State} {p : RdmaPkt} (good : s.rdmaBad p .read (s.pair p.qp).message p.rkey p.va = false)
    (admits : s.Admits (p.rkey % 4096) kRead p.va p.dmaLen) :
    s.rdmaTake p .read false = ((s.mapPair p.qp fun x => { x with
        psn := (p.psn + max 1 ((p.dmaLen + 4095) / 4096)) % 2 ^ 24 }).rdmaHeld (p.rkey % 4096)).rdmaQueue p.qp
      { psn := p.psn, use := .read (p.dmaLen / 64), window := some (p.rkey % 4096), addr := p.va } := by
  simp [State.rdmaTake, good, admits.check]

/-- A pair that takes none discards the packet, counted (R483). -/
theorem State.rdmaArrives_discards {s : State} {p : RdmaPkt} (up : s.eth.up = true) (none_ : (s.pair p.qp).takes = false) (kind : RdmaKind) :
    s.rdmaArrives p kind = s.ethCount ethQpDiscards := by
  rw [State.rdmaArrives, if_pos up, State.rdmaPacket, if_pos (by simp [none_])]

/-- The lines of the one packet in hand are written: it is acknowledged, and its window has one request fewer in hand (R278, R482). -/
theorem State.rdmaLines_written {s v : State} {q : Nat} {j : RdmaJob} {data : List Byte} (jobs : (s.pair q).jobs = [j]) (use : j.use = .write data)
    (rts : (s.pair q).mode = .rts) (written : (s.mapPair q fun x => { x with jobs := [] }).rdmaWriteLines q j data [] = (none, v))
    (idle : (v.pair q).jobs = []) :
    s.rdmaLines q [] = match j.window with
      | some n => (v.rdmaSend (.ack q j.psn)).mapWindow n fun w => { w with busy := w.busy - 1 }
      | none => v.rdmaSend (.ack q j.psn) := by
  have speaks : ((s.mapPair q fun x => { x with jobs := [] }).pair q).mode = .rts := by rw [State.pair_mapPair rts]; exact rts
  have answered : (s.mapPair q fun x => { x with jobs := [] }).rdmaAnswer q j [] = v.rdmaSend (.ack q j.psn) := by
    unfold State.rdmaAnswer
    simp [use, written, speaks]
  have ends : s.rdmaHeadEnds q [] = match j.window with
      | some n => (v.rdmaSend (.ack q j.psn)).mapWindow n fun w => { w with busy := w.busy - 1 }
      | none => v.rdmaSend (.ack q j.psn) := by
    unfold State.rdmaHeadEnds
    rw [jobs]
    dsimp only
    cases j.window <;> simp only [answered]
  have settled : ((s.rdmaHeadEnds q []).pair q).jobs = [] := by
    rw [ends]
    cases j.window <;> exact idle
  rw [State.rdmaLines, settled, ← ends]
  rfl

theorem claims_rdmaRequests : Claims.RdmaRequests := by
  unfold Claims.RdmaRequests
  intro s p is up plain
  have row {i : Instr} {kind : RdmaKind} (e : exec i s = answerIf (decide (p.qp < 64)) (s.rdmaArrives p kind)) : exec i s = .next (s.rdmaArrives p kind) :=
    e.trans (if_pos (decide_eq_true is))
  refine ⟨fun i hi none_ => ?_, ?_, fun j data v jobs use rts written idle => ?_⟩
  · simp only [List.mem_cons, List.not_mem_nil, or_false] at hi
    obtain rfl | rfl | rfl | rfl | rfl := hi <;> exact (row rfl).trans (congrArg Host.Outcome.next (State.rdmaArrives_discards up none_ _))
  · intro u w takes expected _
    have arrives (kind : RdmaKind) : s.rdmaArrives p kind = u.rdmaTake p kind false := State.rdmaArrives_expected up plain takes expected kind
    have kept := congrArg QueuePair.message (State.pair_mapPair (f := fun x => { x with naked := false }) (QueuePair.takes_rts takes))
    have message : (u.pair p.qp).message = (s.pair p.qp).message := kept
    refine ⟨?_, ?_, ?_⟩
    · intro r hr good open_ covers allows next v
      simp only [List.mem_cons, List.not_mem_nil, or_false] at hr
      rw [← message] at good
      obtain rfl | rfl := hr
      · exact (row rfl).trans (congrArg Host.Outcome.next ((arrives _).trans (State.rdmaTake_begins (.inl rfl) good ⟨open_, covers, allows⟩)))
      · exact (row rfl).trans (congrArg Host.Outcome.next ((arrives _).trans (State.rdmaTake_begins (.inr rfl) good ⟨open_, covers, allows⟩)))
    · intro r hr rkey addr going good open_ covers allows next v
      simp only [List.mem_cons, List.not_mem_nil, or_false] at hr
      rw [← message] at going
      obtain rfl | rfl := hr
      · exact (row rfl).trans (congrArg Host.Outcome.next ((arrives _).trans (State.rdmaTake_continues (.inl rfl) going good ⟨open_, covers, allows⟩)))
      · exact (row rfl).trans (congrArg Host.Outcome.next ((arrives _).trans (State.rdmaTake_continues (.inr rfl) going good ⟨open_, covers, allows⟩)))
    · intro good open_ covers allows
      rw [← message] at good
      exact (row rfl).trans (congrArg Host.Outcome.next ((arrives _).trans (State.rdmaTake_reads good ⟨open_, covers, allows⟩)))
  · refine (if_pos (decide_eq_true is)).trans (congrArg Host.Outcome.next ((State.rdmaLines_written jobs use rts written idle).trans ?_))
    cases j.window <;> rfl

end Sys2Proof.Machine

namespace Sys2Proof
open Sys2Proof.Machine

/-- Settles O54: the writes of a queue pair by its mode, and what becomes of a request in its place and of the lines of the first one. -/
theorem queuePairs : Obligations.QueuePairs := ⟨claims_queuePairWrites, claims_rdmaRequests⟩

end Sys2Proof
end

section
/-!
The Ethernet ports: frames, link and cage.
-/
namespace Sys2Proof.Machine

/-! ### Frames at the Ethernet ports (R426, R476–R479) -/

/-- A frame at a port of an engine in its session. -/
theorem exec_ethFrameReceive {s : State} {f : EthFrame} (on : s.boot.powered = true) (ref : s.boot.refclk = true) :
    exec (.ethFrameReceive f) s = .next (match f.port with
      | .host => s.hostFrame f
      | .field => s.fieldFrame f) := by
  refine congrArg Host.Outcome.next ((if_neg (by simp [on, ref])).trans ?_)
  cases f.port <;> rfl

theorem exec_hostFrame {s : State} {f : EthFrame} (on : s.boot.powered = true) (ref : s.boot.refclk = true) (at_ : f.port = .host) :
    exec (.ethFrameReceive f) s = .next (s.hostFrame f) := by
  rw [exec_ethFrameReceive on ref, at_]

theorem exec_fieldFrame {s : State} {f : EthFrame} (on : s.boot.powered = true) (ref : s.boot.refclk = true) (at_ : f.port = .field) :
    exec (.ethFrameReceive f) s = .next (s.fieldFrame f) := by
  rw [exec_ethFrameReceive on ref, at_]

/-- Has the receive buffer room for a frame at the host port (R478)? -/
def State.rxFits (s : State) (f : EthFrame) : Prop := ((s.eth.rx.filter fun g => g.port == .host).map (·.length)).sum + f.length ≤ rxRoom

/-- A plain frame at the host port, its link up and the buffer with room for it (R478, R479). -/
structure State.HostHears (s : State) (f : EthFrame) : Prop where
  up : s.eth.up = true
  untagged : f.tagged = false
  running : f.pause = false
  fits : s.rxFits f

/-- Of a length that the port takes, it is judged by its address and what it holds. -/
theorem State.hostFrame_heard {s : State} {f : EthFrame} (h : s.HostHears f) (long : 64 ≤ f.length) (short : f.length ≤ 9216) :
    s.hostFrame f =
      if !s.addressed f then s
      else if frameAsks f then s.ethAnswer f
      else if f.kind ≠ EthKind.udp then s
      else if !(f.checksumOk || f.ipv4Zero) then s.ethCount ethUdp
      else if f.dstUdp ≠ udpHcp ∧ f.dstUdp ≠ udpOdp ∧ f.dstUdp ≠ udpRoce then s.ethCount ethUdp
      else s.datagram f := by
  obtain ⟨up, untagged, running, fits⟩ := h
  have fits : ¬ rxRoom < ((s.eth.rx.filter fun g => g.port == .host).map (·.length)).sum + f.length := Nat.not_lt.mpr fits
  unfold State.hostFrame
  rw [if_neg (by simp [up]), if_neg (by simp [untagged]), if_neg (by simp [running]), if_neg (by omega), if_neg fits]

/-- A frame for no address of the port changes nothing. -/
theorem State.hostFrame_elsewhere {s : State} {f : EthFrame} (h : s.HostHears f) (elsewhere : s.addressed f = false) : s.hostFrame f = s := by
  by_cases length : f.length < 64 ∨ 9216 < f.length
  · obtain ⟨up, untagged, running, -⟩ := h
    unfold State.hostFrame
    rw [if_neg (by simp [up]), if_neg (by simp [untagged]), if_neg (by simp [running]), if_pos length]
  · rw [State.hostFrame_heard h (by omega) (by omega), if_pos (by simp [elsewhere])]

/-- A UDP datagram at an address of the host port (R479). -/
theorem State.hostFrame_udp {s : State} {f : EthFrame} (h : s.HostHears f) (long : 64 ≤ f.length) (short : f.length ≤ 9216) (udp : f.kind = .udp)
    (here : s.addressed f = true) (sound : f.checksumOk = true ∨ f.ipv4Zero = true) :
    s.hostFrame f = if f.dstUdp ≠ udpHcp ∧ f.dstUdp ≠ udpOdp ∧ f.dstUdp ≠ udpRoce then s.ethCount ethUdp else s.datagram f := by
  have plain : frameAsks f = false := by simp [frameAsks, udp]
  rw [State.hostFrame_heard h long short, if_neg (by simp [here]), if_neg (by simp [plain]), if_neg (by simp [udp]),
    if_neg (by rcases sound with sound | sound <;> simp [sound])]

/-- A datagram for a server other than RoCEv2, long enough for its header, joins the receive buffer (R426, R479). -/
theorem State.datagram_joins {s : State} {f : EthFrame} (is : f.dstUdp = udpHcp ∨ (f.dstUdp = udpOdp ∧ 32 ≤ f.payload.length)) :
    s.datagram f = { s with eth := { s.eth with rx := s.eth.rx ++ [f] } } := by
  unfold State.datagram
  rcases is with hcp | ⟨odp, long⟩
  · rw [if_neg (by rw [hcp]; exact fun h => absurd h.1 (by decide))]
    exact if_neg (by rw [hcp]; decide)
  · rw [if_neg (by omega)]
    exact if_neg (by rw [odp]; decide)

/-- An ODP datagram shorter than its header is discarded and counted where it is served (R426). -/
theorem State.datagram_short {s : State} {f : EthFrame} (odp : f.dstUdp = udpOdp) (short : f.payload.length < 32) (at_ : f.port = .host) :
    s.datagram f = if s.odpServed .host then { s with odp := { s.odp with discards := min 0xFFFFFFFF (s.odp.discards + 1) } } else s := by
  unfold State.datagram State.odpShort
  rw [if_pos ⟨odp, short⟩, at_]
  rfl

/-- A request that is answered where it arrives: ARP of IPv4, neighbour discovery of IPv6, echo (R479). -/
theorem frameAsks_of {f : EthFrame} (h : (f.kind = .arp ∧ f.ipv4 = true) ∨ (f.kind = .neighbour ∧ f.ipv4 = false) ∨ f.kind = .echo) : frameAsks f = true := by
  unfold frameAsks
  rcases h with ⟨kind, four⟩ | ⟨kind, six⟩ | kind
  · rw [kind, four]
  · rw [kind, six]; rfl
  · rw [kind]

/-- The link and the cage outside minimal mode (R364, R477). -/
theorem exec_hostLinkDown {s : State} (on : s.boot.powered = true) (ref : s.boot.refclk = true) (up : Bool) :
    exec (.hostLinkDown up) s = .next (if s.boot.minimal then s else { s with eth := { s.eth with up := up && s.eth.module_ } }) := by
  refine congrArg Host.Outcome.next ?_
  cases minimal : s.boot.minimal <;> simp [on, ref]

theorem exec_osfpModuleInserted {s : State} (on : s.boot.powered = true) (ref : s.boot.refclk = true) (watts : Nat) :
    exec (.osfpModuleInserted watts) s =
      .next (if s.boot.minimal then s else { s with eth := { s.eth with module_ := decide (watts ≤ 18), up := s.eth.up && decide (watts ≤ 18) } }) := by
  refine congrArg Host.Outcome.next ?_
  cases minimal : s.boot.minimal <;> simp [on, ref]

end Sys2Proof.Machine

namespace Sys2Proof
open Sys2Proof.Machine

/-- Settles O55: a frame by its port, the checks in their order, and what it holds; then the link and the cage. -/
theorem hostPorts : Obligations.HostPorts := by
  unfold Obligations.HostPorts
  intro s f on ref
  refine ⟨fun at_ up untagged running long short fits udp here sound => ?_, fun elsewhere at_ => ?_, fun four at_ dest => ?_, fun six dest => ?_,
    fun long short asks here at_ => ?_, fun at_ up tagged => ?_, fun at_ up untagged pause => ?_, fun at_ up untagged running long short full => ?_,
    fun at_ long short udp here sound => ?_, fun up full => ?_, fun watts full => ?_, fun watts up minimal => ?_⟩
  · have row := (exec_hostFrame on ref at_).trans (congrArg Host.Outcome.next (State.hostFrame_udp ⟨up, untagged, running, fits⟩ long short udp here sound))
    refine ⟨fun odp small => row.trans ?_, fun is => row.trans ?_, fun hcp odp roce => row.trans (congrArg Host.Outcome.next (if_pos ⟨hcp, odp, roce⟩))⟩
    · rw [if_neg (fun h => h.2.1 odp), State.datagram_short odp small at_]
    · rw [if_neg (fun h => is.elim h.1 fun o => h.2.1 o.1), State.datagram_joins is]
  · cases port : f.port with
    | host =>
      have hears : s.HostHears f := by
        obtain field | ⟨up, untagged, running, fits⟩ := at_
        · rw [port] at field; cases field
        · exact ⟨up, untagged, running, fits⟩
      rw [exec_hostFrame on ref port, State.hostFrame_elsewhere hears elsewhere]
    | field => exact (exec_fieldFrame on ref port).trans (congrArg Host.Outcome.next (if_pos (by simp [elsewhere])))
  · simp [State.addressed, four, at_, dest]
  · simp [State.addressed, six, dest]
  · refine ⟨s.ethAnswer f, _, ?_, rfl, rfl, rfl, rfl, rfl, rfl⟩
    cases port : f.port with
    | host =>
      have hears : s.HostHears f := by
        obtain field | ⟨up, untagged, running, fits⟩ := at_
        · rw [port] at field; cases field
        · exact ⟨up, untagged, running, fits⟩
      rw [exec_hostFrame on ref port, State.hostFrame_heard hears long (by omega), if_neg (by simp [here]), if_pos (frameAsks_of asks)]
    | field =>
      rw [exec_fieldFrame on ref port, State.fieldFrame, if_neg (by simp [here]; omega), if_pos (frameAsks_of asks)]
  · rw [exec_hostFrame on ref at_, State.hostFrame, if_neg (by simp [up]), if_pos tagged]
  · rw [exec_hostFrame on ref at_, State.hostFrame, if_neg (by simp [up]), if_neg (by simp [untagged]), if_pos pause]
  · rw [exec_hostFrame on ref at_, State.hostFrame, if_neg (by simp [up]), if_neg (by simp [untagged]), if_neg (by simp [running]), if_neg (by omega), if_pos full]
  · have plain : frameAsks f = false := by simp [frameAsks, udp]
    have row : exec (.ethFrameReceive f) s = .next (if f.dstUdp = udpHcp ∨ f.dstUdp = udpRoce then
        { s with eth := { s.eth with fieldDiscards := s.eth.fieldDiscards + 1 } } else if f.dstUdp = udpOdp then s.datagram f else s) := by
      rw [exec_fieldFrame on ref at_, State.fieldFrame, if_neg (by simp [here]; omega), if_neg (by simp [plain]), if_neg (by simp [udp, sound])]
    refine ⟨fun other => row.trans (congrArg Host.Outcome.next (if_pos other)), fun odp long => row.trans ?_⟩
    rw [if_neg (by rw [odp]; decide), if_pos odp, State.datagram_joins (.inr ⟨odp, long⟩)]
  · exact (exec_hostLinkDown on ref up).trans (congrArg Host.Outcome.next (if_neg (by simp [full])))
  · exact (exec_osfpModuleInserted on ref watts).trans (congrArg Host.Outcome.next (if_neg (by simp [full])))
  · exact ⟨(exec_osfpModuleInserted on ref watts).trans (congrArg Host.Outcome.next (if_pos minimal)),
      (exec_hostLinkDown on ref up).trans (congrArg Host.Outcome.next (if_pos minimal))⟩

end Sys2Proof
end
